-- ==== Sys2Proof/Word.lean ====
section
/-! DEFINITION. The word types of the HK-2 and their plainest arithmetic (spec 00 R8, R11). -/

namespace Sys2Proof

/-- A scalar register's content (R15). -/
abbrev Word := BitVec 64

/-- A byte of memory, scratchpad or weight store (R8). -/
abbrev Byte := BitVec 8

/-- A handle register's content (R17). -/
abbrev Handle := BitVec 256

/-- A predicate's content (R149). -/
abbrev Pred := BitVec 1024

end Sys2Proof
end

