-- ==== Sys2Proof/Config.lean ====
section
/-! DEFINITION. What one implementation fixes, and the free values: constants without a body, of which
no proof can see a value. A free value is drawn with the model's own counter (State.tick) or with the
data it depends on; the log entries say where each is used. -/

namespace Sys2Proof

/-- What may fail as the part starts (R346, R379): power sequencing, the identity key, a die of a cube, an HBM stack, the
second tier's channels, a weight-store bus of a column, the weight store's initialisation, a UALink port, the host link. -/
inductive StartFailure where
  | power
  | identity
  | die (cube die : Nat)
  | hbm
  | tier2
  | bus (core iface bus : Nat)
  | store
  | port (n : Nat)
  | hostLink
  deriving DecidableEq, Repr

end Sys2Proof

namespace Sys2Proof.Config

/-- A value the spec leaves open, drawn afresh for each draw number (log 4). -/
opaque freeWord : Nat → BitVec 64

/-- A 256-bit value the spec leaves open: a handle register not saved (R50; log 6). -/
opaque freeHandle : Nat → BitVec 256

/-- A predicate not saved (R50; log 6). -/
opaque freePred : Nat → BitVec 1024

/-- A byte the spec leaves unpredictable, by draw number and location (R379, R390, R282; log 6). -/
opaque freeByte : Nat → Nat → BitVec 8

/-- What memory holds where a start leaves it unpredictable, by draw number, as a list of bytes by location (R379;
log 6). -/
opaque freeCells : Nat → List (Nat × BitVec 8)

/-- Whether a byte of package memory lies in a page of a key slot that was reloaded, by draw number and location (R383;
log 6). -/
opaque underSlot : Nat → Nat → Bool

/-- How what step k of the start sequence loaded or decided is written as bytes, where the spec does not say it (R382; log 9). -/
opaque loaded : Nat → List Nat → List (BitVec 8)

/-- The scale a quantised group takes where its terms carry unlike scales, by their group records (R141, R143; log 4). -/
opaque freeScale : List Nat → BitVec 16

/-- Whether a byte of a copy that stops early had landed, by operation, receiver and place of the byte (log 4). -/
opaque landsEarly : Nat → Nat → Nat → Bool

/-- Whether a fetch that finds its word in the core's fetch buffers takes the word as it was, by draw number and
location (R273; log 22). -/
opaque oldWord : Nat → Nat → Bool

/-- How many steps of the machine a store waits at most before it is performed at the next wider scope, if nothing of
its own context stands before it, by store (R246; log 3). -/
opaque patience : Nat → Nat

/-- Which of several moves the machine makes next, where no rule orders them (log 5). -/
opaque choice : Nat → Nat

/-- Nanoseconds of timebase that pass in a step of the machine (R358; log 7). -/
opaque elapsedNs : Nat → Nat

/-- Clock cycles of a region that pass in a step of the machine (R355, R356; log 7). -/
opaque elapsedCycles : Nat → Nat

/-- The scheduler's forecast (SCUBE, SVEC, HORIZON), implementation-defined (R363; log 8). -/
opaque forecast : Nat → BitVec 32

/-- The limit, if any, that a member foresees it needs from its forecasts: how far announcements follow them is left open
(R341, R363; log 8). -/
opaque foreseen : Nat → List (BitVec 64) → Option Nat

/-- The limit, if any, to which a member's own thermal margin lets it raise its limit back at an instant (R341; log 8). -/
opaque margin : Nat → Option Nat

/-- Nanoseconds after its retirement at which a core's node hears that an elevator drains, at most 1 µs (R353; log 48). -/
opaque broadcast : Nat → Nat → Nat

/-- Whether packets of an operation are inside an elevator when its drain ends, by draw number and operation (R353;
log 48). -/
opaque inElevator : Nat → Nat → Bool

/-- What fails as the part starts, by draw number (R346, R379; log 49). -/
opaque selfTest : Nat → List StartFailure

/-- Silicon stepping (R388; log 8). -/
opaque stepping : BitVec 8

/-- Expected in-field-test signature of a physical core (R390; log 8). -/
opaque expectedSignature : Nat → BitVec 64

/-- Preferred cluster and core position of the HBM channel that homes a physical address: the
channel-to-column affinity table that Rontal writes at start-up (R284; log 8). -/
opaque affinity : Nat → Nat × Nat

/-- Mean power of a die over a telemetry interval, in mW, and the other measured fields (R366; log 8). -/
opaque telemetry : Nat → Nat → BitVec 128

/-- SHA-384 (R380, R382; log 9). -/
opaque sha384 : List (BitVec 8) → BitVec 384

/-- The key pair that a derivation label gives with the physically unclonable function: 0 the identity key, 1 the
configuration key (R380, R381; log 9). -/
opaque derived : Nat → BitVec 384

/-- The firmware-signing key (R380; log 9). -/
opaque firmwareKey : BitVec 384

/-- ECDSA P-384 verification of a digest under a key (R380; log 9). -/
opaque verify : BitVec 384 → BitVec 384 → BitVec 768 → Bool

/-- ECDSA P-384 signature of a digest by a key (R380, R382; log 9). -/
opaque sign : BitVec 384 → BitVec 384 → BitVec 768

/-- The session key of a secured session, by draw number (R383; log 9). -/
opaque sessionKey : Nat → BitVec 256

/-- The 32-bit digest of a collective record (R334; log 9). -/
opaque recordDigest : List (BitVec 8) → BitVec 32

/-- The key inside a wrapped key, or none where it does not unwrap under a session key (R383; log 9). -/
opaque unwrapKey : BitVec 256 → BitVec 320 → Option (BitVec 256)

/-! Sizes and figures of the HK-2 (R2, R5). -/

def coresPerCube : Nat := 96
def contextsPerCore : Nat := 4
def groupFloorMHz : Nat := 1400
def maxMHz : Nat := 2100
def launchQueues : Nat := 32
def keySlots : Nat := 8192
def polders : Nat := 4096

/-! Addresses that Rontal chooses and the spec leaves open (R269, R278, R288, R275; log 10). -/

/-- Physical base of the polder table (R278). -/
def polderBase : Nat := 0x3800000000 - 0x100000
/-- Physical base of the address-space table: 8 bytes a root-table address (R269). -/
def asidBase : Nat := 0x3800000000 - 0x200000
/-- Physical base of the save area (R288). -/
def saveBase : Nat := 0x2000000000
/-- How many bytes the save area has (R288). -/
def saveBytes : Nat := 0x40000000
/-- Physical base of the fatal dump in cube 0; that in cube 1 lies 2^38 higher (R387). -/
def dumpBase : Nat := 0x2E00000000
/-- Physical base of the race shadow (R275). -/
def raceShadowBase : Nat := 0x3000000000

end Sys2Proof.Config
end

