-- ==== Sys2Proof/Syntax.lean ====
section
/-! DEFINITION. The instruction set of the HK-2 as syntax: one constructor per row of the opcode
table. The first 228 constructors are instruction words (spec 02 R56 to R70), their arguments the
fields of the word's body from high to low; the header (E, S, W) belongs to the word, not to the
instruction (R41). The last 98 are the operations and events that have no word (spec 95): a step of
the machine or of its surroundings, their arguments the object acted on or the data that arrive. -/

namespace Sys2Proof

/-- The header of an instruction word (R41): ends the bundle, safe point, stall count. -/
structure Header where
  e : BitVec 1
  s : BitVec 1
  w : BitVec 2
  deriving DecidableEq, Repr

/-- One constructor per row of the opcode table, in the table's order. -/
inductive Instr where
  | addi (d : BitVec 5) (a : BitVec 5) (i : BitVec 12)
  | addiW (d : BitVec 5) (a : BitVec 5) (i : BitVec 12)
  | andi (d : BitVec 5) (a : BitVec 5) (i : BitVec 12)
  | ori (d : BitVec 5) (a : BitVec 5) (i : BitVec 12)
  | xori (d : BitVec 5) (a : BitVec 5) (i : BitVec 12)
  | slli (d : BitVec 5) (a : BitVec 5) (x : BitVec 1) (n : BitVec 6)
  | srli (d : BitVec 5) (a : BitVec 5) (x : BitVec 1) (n : BitVec 6)
  | srai (d : BitVec 5) (a : BitVec 5) (x : BitVec 1) (n : BitVec 6)
  | li (d : BitVec 5) (i : BitVec 17)
  | lui (d : BitVec 5) (i : BitVec 17)
  | lsi (d : BitVec 5) (i : BitVec 17)
  | add (d : BitVec 5) (a : BitVec 5) (b : BitVec 5) (t : BitVec 1)
  | sub (d : BitVec 5) (a : BitVec 5) (b : BitVec 5) (t : BitVec 1)
  | and (d : BitVec 5) (a : BitVec 5) (b : BitVec 5) (t : BitVec 1)
  | or (d : BitVec 5) (a : BitVec 5) (b : BitVec 5) (t : BitVec 1)
  | xor (d : BitVec 5) (a : BitVec 5) (b : BitVec 5) (t : BitVec 1)
  | andn (d : BitVec 5) (a : BitVec 5) (b : BitVec 5) (t : BitVec 1)
  | sll (d : BitVec 5) (a : BitVec 5) (b : BitVec 5) (t : BitVec 1)
  | srl (d : BitVec 5) (a : BitVec 5) (b : BitVec 5) (t : BitVec 1)
  | sra (d : BitVec 5) (a : BitVec 5) (b : BitVec 5) (t : BitVec 1)
  | min (d : BitVec 5) (a : BitVec 5) (b : BitVec 5) (t : BitVec 1)
  | max (d : BitVec 5) (a : BitVec 5) (b : BitVec 5) (t : BitVec 1)
  | minu (d : BitVec 5) (a : BitVec 5) (b : BitVec 5) (t : BitVec 1)
  | maxu (d : BitVec 5) (a : BitVec 5) (b : BitVec 5) (t : BitVec 1)
  | clz (d : BitVec 5) (a : BitVec 5) (t : BitVec 1)
  | ctz (d : BitVec 5) (a : BitVec 5) (t : BitVec 1)
  | popc (d : BitVec 5) (a : BitVec 5) (t : BitVec 1)
  | sextB (d : BitVec 5) (a : BitVec 5) (t : BitVec 1)
  | sextH (d : BitVec 5) (a : BitVec 5) (t : BitVec 1)
  | sextW (d : BitVec 5) (a : BitVec 5) (t : BitVec 1)
  | zextB (d : BitVec 5) (a : BitVec 5) (t : BitVec 1)
  | zextH (d : BitVec 5) (a : BitVec 5) (t : BitVec 1)
  | zextW (d : BitVec 5) (a : BitVec 5) (t : BitVec 1)
  | sadd1 (d : BitVec 5) (a : BitVec 5) (b : BitVec 5) (t : BitVec 1)
  | sadd2 (d : BitVec 5) (a : BitVec 5) (b : BitVec 5) (t : BitVec 1)
  | sadd3 (d : BitVec 5) (a : BitVec 5) (b : BitVec 5) (t : BitVec 1)
  | sadd4 (d : BitVec 5) (a : BitVec 5) (b : BitVec 5) (t : BitVec 1)
  | addW (d : BitVec 5) (a : BitVec 5) (b : BitVec 5) (t : BitVec 1)
  | subW (d : BitVec 5) (a : BitVec 5) (b : BitVec 5) (t : BitVec 1)
  | sllW (d : BitVec 5) (a : BitVec 5) (b : BitVec 5) (t : BitVec 1)
  | srlW (d : BitVec 5) (a : BitVec 5) (b : BitVec 5) (t : BitVec 1)
  | sraW (d : BitVec 5) (a : BitVec 5) (b : BitVec 5) (t : BitVec 1)
  | clzW (d : BitVec 5) (a : BitVec 5) (t : BitVec 1)
  | ctzW (d : BitVec 5) (a : BitVec 5) (t : BitVec 1)
  | popcW (d : BitVec 5) (a : BitVec 5) (t : BitVec 1)
  | mul (d : BitVec 5) (a : BitVec 5) (b : BitVec 5)
  | mulh (d : BitVec 5) (a : BitVec 5) (b : BitVec 5)
  | mulhu (d : BitVec 5) (a : BitVec 5) (b : BitVec 5)
  | mulhsu (d : BitVec 5) (a : BitVec 5) (b : BitVec 5)
  | mulW (d : BitVec 5) (a : BitVec 5) (b : BitVec 5)
  | div (d : BitVec 5) (a : BitVec 5) (b : BitVec 5)
  | divu (d : BitVec 5) (a : BitVec 5) (b : BitVec 5)
  | rem (d : BitVec 5) (a : BitVec 5) (b : BitVec 5)
  | remu (d : BitVec 5) (a : BitVec 5) (b : BitVec 5)
  | divW (d : BitVec 5) (a : BitVec 5) (b : BitVec 5)
  | divuW (d : BitVec 5) (a : BitVec 5) (b : BitVec 5)
  | remW (d : BitVec 5) (a : BitVec 5) (b : BitVec 5)
  | remuW (d : BitVec 5) (a : BitVec 5) (b : BitVec 5)
  | ldB (d : BitVec 5) (b : BitVec 5) (o : BitVec 10)
  | ldH (d : BitVec 5) (b : BitVec 5) (o : BitVec 10)
  | ldW (d : BitVec 5) (b : BitVec 5) (o : BitVec 10)
  | ldD (d : BitVec 5) (b : BitVec 5) (o : BitVec 10)
  | ldBu (d : BitVec 5) (b : BitVec 5) (o : BitVec 10)
  | ldHu (d : BitVec 5) (b : BitVec 5) (o : BitVec 10)
  | ldWu (d : BitVec 5) (b : BitVec 5) (o : BitVec 10)
  | stB (d : BitVec 5) (b : BitVec 5) (o : BitVec 10)
  | stH (d : BitVec 5) (b : BitVec 5) (o : BitVec 10)
  | stW (d : BitVec 5) (b : BitVec 5) (o : BitVec 10)
  | stD (d : BitVec 5) (b : BitVec 5) (o : BitVec 10)
  | hld (d : BitVec 5) (b : BitVec 5) (o : BitVec 10)
  | hst (d : BitVec 5) (b : BitVec 5) (o : BitVec 10)
  | hdrop (d : BitVec 5) (b : BitVec 5)
  | aadd (d : BitVec 5) (a : BitVec 5) (b : BitVec 5) (z : BitVec 1)
  | aand (d : BitVec 5) (a : BitVec 5) (b : BitVec 5) (z : BitVec 1)
  | aor (d : BitVec 5) (a : BitVec 5) (b : BitVec 5) (z : BitVec 1)
  | axor (d : BitVec 5) (a : BitVec 5) (b : BitVec 5) (z : BitVec 1)
  | amin (d : BitVec 5) (a : BitVec 5) (b : BitVec 5) (z : BitVec 1)
  | amax (d : BitVec 5) (a : BitVec 5) (b : BitVec 5) (z : BitVec 1)
  | aminu (d : BitVec 5) (a : BitVec 5) (b : BitVec 5) (z : BitVec 1)
  | amaxu (d : BitVec 5) (a : BitVec 5) (b : BitVec 5) (z : BitVec 1)
  | aswap (d : BitVec 5) (a : BitVec 5) (b : BitVec 5) (z : BitVec 1)
  | acas (d : BitVec 5) (a : BitVec 5) (b : BitVec 5) (z : BitVec 1)
  | bind (a : BitVec 5) (b : BitVec 5)
  | acq (a : BitVec 5) (c : BitVec 3)
  | rel (a : BitVec 5) (c : BitVec 3)
  | fenceAcq (c : BitVec 3)
  | fenceRel (c : BitVec 3)
  | fence (c : BitVec 3)
  | lfence
  | ifence
  | ptgt (d : BitVec 5) (i : BitVec 17)
  | cmpEq (d : BitVec 5) (a : BitVec 5) (b : BitVec 5) (x : BitVec 1)
  | cmpNe (d : BitVec 5) (a : BitVec 5) (b : BitVec 5) (x : BitVec 1)
  | cmpLt (d : BitVec 5) (a : BitVec 5) (b : BitVec 5) (x : BitVec 1)
  | cmpGe (d : BitVec 5) (a : BitVec 5) (b : BitVec 5) (x : BitVec 1)
  | cmpLtu (d : BitVec 5) (a : BitVec 5) (b : BitVec 5) (x : BitVec 1)
  | cmpGeu (d : BitVec 5) (a : BitVec 5) (b : BitVec 5) (x : BitVec 1)
  | br (a : BitVec 5) (b : BitVec 5) (k : BitVec 2)
  | brZ (a : BitVec 5) (b : BitVec 5) (k : BitVec 2)
  | brl (d : BitVec 5) (a : BitVec 5) (k : BitVec 2)
  | jr (a : BitVec 5) (k : BitVec 2)
  | jtab (a : BitVec 5) (b : BitVec 5) (k : BitVec 2)
  | vany (d : BitVec 5) (p : BitVec 5)
  | vall (d : BitVec 5) (p : BitVec 5)
  | estat (d : BitVec 5) (n : BitVec 5)
  | lset (l : BitVec 3) (a : BitVec 5)
  | lstr (l : BitVec 3) (j : BitVec 1) (r : BitVec 5) (t : BitVec 5)
  | lbody (l : BitVec 3) (n : BitVec 8)
  | lidx (l : BitVec 3) (d : BitVec 5)
  | lexit (l : BitVec 3)
  | lfl (l : BitVec 3) (f : BitVec 10)
  | nop
  | stall (n : BitVec 12)
  | trap (n : BitVec 12)
  | brk (n : BitVec 12)
  | rft
  | csrr (x : BitVec 5) (n : BitVec 12)
  | csrw (x : BitVec 5) (n : BitVec 12)
  | yield
  | idle
  | tlbi (x : BitVec 5) (k : BitVec 2)
  | stest (x : BitVec 5)
  | ststat (x : BitVec 5)
  | cmapw (x : BitVec 5)
  | hmov (d : BitVec 5) (a : BitVec 5)
  | hofs (d : BitVec 5) (a : BitVec 5) (b : BitVec 5)
  | hseq (d : BitVec 5) (b : BitVec 5)
  | hlive (d : BitVec 5) (a : BitVec 5)
  | hea (d : BitVec 5) (a : BitVec 5) (b : BitVec 5)
  | hset (d : BitVec 5) (a : BitVec 5) (i : BitVec 12)
  | hget (d : BitVec 5) (a : BitVec 5) (i : BitVec 12)
  | ewr (c : BitVec 5) (a : BitVec 5) (b : BitVec 5)
  | erd (c : BitVec 5) (a : BitVec 5) (b : BitVec 5)
  | edrain
  | efence
  | cmm (c : BitVec 5) (a : BitVec 5) (b : BitVec 5)
  | cmmh (c : BitVec 5) (a : BitVec 5) (b : BitVec 5)
  | cldb (a : BitVec 5) (h : BitVec 1)
  | czero (c : BitVec 5)
  | crd (c : BitVec 5) (a : BitVec 5)
  | cfsel (a : BitVec 5)
  | vaddFp (c : BitVec 5) (a : BitVec 5) (b : BitVec 5) (f : BitVec 2) (m : BitVec 1)
  | vsubFp (c : BitVec 5) (a : BitVec 5) (b : BitVec 5) (f : BitVec 2) (m : BitVec 1)
  | vmulFp (c : BitVec 5) (a : BitVec 5) (b : BitVec 5) (f : BitVec 2) (m : BitVec 1)
  | vminFp (c : BitVec 5) (a : BitVec 5) (b : BitVec 5) (f : BitVec 2) (m : BitVec 1)
  | vmaxFp (c : BitVec 5) (a : BitVec 5) (b : BitVec 5) (f : BitVec 2) (m : BitVec 1)
  | vfma (c : BitVec 5) (a : BitVec 5) (b : BitVec 5) (f : BitVec 2) (m : BitVec 1)
  | vfms (c : BitVec 5) (a : BitVec 5) (b : BitVec 5) (f : BitVec 2) (m : BitVec 1)
  | vfnma (c : BitVec 5) (a : BitVec 5) (b : BitVec 5) (f : BitVec 2) (m : BitVec 1)
  | vabs (c : BitVec 5) (a : BitVec 5) (f : BitVec 2) (m : BitVec 1)
  | vneg (c : BitVec 5) (a : BitVec 5) (f : BitVec 2) (m : BitVec 1)
  | vrcp (c : BitVec 5) (a : BitVec 5) (m : BitVec 1)
  | vrsq (c : BitVec 5) (a : BitVec 5) (m : BitVec 1)
  | vexp2 (c : BitVec 5) (a : BitVec 5) (m : BitVec 1)
  | vlog2 (c : BitVec 5) (a : BitVec 5) (m : BitVec 1)
  | vaddInt (c : BitVec 5) (a : BitVec 5) (b : BitVec 5) (f : BitVec 2) (m : BitVec 1)
  | vsubInt (c : BitVec 5) (a : BitVec 5) (b : BitVec 5) (f : BitVec 2) (m : BitVec 1)
  | vmulInt (c : BitVec 5) (a : BitVec 5) (b : BitVec 5) (f : BitVec 2) (m : BitVec 1)
  | vminInt (c : BitVec 5) (a : BitVec 5) (b : BitVec 5) (f : BitVec 2) (m : BitVec 1)
  | vmaxInt (c : BitVec 5) (a : BitVec 5) (b : BitVec 5) (f : BitVec 2) (m : BitVec 1)
  | vadds (c : BitVec 5) (a : BitVec 5) (b : BitVec 5) (f : BitVec 2) (m : BitVec 1)
  | vsubs (c : BitVec 5) (a : BitVec 5) (b : BitVec 5) (f : BitVec 2) (m : BitVec 1)
  | vand (c : BitVec 5) (a : BitVec 5) (b : BitVec 5) (f : BitVec 2) (m : BitVec 1)
  | vor (c : BitVec 5) (a : BitVec 5) (b : BitVec 5) (f : BitVec 2) (m : BitVec 1)
  | vxor (c : BitVec 5) (a : BitVec 5) (b : BitVec 5) (f : BitVec 2) (m : BitVec 1)
  | vshl (c : BitVec 5) (a : BitVec 5) (b : BitVec 5) (f : BitVec 2) (m : BitVec 1)
  | vsra (c : BitVec 5) (a : BitVec 5) (b : BitVec 5) (f : BitVec 2) (m : BitVec 1)
  | vsrl (c : BitVec 5) (a : BitVec 5) (b : BitVec 5) (f : BitVec 2) (m : BitVec 1)
  | vcmpEq (p : BitVec 5) (a : BitVec 5) (b : BitVec 5) (f : BitVec 2) (m : BitVec 1)
  | vcmpNe (p : BitVec 5) (a : BitVec 5) (b : BitVec 5) (f : BitVec 2) (m : BitVec 1)
  | vcmpLt (p : BitVec 5) (a : BitVec 5) (b : BitVec 5) (f : BitVec 2) (m : BitVec 1)
  | vcmpLe (p : BitVec 5) (a : BitVec 5) (b : BitVec 5) (f : BitVec 2) (m : BitVec 1)
  | vcmpGt (p : BitVec 5) (a : BitVec 5) (b : BitVec 5) (f : BitVec 2) (m : BitVec 1)
  | vcmpGe (p : BitVec 5) (a : BitVec 5) (b : BitVec 5) (f : BitVec 2) (m : BitVec 1)
  | vcmpUo (p : BitVec 5) (a : BitVec 5) (b : BitVec 5) (f : BitVec 2) (m : BitVec 1)
  | vsel (c : BitVec 5) (a : BitVec 5) (b : BitVec 5)
  | pand (p : BitVec 5) (q : BitVec 5) (r : BitVec 5) (m : BitVec 1)
  | por (p : BitVec 5) (q : BitVec 5) (r : BitVec 5) (m : BitVec 1)
  | pxor (p : BitVec 5) (q : BitVec 5) (r : BitVec 5) (m : BitVec 1)
  | pnot (p : BitVec 5) (q : BitVec 5) (m : BitVec 1)
  | pset (p : BitVec 5) (m : BitVec 1)
  | pclr (p : BitVec 5) (m : BitVec 1)
  | vcvt (c : BitVec 5) (a : BitVec 5) (r : BitVec 2) (m : BitVec 1)
  | vqnt (c : BitVec 5) (a : BitVec 5) (m : BitVec 1)
  | vdq (c : BitVec 5) (a : BitVec 5) (m : BitVec 1)
  | vrsum (c : BitVec 5) (a : BitVec 5) (f : BitVec 2) (m : BitVec 1)
  | vrmax (c : BitVec 5) (a : BitVec 5) (f : BitVec 2) (m : BitVec 1)
  | vrmin (c : BitVec 5) (a : BitVec 5) (f : BitVec 2) (m : BitVec 1)
  | vgather (c : BitVec 5) (a : BitVec 5) (b : BitVec 5) (m : BitVec 1)
  | vscatter (c : BitVec 5) (a : BitVec 5) (b : BitVec 5) (m : BitVec 1)
  | vperm (c : BitVec 5) (a : BitVec 5) (b : BitVec 5) (m : BitVec 1)
  | vmov (c : BitVec 5) (a : BitVec 5) (m : BitVec 1)
  | vfill (c : BitVec 5) (a : BitVec 5) (m : BitVec 1)
  | viota (c : BitVec 5) (m : BitVec 1)
  | xtr (c : BitVec 5) (a : BitVec 5)
  | xtrc (c : BitVec 5) (a : BitVec 5)
  | upst (c : BitVec 5) (a : BitVec 5)
  | uvtag (a : BitVec 5) (b : BitVec 5)
  | cpy (c : BitVec 5) (a : BitVec 5) (b : BitVec 5)
  | cpym (c : BitVec 5) (a : BitVec 5) (b : BitVec 5)
  | rrot (c : BitVec 5) (a : BitVec 5) (b : BitVec 5)
  | ccan (a : BitVec 5)
  | waitc (c : BitVec 5)
  | sbind (c : BitVec 5) (q : BitVec 5) (b : BitVec 5)
  | ssch (a : BitVec 5)
  | sadv
  | sres (a : BitVec 5)
  | ginit (c : BitVec 5) (a : BitVec 5)
  | gwait (c : BitVec 5) (a : BitVec 5) (b : BitVec 5)
  | gread (c : BitVec 5) (a : BitVec 5)
  | gbar
  | wact (a : BitVec 5)
  | wpre (a : BitVec 5)
  | wref (a : BitVec 5)
  | wld (c : BitVec 5) (a : BitVec 5)
  | wst (c : BitVec 5) (a : BitVec 5)
  | vpub (a : BitVec 5) (b : BitVec 5)
  | vswt (a : BitVec 5)
  | temit (c : BitVec 5) (a : BitVec 5) (b : BitVec 5)
  | jopen (a : BitVec 5)
  | jacc (c : BitVec 5) (a : BitVec 5)
  | jarr (c : BitVec 5) (a : BitVec 5)
  | jwait (a : BitVec 5)
  | kpt
  | coll (a : BitVec 5)
  | collJ (a : BitVec 5) (b : BitVec 5)
  | csig (c : BitVec 5) (a : BitVec 5)
  | afw (a : BitVec 5)
  | stallStep (c : Nat)
  | shadowQueueLanding (c : Nat)
  | transientExpiry (c : Nat)
  | loadDataReturn (id : Nat)
  | loopIterationEnd (c : Nat)
  | asynchronousTrap (c : Nat)
  | idleWake (c : Nat)
  | vectorOperationCompletion (id : Nat)
  | transposeOperationCompletion (id : Nat)
  | upstCompletion (id : Nat)
  | cubeOperationStart (id : Nat)
  | cubeOperationCompletion (id : Nat)
  | copyLanding (id recv : Nat)
  | scheduleIterationStart (c entry : Nat)
  | scheduleIterationLanding (id : Nat)
  | wldLanding (id : Nat)
  | wstCompletion (id : Nat)
  | guardRefresh (bank : Nat)
  | gaugeTimeout (c : Nat)
  | doorbell (q : BitVec 5) (tail : BitVec 16)
  | launchBegin
  | groupPlacement (l : Nat)
  | preemptionDeadline (c : Nat)
  | save (g : Nat)
  | resume (g : Nat)
  | taskEnd (c : Nat)
  | stepBudgetWindow
  | quantumExpiry (core : Nat)
  | progressPromise (c : Nat)
  | recomputeProducerCompletion (l : Nat)
  | stragglerKill (c : Nat)
  | deadlockDetection (cube : Nat)
  | spillwayChunkReturn (core queue : Nat)
  | fabricWindowAccess (node op : BitVec 8) (offset size : Nat) (data cmp : BitVec 64)
  | windowAccessTimeout (id : Nat)
  | collectiveTransferSend (id : Nat)
  | collectiveFold (id : Nat)
  | collectiveCompletion (id : Nat)
  | linkFailure (port node : Nat)
  | versionPublication (region : BitVec 8) (ver : BitVec 16)
  | loweringAnnouncement (node limit at_ : Nat)
  | raiseProposal (node limit at_ : Nat)
  | raiseGrant (node : Nat)
  | ceilingChange
  | heartbeatSend
  | heartbeat (node seq limit : Nat) (members : List Nat)
  | memberEviction (node : Nat)
  | joinRequest (node limit : Nat)
  | departure (node : Nat)
  | weirReq (limit : BitVec 12)
  | pwrDidt (cube : Nat) (limit : BitVec 16)
  | registerWrite (bar0 : Bool) (n : Nat) (v : BitVec 64)
  | sensorReading (cube sensor : Nat) (quarters : Int)
  | governorWindow (cube power : Nat)
  | droopAlarm (region : Nat)
  | droopAlarmClear (region : Nat)
  | forecastUpdate
  | forecastExpiry (c : Nat)
  | telemetrySample
  | telemetryAggregate
  | busTestRun (cube : Nat)
  | busTestCompletion (cube : Nat) (pass demand : Bool)
  | wsMapApplication (core : Nat)
  | elevatorDrainEnd (cube cluster : Nat)
  | transactionRetry (id : Nat)
  | fatalEvent (code : Nat) (addr : BitVec 64)
  | coldStart (failing : List StartFailure)
  | warmStart (keep : Bool)
  | faultDomainAcknowledge (fdom : BitVec 8)
  | hostWindowAccess (op : BitVec 8) (offset size data : Nat) (cmp : BitVec 64)
  | info
  | group (cmd : Nat) (nodes : List Nat)
  | keyLoad (slot : BitVec 13) (wrapped : BitVec 320)
  | keyClear (slot : BitVec 13)
  | attest (nonce : BitVec 256)
  | errlog (index : BitVec 32)
  | status
  | reset (kind : BitVec 2)
  | telemetry (n : Nat)
  | dumpRead (offset len : Nat)
  | dumpClear
  | configRead
  | configWrite (node : BitVec 8) (slot : Nat) (rollback : Nat) (body : List (BitVec 8)) (sig : BitVec 768)
  | cmapRestore (cube : Nat) (logical : BitVec 7)
  | timeset (v : BitVec 64)
  | errlogRead (index : BitVec 32) (n : Nat)
  | getMeasurements (nonce : BitVec 256)
  | testDrained (cube : Nat)
  | testEnd (cube : Nat)
  | testAbort (cube : Nat)
  | coreMapPersist
  | copyFault (id : Nat)
  | storePerformed (id : Nat)
  | jaccCompletion (id : Nat)
  | collectiveTransferArrival (core sender chunk : Nat) (digest : BitVec 32) (data : List (BitVec 8))
  | clockStretch (region : Nat)
  | crossingBubble (region : Nat)
  | spdmSecuredSession
  deriving DecidableEq, Repr

end Sys2Proof
end

