-- ==== Sys2Proof/WellFormed.lean ====
section
/-! DEFINITION. The operand values an instruction word may hold (spec 02 R53 and the entries of the
tables R57 to R70). A word whose body names an instruction with a value refused here traps
ILLEGAL_OP. Operations and events have no word and are always well formed. -/

namespace Sys2Proof

/-- An engine number that R22 assigns. -/
def engineOk (n : BitVec 5) : Bool := n.toNat < 6

/-- An engine register index that its chapter assigns (R110; R151, R175, R205, R333). -/
def engineRegOk (n idx : BitVec 5) : Bool :=
  match n.toNat with
  | 0 => idx.toNat < 7 || 16 ≤ idx.toNat
  | 1 => idx.toNat = 0
  | 2 => idx.toNat = 0
  | 3 => idx.toNat < 2
  | 4 => idx.toNat < 6 || (8 ≤ idx.toNat && idx.toNat < 24)
  | 5 => idx.toNat < 2
  | _ => false

/-- A predicate or stream-binding number (R53). -/
def predOk (p : BitVec 5) : Bool := p.toNat < 8

/-- A loop level (R53). -/
def levelOk (l : BitVec 3) : Bool := l.toNat < 6

/-- A scope code (R53). -/
def scopeOk (c : BitVec 3) : Bool := c.toNat < 6

/-- A shift amount: at most 31 in a .w form (R53). -/
def shiftOk (x : BitVec 1) (n : BitVec 6) : Bool := x = 0#1 || n.toNat < 32

/-- A format selector below a bound (R70). -/
def fmtOk (f : BitVec 2) (bound : Nat) : Bool := f.toNat < bound

/-- A handle field code that R68 lists. -/
def handleFieldOk (i : BitVec 12) : Bool := i.toNat < 0x13 || (0x20 ≤ i.toNat && i.toNat < 0x24)

/-- A control and status register number that some chapter assigns (R23, R24, R289, R293, R300, R240,
R345, R388, R232, R327); every other number traps ILLEGAL_OP. -/
def csrOk (n : Nat) : Bool :=
  n ≤ 0x002 || (0x004 ≤ n && n ≤ 0x00A) || (0x100 ≤ n && n ≤ 0x115) ||
  (0x120 ≤ n && n ≤ 0x123) || n = 0x200 || n = 0x201 || (0x204 ≤ n && n ≤ 0x207) ||
  (0x300 ≤ n && n ≤ 0x303) || n = 0x400 || n = 0x401 || n = 0x410 || n = 0x411 || n = 0x420 || n = 0x421 ||
  n = 0x430 || n = 0x431 || (0x440 ≤ n && n ≤ 0x442) || (0x500 ≤ n && n ≤ 0x503) ||
  n = 0x600 || n = 0x601 || (0x611 ≤ n && n ≤ 0x61F) || (0x621 ≤ n && n ≤ 0x62F) ||
  (0x680 ≤ n && n ≤ 0x6FF) || (0x700 ≤ n && n ≤ 0x702) || (0x710 ≤ n && n ≤ 0x712)

/-- The operand values that decoding admits (R53). -/
def Instr.wf : Instr → Bool
  | .slli _ _ x n | .srli _ _ x n | .srai _ _ x n => shiftOk x n
  | .acq _ c | .rel _ c | .fenceAcq c | .fenceRel c | .fence c => scopeOk c
  | .vany _ p | .vall _ p => predOk p
  | .estat _ n => engineOk n
  | .lset l _ | .lstr l _ _ _ | .lbody l _ | .lidx l _ | .lexit l | .lfl l _ => levelOk l
  | .stall n => n ≠ 0#12
  | .tlbi x k => k.toNat < 3 && (k ≠ 2#2 || x = 0#5)
  | .hset _ _ i | .hget _ _ i => handleFieldOk i
  | .ewr _ a b | .erd _ a b => engineRegOk a b
  | .vaddFp _ _ _ f _ | .vsubFp _ _ _ f _ | .vmulFp _ _ _ f _ | .vminFp _ _ _ f _ | .vmaxFp _ _ _ f _
  | .vfma _ _ _ f _ | .vfms _ _ _ f _ | .vfnma _ _ _ f _ | .vabs _ _ f _ | .vneg _ _ f _
  | .vaddInt _ _ _ f _ | .vsubInt _ _ _ f _ | .vmulInt _ _ _ f _ | .vminInt _ _ _ f _ | .vmaxInt _ _ _ f _
  | .vadds _ _ _ f _ | .vsubs _ _ _ f _ | .vand _ _ _ f _ | .vor _ _ _ f _ | .vxor _ _ _ f _
  | .vshl _ _ _ f _ | .vsra _ _ _ f _ | .vsrl _ _ _ f _ => fmtOk f 3
  | .vcmpEq p _ _ _ _ | .vcmpNe p _ _ _ _ | .vcmpLt p _ _ _ _ | .vcmpLe p _ _ _ _ | .vcmpGt p _ _ _ _
  | .vcmpGe p _ _ _ _ => predOk p
  | .vcmpUo p _ _ f _ => predOk p && fmtOk f 3
  | .pand p q r _ | .por p q r _ | .pxor p q r _ => predOk p && predOk q && predOk r
  | .pnot p q _ => predOk p && predOk q
  | .pset p _ | .pclr p _ => predOk p
  | .upst c _ => c ≠ 31#5
  | .sbind _ q _ => predOk q
  | .csrr _ n | .csrw _ n => csrOk n.toNat
  | _ => true

end Sys2Proof
end

