-- ==== Sys2Proof/Decode.lean ====
section
/-! DEFINITION. The decoder of instruction words and, after it, the encoder, both written from the
body formats (spec 02 R52) and the function tables (R56 to R70). Decoding is total on any 32 bits
and refuses by name (R53): every refusal is the trap ILLEGAL_OP of R49 row 3. -/

namespace Sys2Proof

/-- Why a word does not decode (R53). Each is the trap ILLEGAL_OP. -/
inductive DecodeError where
  | unassignedMajor
  | unassignedFunction
  | reservedField
  | badOperand
  deriving DecidableEq, Repr

/-- Bits lo + n − 1 down to lo of a word (R8). -/
def fld (w : BitVec 32) (lo n : Nat) : BitVec n := w.extractLsb' lo n

/-- A word whose reserved fields are as they must be (R53), or the refusal. -/
def reserved (ok : Prop) [Decidable ok] (i : Instr) : Except DecodeError Instr :=
  if ok then .ok i else .error .reservedField

/-- The header of a word (R41). -/
def decodeHeader (w : BitVec 32) : Header := ⟨fld w 31 1, fld w 30 1, fld w 28 2⟩

/-- Major 0x10. -/
def decodeScalarReg (w : BitVec 32) : Except DecodeError Instr :=
  match (fld w 0 6).toNat with
  | 0x00 => .ok (.add (fld w 17 5) (fld w 12 5) (fld w 7 5) (fld w 6 1))
  | 0x01 => .ok (.sub (fld w 17 5) (fld w 12 5) (fld w 7 5) (fld w 6 1))
  | 0x02 => .ok (.and (fld w 17 5) (fld w 12 5) (fld w 7 5) (fld w 6 1))
  | 0x03 => .ok (.or (fld w 17 5) (fld w 12 5) (fld w 7 5) (fld w 6 1))
  | 0x04 => .ok (.xor (fld w 17 5) (fld w 12 5) (fld w 7 5) (fld w 6 1))
  | 0x05 => .ok (.andn (fld w 17 5) (fld w 12 5) (fld w 7 5) (fld w 6 1))
  | 0x06 => .ok (.sll (fld w 17 5) (fld w 12 5) (fld w 7 5) (fld w 6 1))
  | 0x07 => .ok (.srl (fld w 17 5) (fld w 12 5) (fld w 7 5) (fld w 6 1))
  | 0x08 => .ok (.sra (fld w 17 5) (fld w 12 5) (fld w 7 5) (fld w 6 1))
  | 0x09 => .ok (.min (fld w 17 5) (fld w 12 5) (fld w 7 5) (fld w 6 1))
  | 0x0A => .ok (.max (fld w 17 5) (fld w 12 5) (fld w 7 5) (fld w 6 1))
  | 0x0B => .ok (.minu (fld w 17 5) (fld w 12 5) (fld w 7 5) (fld w 6 1))
  | 0x0C => .ok (.maxu (fld w 17 5) (fld w 12 5) (fld w 7 5) (fld w 6 1))
  | 0x0D => reserved (fld w 7 5 = 0#5) (.clz (fld w 17 5) (fld w 12 5) (fld w 6 1))
  | 0x0E => reserved (fld w 7 5 = 0#5) (.ctz (fld w 17 5) (fld w 12 5) (fld w 6 1))
  | 0x0F => reserved (fld w 7 5 = 0#5) (.popc (fld w 17 5) (fld w 12 5) (fld w 6 1))
  | 0x10 => reserved (fld w 7 5 = 0#5) (.sextB (fld w 17 5) (fld w 12 5) (fld w 6 1))
  | 0x11 => reserved (fld w 7 5 = 0#5) (.sextH (fld w 17 5) (fld w 12 5) (fld w 6 1))
  | 0x12 => reserved (fld w 7 5 = 0#5) (.sextW (fld w 17 5) (fld w 12 5) (fld w 6 1))
  | 0x13 => reserved (fld w 7 5 = 0#5) (.zextB (fld w 17 5) (fld w 12 5) (fld w 6 1))
  | 0x14 => reserved (fld w 7 5 = 0#5) (.zextH (fld w 17 5) (fld w 12 5) (fld w 6 1))
  | 0x15 => reserved (fld w 7 5 = 0#5) (.zextW (fld w 17 5) (fld w 12 5) (fld w 6 1))
  | 0x16 => .ok (.sadd1 (fld w 17 5) (fld w 12 5) (fld w 7 5) (fld w 6 1))
  | 0x17 => .ok (.sadd2 (fld w 17 5) (fld w 12 5) (fld w 7 5) (fld w 6 1))
  | 0x18 => .ok (.sadd3 (fld w 17 5) (fld w 12 5) (fld w 7 5) (fld w 6 1))
  | 0x19 => .ok (.sadd4 (fld w 17 5) (fld w 12 5) (fld w 7 5) (fld w 6 1))
  | 0x20 => .ok (.addW (fld w 17 5) (fld w 12 5) (fld w 7 5) (fld w 6 1))
  | 0x21 => .ok (.subW (fld w 17 5) (fld w 12 5) (fld w 7 5) (fld w 6 1))
  | 0x26 => .ok (.sllW (fld w 17 5) (fld w 12 5) (fld w 7 5) (fld w 6 1))
  | 0x27 => .ok (.srlW (fld w 17 5) (fld w 12 5) (fld w 7 5) (fld w 6 1))
  | 0x28 => .ok (.sraW (fld w 17 5) (fld w 12 5) (fld w 7 5) (fld w 6 1))
  | 0x2D => reserved (fld w 7 5 = 0#5) (.clzW (fld w 17 5) (fld w 12 5) (fld w 6 1))
  | 0x2E => reserved (fld w 7 5 = 0#5) (.ctzW (fld w 17 5) (fld w 12 5) (fld w 6 1))
  | 0x2F => reserved (fld w 7 5 = 0#5) (.popcW (fld w 17 5) (fld w 12 5) (fld w 6 1))
  | _ => .error .unassignedFunction

/-- Major 0x11. -/
def decodeMulDiv (w : BitVec 32) : Except DecodeError Instr :=
  match (fld w 0 7).toNat with
  | 0x00 => .ok (.mul (fld w 17 5) (fld w 12 5) (fld w 7 5))
  | 0x01 => .ok (.mulh (fld w 17 5) (fld w 12 5) (fld w 7 5))
  | 0x02 => .ok (.mulhu (fld w 17 5) (fld w 12 5) (fld w 7 5))
  | 0x03 => .ok (.mulhsu (fld w 17 5) (fld w 12 5) (fld w 7 5))
  | 0x04 => .ok (.mulW (fld w 17 5) (fld w 12 5) (fld w 7 5))
  | 0x08 => .ok (.div (fld w 17 5) (fld w 12 5) (fld w 7 5))
  | 0x09 => .ok (.divu (fld w 17 5) (fld w 12 5) (fld w 7 5))
  | 0x0A => .ok (.rem (fld w 17 5) (fld w 12 5) (fld w 7 5))
  | 0x0B => .ok (.remu (fld w 17 5) (fld w 12 5) (fld w 7 5))
  | 0x0C => .ok (.divW (fld w 17 5) (fld w 12 5) (fld w 7 5))
  | 0x0D => .ok (.divuW (fld w 17 5) (fld w 12 5) (fld w 7 5))
  | 0x0E => .ok (.remW (fld w 17 5) (fld w 12 5) (fld w 7 5))
  | 0x0F => .ok (.remuW (fld w 17 5) (fld w 12 5) (fld w 7 5))
  | _ => .error .unassignedFunction

/-- Major 0x12. -/
def decodeLoad (w : BitVec 32) : Except DecodeError Instr :=
  match (fld w 10 2).toNat with
  | 0x00 => .ok (.ldB (fld w 17 5) (fld w 12 5) (fld w 0 10))
  | 0x01 => .ok (.ldH (fld w 17 5) (fld w 12 5) (fld w 0 10))
  | 0x02 => .ok (.ldW (fld w 17 5) (fld w 12 5) (fld w 0 10))
  | 0x03 => .ok (.ldD (fld w 17 5) (fld w 12 5) (fld w 0 10))
  | _ => .error .unassignedFunction

/-- Major 0x13. -/
def decodeLoadU (w : BitVec 32) : Except DecodeError Instr :=
  match (fld w 10 2).toNat with
  | 0x00 => .ok (.ldBu (fld w 17 5) (fld w 12 5) (fld w 0 10))
  | 0x01 => .ok (.ldHu (fld w 17 5) (fld w 12 5) (fld w 0 10))
  | 0x02 => .ok (.ldWu (fld w 17 5) (fld w 12 5) (fld w 0 10))
  | _ => .error .unassignedFunction

/-- Major 0x14. -/
def decodeStore (w : BitVec 32) : Except DecodeError Instr :=
  match (fld w 10 2).toNat with
  | 0x00 => .ok (.stB (fld w 17 5) (fld w 12 5) (fld w 0 10))
  | 0x01 => .ok (.stH (fld w 17 5) (fld w 12 5) (fld w 0 10))
  | 0x02 => .ok (.stW (fld w 17 5) (fld w 12 5) (fld w 0 10))
  | 0x03 => .ok (.stD (fld w 17 5) (fld w 12 5) (fld w 0 10))
  | _ => .error .unassignedFunction

/-- Major 0x17. -/
def decodeHandleMem (w : BitVec 32) : Except DecodeError Instr :=
  match (fld w 10 2).toNat with
  | 0x00 => .ok (.hld (fld w 17 5) (fld w 12 5) (fld w 0 10))
  | 0x01 => .ok (.hst (fld w 17 5) (fld w 12 5) (fld w 0 10))
  | 0x02 => reserved (fld w 0 10 = 0#10) (.hdrop (fld w 17 5) (fld w 12 5))
  | _ => .error .unassignedFunction

/-- Major 0x18. -/
def decodeAtomic (w : BitVec 32) : Except DecodeError Instr :=
  match (fld w 1 6).toNat with
  | 0x00 => .ok (.aadd (fld w 17 5) (fld w 12 5) (fld w 7 5) (fld w 0 1))
  | 0x01 => .ok (.aand (fld w 17 5) (fld w 12 5) (fld w 7 5) (fld w 0 1))
  | 0x02 => .ok (.aor (fld w 17 5) (fld w 12 5) (fld w 7 5) (fld w 0 1))
  | 0x03 => .ok (.axor (fld w 17 5) (fld w 12 5) (fld w 7 5) (fld w 0 1))
  | 0x04 => .ok (.amin (fld w 17 5) (fld w 12 5) (fld w 7 5) (fld w 0 1))
  | 0x05 => .ok (.amax (fld w 17 5) (fld w 12 5) (fld w 7 5) (fld w 0 1))
  | 0x06 => .ok (.aminu (fld w 17 5) (fld w 12 5) (fld w 7 5) (fld w 0 1))
  | 0x07 => .ok (.amaxu (fld w 17 5) (fld w 12 5) (fld w 7 5) (fld w 0 1))
  | 0x08 => .ok (.aswap (fld w 17 5) (fld w 12 5) (fld w 7 5) (fld w 0 1))
  | 0x09 => .ok (.acas (fld w 17 5) (fld w 12 5) (fld w 7 5) (fld w 0 1))
  | _ => .error .unassignedFunction

/-- Major 0x19. -/
def decodeSync (w : BitVec 32) : Except DecodeError Instr :=
  match (fld w 0 7).toNat with
  | 0x00 => reserved (fld w 17 5 = 0#5) (.bind (fld w 12 5) (fld w 7 5))
  | 0x08 | 0x09 | 0x0A | 0x0B | 0x0C | 0x0D | 0x0E | 0x0F => reserved (fld w 17 5 = 0#5 ∧ fld w 7 5 = 0#5) (.acq (fld w 12 5) (fld w 0 3))
  | 0x10 | 0x11 | 0x12 | 0x13 | 0x14 | 0x15 | 0x16 | 0x17 => reserved (fld w 17 5 = 0#5 ∧ fld w 7 5 = 0#5) (.rel (fld w 12 5) (fld w 0 3))
  | 0x18 | 0x19 | 0x1A | 0x1B | 0x1C | 0x1D | 0x1E | 0x1F => reserved (fld w 7 15 = 0#15) (.fenceAcq (fld w 0 3))
  | 0x20 | 0x21 | 0x22 | 0x23 | 0x24 | 0x25 | 0x26 | 0x27 => reserved (fld w 7 15 = 0#15) (.fenceRel (fld w 0 3))
  | 0x28 | 0x29 | 0x2A | 0x2B | 0x2C | 0x2D | 0x2E | 0x2F => reserved (fld w 7 15 = 0#15) (.fence (fld w 0 3))
  | 0x30 => reserved (fld w 7 15 = 0#15) .lfence
  | 0x31 => reserved (fld w 7 15 = 0#15) .ifence
  | _ => .error .unassignedFunction

/-- Major 0x1B. -/
def decodeCompare (w : BitVec 32) : Except DecodeError Instr :=
  match (fld w 0 7).toNat with
  | 0x00 | 0x08 => .ok (.cmpEq (fld w 17 5) (fld w 12 5) (fld w 7 5) (fld w 3 1))
  | 0x01 | 0x09 => .ok (.cmpNe (fld w 17 5) (fld w 12 5) (fld w 7 5) (fld w 3 1))
  | 0x02 | 0x0A => .ok (.cmpLt (fld w 17 5) (fld w 12 5) (fld w 7 5) (fld w 3 1))
  | 0x03 | 0x0B => .ok (.cmpGe (fld w 17 5) (fld w 12 5) (fld w 7 5) (fld w 3 1))
  | 0x04 | 0x0C => .ok (.cmpLtu (fld w 17 5) (fld w 12 5) (fld w 7 5) (fld w 3 1))
  | 0x05 | 0x0D => .ok (.cmpGeu (fld w 17 5) (fld w 12 5) (fld w 7 5) (fld w 3 1))
  | _ => .error .unassignedFunction

/-- Major 0x1C. -/
def decodeTransfer (w : BitVec 32) : Except DecodeError Instr :=
  match (fld w 2 5).toNat with
  | 0x00 => reserved (fld w 17 5 = 0#5) (.br (fld w 12 5) (fld w 7 5) (fld w 0 2))
  | 0x01 => reserved (fld w 17 5 = 0#5) (.brZ (fld w 12 5) (fld w 7 5) (fld w 0 2))
  | 0x02 => reserved (fld w 7 5 = 0#5) (.brl (fld w 17 5) (fld w 12 5) (fld w 0 2))
  | 0x03 => reserved (fld w 17 5 = 0#5 ∧ fld w 7 5 = 0#5) (.jr (fld w 12 5) (fld w 0 2))
  | 0x04 => reserved (fld w 17 5 = 0#5) (.jtab (fld w 12 5) (fld w 7 5) (fld w 0 2))
  | _ => .error .unassignedFunction

/-- Major 0x1D. -/
def decodeVote (w : BitVec 32) : Except DecodeError Instr :=
  match (fld w 0 7).toNat with
  | 0x00 => reserved (fld w 7 5 = 0#5) (.vany (fld w 17 5) (fld w 12 5))
  | 0x01 => reserved (fld w 7 5 = 0#5) (.vall (fld w 17 5) (fld w 12 5))
  | 0x02 => reserved (fld w 7 5 = 0#5) (.estat (fld w 17 5) (fld w 12 5))
  | _ => .error .unassignedFunction

/-- Major 0x1E. -/
def decodeLoop (w : BitVec 32) : Except DecodeError Instr :=
  match (fld w 16 3).toNat with
  | 0x00 => reserved (fld w 0 11 = 0#11) (.lset (fld w 19 3) (fld w 11 5))
  | 0x01 => reserved (fld w 0 5 = 0#5) (.lstr (fld w 19 3) (fld w 15 1) (fld w 10 5) (fld w 5 5))
  | 0x02 => reserved (fld w 8 8 = 0#8) (.lbody (fld w 19 3) (fld w 0 8))
  | 0x03 => reserved (fld w 0 11 = 0#11) (.lidx (fld w 19 3) (fld w 11 5))
  | 0x04 => reserved (fld w 0 16 = 0#16) (.lexit (fld w 19 3))
  | 0x07 => reserved (fld w 10 6 = 0#6) (.lfl (fld w 19 3) (fld w 0 10))
  | _ => .error .unassignedFunction

/-- Major 0x1F. -/
def decodeSystem (w : BitVec 32) : Except DecodeError Instr :=
  match (fld w 12 5).toNat with
  | 0x00 => reserved (fld w 17 5 = 0#5 ∧ fld w 0 12 = 0#12) .nop
  | 0x01 => reserved (fld w 17 5 = 0#5) (.stall (fld w 0 12))
  | 0x02 => reserved (fld w 17 5 = 0#5) (.trap (fld w 0 12))
  | 0x03 => reserved (fld w 17 5 = 0#5) (.brk (fld w 0 12))
  | 0x04 => reserved (fld w 17 5 = 0#5 ∧ fld w 0 12 = 0#12) .rft
  | 0x05 => .ok (.csrr (fld w 17 5) (fld w 0 12))
  | 0x06 => .ok (.csrw (fld w 17 5) (fld w 0 12))
  | 0x07 => reserved (fld w 17 5 = 0#5 ∧ fld w 0 12 = 0#12) .yield
  | 0x08 => reserved (fld w 17 5 = 0#5 ∧ fld w 0 12 = 0#12) .idle
  | 0x09 => reserved (fld w 2 10 = 0#10) (.tlbi (fld w 17 5) (fld w 0 2))
  | 0x0A => reserved (fld w 0 12 = 0#12) (.stest (fld w 17 5))
  | 0x0B => reserved (fld w 0 12 = 0#12) (.ststat (fld w 17 5))
  | 0x0C => reserved (fld w 0 12 = 0#12) (.cmapw (fld w 17 5))
  | _ => .error .unassignedFunction

/-- Major 0x20. -/
def decodeHandle (w : BitVec 32) : Except DecodeError Instr :=
  match (fld w 0 7).toNat with
  | 0x00 => reserved (fld w 7 5 = 0#5) (.hmov (fld w 17 5) (fld w 12 5))
  | 0x01 => .ok (.hofs (fld w 17 5) (fld w 12 5) (fld w 7 5))
  | 0x02 => reserved (fld w 12 5 = 0#5) (.hseq (fld w 17 5) (fld w 7 5))
  | 0x03 => reserved (fld w 7 5 = 0#5) (.hlive (fld w 17 5) (fld w 12 5))
  | 0x04 => .ok (.hea (fld w 17 5) (fld w 12 5) (fld w 7 5))
  | _ => .error .unassignedFunction

/-- Major 0x23. -/
def decodeEngineConfig (w : BitVec 32) : Except DecodeError Instr :=
  match (fld w 1 6).toNat with
  | 0x00 => reserved (fld w 0 1 = 0#1) (.ewr (fld w 17 5) (fld w 12 5) (fld w 7 5))
  | 0x01 => reserved (fld w 0 1 = 0#1) (.erd (fld w 17 5) (fld w 12 5) (fld w 7 5))
  | 0x02 => reserved (fld w 7 15 = 0#15 ∧ fld w 0 1 = 0#1) .edrain
  | 0x03 => reserved (fld w 7 15 = 0#15 ∧ fld w 0 1 = 0#1) .efence
  | _ => .error .unassignedFunction

/-- Major 0x24. -/
def decodeCubeProduct (w : BitVec 32) : Except DecodeError Instr :=
  match (fld w 1 6).toNat with
  | 0x00 => reserved (fld w 0 1 = 0#1) (.cmm (fld w 17 5) (fld w 12 5) (fld w 7 5))
  | 0x01 => reserved (fld w 0 1 = 0#1) (.cmmh (fld w 17 5) (fld w 12 5) (fld w 7 5))
  | _ => .error .unassignedFunction

/-- Major 0x25. -/
def decodeCubeLatch (w : BitVec 32) : Except DecodeError Instr :=
  match (fld w 1 6).toNat with
  | 0x00 => reserved (fld w 17 5 = 0#5 ∧ fld w 7 5 = 0#5) (.cldb (fld w 12 5) (fld w 0 1))
  | 0x01 => reserved (fld w 7 10 = 0#10 ∧ fld w 0 1 = 0#1) (.czero (fld w 17 5))
  | _ => .error .unassignedFunction

/-- Major 0x26. -/
def decodeCubeRead (w : BitVec 32) : Except DecodeError Instr :=
  match (fld w 1 6).toNat with
  | 0x00 => reserved (fld w 7 5 = 0#5 ∧ fld w 0 1 = 0#1) (.crd (fld w 17 5) (fld w 12 5))
  | _ => .error .unassignedFunction

/-- Major 0x27. -/
def decodeCubeSelect (w : BitVec 32) : Except DecodeError Instr :=
  match (fld w 1 6).toNat with
  | 0x00 => reserved (fld w 17 5 = 0#5 ∧ fld w 7 5 = 0#5 ∧ fld w 0 1 = 0#1) (.cfsel (fld w 12 5))
  | _ => .error .unassignedFunction

/-- Major 0x28. -/
def decodeVecFp (w : BitVec 32) : Except DecodeError Instr :=
  match (fld w 1 4).toNat with
  | 0x00 => .ok (.vaddFp (fld w 17 5) (fld w 12 5) (fld w 7 5) (fld w 5 2) (fld w 0 1))
  | 0x01 => .ok (.vsubFp (fld w 17 5) (fld w 12 5) (fld w 7 5) (fld w 5 2) (fld w 0 1))
  | 0x02 => .ok (.vmulFp (fld w 17 5) (fld w 12 5) (fld w 7 5) (fld w 5 2) (fld w 0 1))
  | 0x03 => .ok (.vminFp (fld w 17 5) (fld w 12 5) (fld w 7 5) (fld w 5 2) (fld w 0 1))
  | 0x04 => .ok (.vmaxFp (fld w 17 5) (fld w 12 5) (fld w 7 5) (fld w 5 2) (fld w 0 1))
  | _ => .error .unassignedFunction

/-- Major 0x29. -/
def decodeVecFused (w : BitVec 32) : Except DecodeError Instr :=
  match (fld w 1 4).toNat with
  | 0x00 => .ok (.vfma (fld w 17 5) (fld w 12 5) (fld w 7 5) (fld w 5 2) (fld w 0 1))
  | 0x01 => .ok (.vfms (fld w 17 5) (fld w 12 5) (fld w 7 5) (fld w 5 2) (fld w 0 1))
  | 0x02 => .ok (.vfnma (fld w 17 5) (fld w 12 5) (fld w 7 5) (fld w 5 2) (fld w 0 1))
  | 0x03 => reserved (fld w 7 5 = 0#5) (.vabs (fld w 17 5) (fld w 12 5) (fld w 5 2) (fld w 0 1))
  | 0x04 => reserved (fld w 7 5 = 0#5) (.vneg (fld w 17 5) (fld w 12 5) (fld w 5 2) (fld w 0 1))
  | 0x05 => reserved (fld w 5 7 = 0#7) (.vrcp (fld w 17 5) (fld w 12 5) (fld w 0 1))
  | 0x06 => reserved (fld w 5 7 = 0#7) (.vrsq (fld w 17 5) (fld w 12 5) (fld w 0 1))
  | 0x07 => reserved (fld w 5 7 = 0#7) (.vexp2 (fld w 17 5) (fld w 12 5) (fld w 0 1))
  | 0x08 => reserved (fld w 5 7 = 0#7) (.vlog2 (fld w 17 5) (fld w 12 5) (fld w 0 1))
  | _ => .error .unassignedFunction

/-- Major 0x2A. -/
def decodeVecInt (w : BitVec 32) : Except DecodeError Instr :=
  match (fld w 1 4).toNat with
  | 0x00 => .ok (.vaddInt (fld w 17 5) (fld w 12 5) (fld w 7 5) (fld w 5 2) (fld w 0 1))
  | 0x01 => .ok (.vsubInt (fld w 17 5) (fld w 12 5) (fld w 7 5) (fld w 5 2) (fld w 0 1))
  | 0x02 => .ok (.vmulInt (fld w 17 5) (fld w 12 5) (fld w 7 5) (fld w 5 2) (fld w 0 1))
  | 0x03 => .ok (.vminInt (fld w 17 5) (fld w 12 5) (fld w 7 5) (fld w 5 2) (fld w 0 1))
  | 0x04 => .ok (.vmaxInt (fld w 17 5) (fld w 12 5) (fld w 7 5) (fld w 5 2) (fld w 0 1))
  | 0x05 => .ok (.vadds (fld w 17 5) (fld w 12 5) (fld w 7 5) (fld w 5 2) (fld w 0 1))
  | 0x06 => .ok (.vsubs (fld w 17 5) (fld w 12 5) (fld w 7 5) (fld w 5 2) (fld w 0 1))
  | 0x07 => .ok (.vand (fld w 17 5) (fld w 12 5) (fld w 7 5) (fld w 5 2) (fld w 0 1))
  | 0x08 => .ok (.vor (fld w 17 5) (fld w 12 5) (fld w 7 5) (fld w 5 2) (fld w 0 1))
  | 0x09 => .ok (.vxor (fld w 17 5) (fld w 12 5) (fld w 7 5) (fld w 5 2) (fld w 0 1))
  | 0x0A => .ok (.vshl (fld w 17 5) (fld w 12 5) (fld w 7 5) (fld w 5 2) (fld w 0 1))
  | 0x0B => .ok (.vsra (fld w 17 5) (fld w 12 5) (fld w 7 5) (fld w 5 2) (fld w 0 1))
  | 0x0C => .ok (.vsrl (fld w 17 5) (fld w 12 5) (fld w 7 5) (fld w 5 2) (fld w 0 1))
  | _ => .error .unassignedFunction

/-- Major 0x2B. -/
def decodeVecCompare (w : BitVec 32) : Except DecodeError Instr :=
  match (fld w 1 4).toNat with
  | 0x00 => .ok (.vcmpEq (fld w 17 5) (fld w 12 5) (fld w 7 5) (fld w 5 2) (fld w 0 1))
  | 0x01 => .ok (.vcmpNe (fld w 17 5) (fld w 12 5) (fld w 7 5) (fld w 5 2) (fld w 0 1))
  | 0x02 => .ok (.vcmpLt (fld w 17 5) (fld w 12 5) (fld w 7 5) (fld w 5 2) (fld w 0 1))
  | 0x03 => .ok (.vcmpLe (fld w 17 5) (fld w 12 5) (fld w 7 5) (fld w 5 2) (fld w 0 1))
  | 0x04 => .ok (.vcmpGt (fld w 17 5) (fld w 12 5) (fld w 7 5) (fld w 5 2) (fld w 0 1))
  | 0x05 => .ok (.vcmpGe (fld w 17 5) (fld w 12 5) (fld w 7 5) (fld w 5 2) (fld w 0 1))
  | 0x06 => .ok (.vcmpUo (fld w 17 5) (fld w 12 5) (fld w 7 5) (fld w 5 2) (fld w 0 1))
  | _ => .error .unassignedFunction

/-- Major 0x2C. -/
def decodeVecPred (w : BitVec 32) : Except DecodeError Instr :=
  match (fld w 1 6).toNat with
  | 0x00 => reserved (fld w 0 1 = 0#1) (.vsel (fld w 17 5) (fld w 12 5) (fld w 7 5))
  | 0x01 => .ok (.pand (fld w 17 5) (fld w 12 5) (fld w 7 5) (fld w 0 1))
  | 0x02 => .ok (.por (fld w 17 5) (fld w 12 5) (fld w 7 5) (fld w 0 1))
  | 0x03 => .ok (.pxor (fld w 17 5) (fld w 12 5) (fld w 7 5) (fld w 0 1))
  | 0x04 => reserved (fld w 7 5 = 0#5) (.pnot (fld w 17 5) (fld w 12 5) (fld w 0 1))
  | 0x05 => reserved (fld w 7 10 = 0#10) (.pset (fld w 17 5) (fld w 0 1))
  | 0x06 => reserved (fld w 7 10 = 0#10) (.pclr (fld w 17 5) (fld w 0 1))
  | _ => .error .unassignedFunction

/-- Major 0x2D. -/
def decodeVecConvert (w : BitVec 32) : Except DecodeError Instr :=
  match (fld w 1 6).toNat with
  | 0x00 | 0x01 | 0x02 | 0x03 => reserved (fld w 7 5 = 0#5) (.vcvt (fld w 17 5) (fld w 12 5) (fld w 1 2) (fld w 0 1))
  | 0x04 => reserved (fld w 7 5 = 0#5) (.vqnt (fld w 17 5) (fld w 12 5) (fld w 0 1))
  | 0x08 => reserved (fld w 7 5 = 0#5) (.vdq (fld w 17 5) (fld w 12 5) (fld w 0 1))
  | _ => .error .unassignedFunction

/-- Major 0x2E. -/
def decodeVecReduce (w : BitVec 32) : Except DecodeError Instr :=
  match (fld w 1 4).toNat with
  | 0x00 => reserved (fld w 7 5 = 0#5) (.vrsum (fld w 17 5) (fld w 12 5) (fld w 5 2) (fld w 0 1))
  | 0x01 => reserved (fld w 7 5 = 0#5) (.vrmax (fld w 17 5) (fld w 12 5) (fld w 5 2) (fld w 0 1))
  | 0x02 => reserved (fld w 7 5 = 0#5) (.vrmin (fld w 17 5) (fld w 12 5) (fld w 5 2) (fld w 0 1))
  | _ => .error .unassignedFunction

/-- Major 0x2F. -/
def decodeVecMove (w : BitVec 32) : Except DecodeError Instr :=
  match (fld w 1 6).toNat with
  | 0x00 => .ok (.vgather (fld w 17 5) (fld w 12 5) (fld w 7 5) (fld w 0 1))
  | 0x01 => .ok (.vscatter (fld w 17 5) (fld w 12 5) (fld w 7 5) (fld w 0 1))
  | 0x02 => .ok (.vperm (fld w 17 5) (fld w 12 5) (fld w 7 5) (fld w 0 1))
  | 0x03 => reserved (fld w 7 5 = 0#5) (.vmov (fld w 17 5) (fld w 12 5) (fld w 0 1))
  | 0x04 => reserved (fld w 7 5 = 0#5) (.vfill (fld w 17 5) (fld w 12 5) (fld w 0 1))
  | 0x05 => reserved (fld w 7 10 = 0#10) (.viota (fld w 17 5) (fld w 0 1))
  | _ => .error .unassignedFunction

/-- Major 0x30. -/
def decodeTranspose (w : BitVec 32) : Except DecodeError Instr :=
  match (fld w 1 6).toNat with
  | 0x00 => reserved (fld w 7 5 = 0#5 ∧ fld w 0 1 = 0#1) (.xtr (fld w 17 5) (fld w 12 5))
  | 0x01 => reserved (fld w 7 5 = 0#5 ∧ fld w 0 1 = 0#1) (.xtrc (fld w 17 5) (fld w 12 5))
  | _ => .error .unassignedFunction

/-- Major 0x31. -/
def decodeUpdate (w : BitVec 32) : Except DecodeError Instr :=
  match (fld w 1 6).toNat with
  | 0x00 => reserved (fld w 7 5 = 0#5 ∧ fld w 0 1 = 0#1) (.upst (fld w 17 5) (fld w 12 5))
  | 0x01 => reserved (fld w 17 5 = 0#5 ∧ fld w 0 1 = 0#1) (.uvtag (fld w 12 5) (fld w 7 5))
  | _ => .error .unassignedFunction

/-- Major 0x32. -/
def decodeCopy (w : BitVec 32) : Except DecodeError Instr :=
  match (fld w 1 6).toNat with
  | 0x00 => reserved (fld w 0 1 = 0#1) (.cpy (fld w 17 5) (fld w 12 5) (fld w 7 5))
  | 0x01 => reserved (fld w 0 1 = 0#1) (.cpym (fld w 17 5) (fld w 12 5) (fld w 7 5))
  | 0x02 => reserved (fld w 0 1 = 0#1) (.rrot (fld w 17 5) (fld w 12 5) (fld w 7 5))
  | 0x03 => reserved (fld w 17 5 = 0#5 ∧ fld w 7 5 = 0#5 ∧ fld w 0 1 = 0#1) (.ccan (fld w 12 5))
  | 0x04 => reserved (fld w 7 10 = 0#10 ∧ fld w 0 1 = 0#1) (.waitc (fld w 17 5))
  | _ => .error .unassignedFunction

/-- Major 0x33. -/
def decodeStream (w : BitVec 32) : Except DecodeError Instr :=
  match (fld w 1 6).toNat with
  | 0x00 => reserved (fld w 0 1 = 0#1) (.sbind (fld w 17 5) (fld w 12 5) (fld w 7 5))
  | 0x01 => reserved (fld w 17 5 = 0#5 ∧ fld w 7 5 = 0#5 ∧ fld w 0 1 = 0#1) (.ssch (fld w 12 5))
  | 0x02 => reserved (fld w 7 15 = 0#15 ∧ fld w 0 1 = 0#1) .sadv
  | 0x03 => reserved (fld w 17 5 = 0#5 ∧ fld w 7 5 = 0#5 ∧ fld w 0 1 = 0#1) (.sres (fld w 12 5))
  | _ => .error .unassignedFunction

/-- Major 0x34. -/
def decodeGauge (w : BitVec 32) : Except DecodeError Instr :=
  match (fld w 1 6).toNat with
  | 0x00 => reserved (fld w 7 5 = 0#5 ∧ fld w 0 1 = 0#1) (.ginit (fld w 17 5) (fld w 12 5))
  | 0x01 => reserved (fld w 0 1 = 0#1) (.gwait (fld w 17 5) (fld w 12 5) (fld w 7 5))
  | 0x02 => reserved (fld w 7 5 = 0#5 ∧ fld w 0 1 = 0#1) (.gread (fld w 17 5) (fld w 12 5))
  | 0x03 => reserved (fld w 7 15 = 0#15 ∧ fld w 0 1 = 0#1) .gbar
  | _ => .error .unassignedFunction

/-- Major 0x35. -/
def decodeWeightStore (w : BitVec 32) : Except DecodeError Instr :=
  match (fld w 1 6).toNat with
  | 0x00 => reserved (fld w 17 5 = 0#5 ∧ fld w 7 5 = 0#5 ∧ fld w 0 1 = 0#1) (.wact (fld w 12 5))
  | 0x01 => reserved (fld w 17 5 = 0#5 ∧ fld w 7 5 = 0#5 ∧ fld w 0 1 = 0#1) (.wpre (fld w 12 5))
  | 0x02 => reserved (fld w 17 5 = 0#5 ∧ fld w 7 5 = 0#5 ∧ fld w 0 1 = 0#1) (.wref (fld w 12 5))
  | 0x03 => reserved (fld w 7 5 = 0#5 ∧ fld w 0 1 = 0#1) (.wld (fld w 17 5) (fld w 12 5))
  | 0x04 => reserved (fld w 7 5 = 0#5 ∧ fld w 0 1 = 0#1) (.wst (fld w 17 5) (fld w 12 5))
  | _ => .error .unassignedFunction

/-- Major 0x36. -/
def decodeVersion (w : BitVec 32) : Except DecodeError Instr :=
  match (fld w 1 6).toNat with
  | 0x00 => reserved (fld w 17 5 = 0#5 ∧ fld w 0 1 = 0#1) (.vpub (fld w 12 5) (fld w 7 5))
  | 0x01 => reserved (fld w 17 5 = 0#5 ∧ fld w 7 5 = 0#5 ∧ fld w 0 1 = 0#1) (.vswt (fld w 12 5))
  | 0x02 => reserved (fld w 0 1 = 0#1) (.temit (fld w 17 5) (fld w 12 5) (fld w 7 5))
  | _ => .error .unassignedFunction

/-- Major 0x37. -/
def decodeJoin (w : BitVec 32) : Except DecodeError Instr :=
  match (fld w 1 6).toNat with
  | 0x00 => reserved (fld w 17 5 = 0#5 ∧ fld w 7 5 = 0#5 ∧ fld w 0 1 = 0#1) (.jopen (fld w 12 5))
  | 0x01 => reserved (fld w 7 5 = 0#5 ∧ fld w 0 1 = 0#1) (.jacc (fld w 17 5) (fld w 12 5))
  | 0x02 => reserved (fld w 7 5 = 0#5 ∧ fld w 0 1 = 0#1) (.jarr (fld w 17 5) (fld w 12 5))
  | 0x03 => reserved (fld w 17 5 = 0#5 ∧ fld w 7 5 = 0#5 ∧ fld w 0 1 = 0#1) (.jwait (fld w 12 5))
  | 0x04 => reserved (fld w 7 15 = 0#15 ∧ fld w 0 1 = 0#1) .kpt
  | _ => .error .unassignedFunction

/-- Major 0x38. -/
def decodeCollective (w : BitVec 32) : Except DecodeError Instr :=
  match (fld w 0 7).toNat with
  | 0x00 => reserved (fld w 17 5 = 0#5 ∧ fld w 7 5 = 0#5) (.coll (fld w 12 5))
  | 0x01 => reserved (fld w 17 5 = 0#5) (.collJ (fld w 12 5) (fld w 7 5))
  | 0x02 => reserved (fld w 7 5 = 0#5) (.csig (fld w 17 5) (fld w 12 5))
  | _ => .error .unassignedFunction

/-- Major 0x39. -/
def decodePower (w : BitVec 32) : Except DecodeError Instr :=
  match (fld w 1 6).toNat with
  | 0x00 => reserved (fld w 17 5 = 0#5 ∧ fld w 7 5 = 0#5 ∧ fld w 0 1 = 0#1) (.afw (fld w 12 5))
  | _ => .error .unassignedFunction

/-- The instruction that the body of a word names, its operand values not yet checked (R56). -/
def decodeBody (w : BitVec 32) : Except DecodeError Instr :=
  match (fld w 22 6).toNat with
  | 0x01 => .ok (.addi (fld w 17 5) (fld w 12 5) (fld w 0 12))
  | 0x02 => .ok (.addiW (fld w 17 5) (fld w 12 5) (fld w 0 12))
  | 0x03 => .ok (.andi (fld w 17 5) (fld w 12 5) (fld w 0 12))
  | 0x04 => .ok (.ori (fld w 17 5) (fld w 12 5) (fld w 0 12))
  | 0x05 => .ok (.xori (fld w 17 5) (fld w 12 5) (fld w 0 12))
  | 0x06 => reserved (fld w 7 5 = 0#5) (.slli (fld w 17 5) (fld w 12 5) (fld w 6 1) (fld w 0 6))
  | 0x07 => reserved (fld w 7 5 = 0#5) (.srli (fld w 17 5) (fld w 12 5) (fld w 6 1) (fld w 0 6))
  | 0x08 => reserved (fld w 7 5 = 0#5) (.srai (fld w 17 5) (fld w 12 5) (fld w 6 1) (fld w 0 6))
  | 0x09 => .ok (.li (fld w 17 5) (fld w 0 17))
  | 0x0A => .ok (.lui (fld w 17 5) (fld w 0 17))
  | 0x0B => .ok (.lsi (fld w 17 5) (fld w 0 17))
  | 0x10 => decodeScalarReg w
  | 0x11 => decodeMulDiv w
  | 0x12 => decodeLoad w
  | 0x13 => decodeLoadU w
  | 0x14 => decodeStore w
  | 0x17 => decodeHandleMem w
  | 0x18 => decodeAtomic w
  | 0x19 => decodeSync w
  | 0x1A => .ok (.ptgt (fld w 17 5) (fld w 0 17))
  | 0x1B => decodeCompare w
  | 0x1C => decodeTransfer w
  | 0x1D => decodeVote w
  | 0x1E => decodeLoop w
  | 0x1F => decodeSystem w
  | 0x20 => decodeHandle w
  | 0x21 => .ok (.hset (fld w 17 5) (fld w 12 5) (fld w 0 12))
  | 0x22 => .ok (.hget (fld w 17 5) (fld w 12 5) (fld w 0 12))
  | 0x23 => decodeEngineConfig w
  | 0x24 => decodeCubeProduct w
  | 0x25 => decodeCubeLatch w
  | 0x26 => decodeCubeRead w
  | 0x27 => decodeCubeSelect w
  | 0x28 => decodeVecFp w
  | 0x29 => decodeVecFused w
  | 0x2A => decodeVecInt w
  | 0x2B => decodeVecCompare w
  | 0x2C => decodeVecPred w
  | 0x2D => decodeVecConvert w
  | 0x2E => decodeVecReduce w
  | 0x2F => decodeVecMove w
  | 0x30 => decodeTranspose w
  | 0x31 => decodeUpdate w
  | 0x32 => decodeCopy w
  | 0x33 => decodeStream w
  | 0x34 => decodeGauge w
  | 0x35 => decodeWeightStore w
  | 0x36 => decodeVersion w
  | 0x37 => decodeJoin w
  | 0x38 => decodeCollective w
  | 0x39 => decodePower w
  | _ => .error .unassignedMajor

/-- Decoding of one word (R53): the body, then the operand values that trap ILLEGAL_OP. -/
def decode (w : BitVec 32) : Except DecodeError Instr :=
  match decodeBody w with
  | .ok i => if i.wf then .ok i else .error .badOperand
  | .error e => .error e

/-! The encoder, from the formats of R52. -/

/-- Format RR. -/
def rr (op : BitVec 6) (d a b : BitVec 5) (fn : BitVec 7) : BitVec 32 := 0#4 ++ op ++ d ++ a ++ b ++ fn
/-- Format IM. -/
def im (op : BitVec 6) (d a : BitVec 5) (i : BitVec 12) : BitVec 32 := 0#4 ++ op ++ d ++ a ++ i
/-- Format LIM. -/
def lim (op : BitVec 6) (d : BitVec 5) (i : BitVec 17) : BitVec 32 := 0#4 ++ op ++ d ++ i
/-- Format MEM. -/
def mem (op : BitVec 6) (d b : BitVec 5) (sz : BitVec 2) (o : BitVec 10) : BitVec 32 :=
  0#4 ++ op ++ d ++ b ++ sz ++ o
/-- Format ENG. -/
def eng (op : BitVec 6) (c a b : BitVec 5) (F : BitVec 6) (fl : BitVec 1) : BitVec 32 :=
  0#4 ++ op ++ c ++ a ++ b ++ F ++ fl
/-- Format LP. -/
def lp (op : BitVec 6) (lvl sub : BitVec 3) (r : BitVec 16) : BitVec 32 := 0#4 ++ op ++ lvl ++ sub ++ r
/-- Format SYS. -/
def sys (op : BitVec 6) (x fn5 : BitVec 5) (i : BitVec 12) : BitVec 32 := 0#4 ++ op ++ x ++ fn5 ++ i

/-- The word of an instruction with an all-zero header. An operation or event has no word; its image
here is the all-zero word, which decodes to nothing (R41). -/
def encode : Instr → BitVec 32
  | .addi d a i => im 1#6 d a i
  | .addiW d a i => im 2#6 d a i
  | .andi d a i => im 3#6 d a i
  | .ori d a i => im 4#6 d a i
  | .xori d a i => im 5#6 d a i
  | .slli d a x n => im 6#6 d a (0#5 ++ x ++ n)
  | .srli d a x n => im 7#6 d a (0#5 ++ x ++ n)
  | .srai d a x n => im 8#6 d a (0#5 ++ x ++ n)
  | .li d i => lim 9#6 d i
  | .lui d i => lim 0xA#6 d i
  | .lsi d i => lim 0xB#6 d i
  | .add d a b t => rr 0x10#6 d a b (t ++ 0#6)
  | .sub d a b t => rr 0x10#6 d a b (t ++ 1#6)
  | .and d a b t => rr 0x10#6 d a b (t ++ 2#6)
  | .or d a b t => rr 0x10#6 d a b (t ++ 3#6)
  | .xor d a b t => rr 0x10#6 d a b (t ++ 4#6)
  | .andn d a b t => rr 0x10#6 d a b (t ++ 5#6)
  | .sll d a b t => rr 0x10#6 d a b (t ++ 6#6)
  | .srl d a b t => rr 0x10#6 d a b (t ++ 7#6)
  | .sra d a b t => rr 0x10#6 d a b (t ++ 8#6)
  | .min d a b t => rr 0x10#6 d a b (t ++ 9#6)
  | .max d a b t => rr 0x10#6 d a b (t ++ 0xA#6)
  | .minu d a b t => rr 0x10#6 d a b (t ++ 0xB#6)
  | .maxu d a b t => rr 0x10#6 d a b (t ++ 0xC#6)
  | .clz d a t => rr 0x10#6 d a 0#5 (t ++ 0xD#6)
  | .ctz d a t => rr 0x10#6 d a 0#5 (t ++ 0xE#6)
  | .popc d a t => rr 0x10#6 d a 0#5 (t ++ 0xF#6)
  | .sextB d a t => rr 0x10#6 d a 0#5 (t ++ 0x10#6)
  | .sextH d a t => rr 0x10#6 d a 0#5 (t ++ 0x11#6)
  | .sextW d a t => rr 0x10#6 d a 0#5 (t ++ 0x12#6)
  | .zextB d a t => rr 0x10#6 d a 0#5 (t ++ 0x13#6)
  | .zextH d a t => rr 0x10#6 d a 0#5 (t ++ 0x14#6)
  | .zextW d a t => rr 0x10#6 d a 0#5 (t ++ 0x15#6)
  | .sadd1 d a b t => rr 0x10#6 d a b (t ++ 0x16#6)
  | .sadd2 d a b t => rr 0x10#6 d a b (t ++ 0x17#6)
  | .sadd3 d a b t => rr 0x10#6 d a b (t ++ 0x18#6)
  | .sadd4 d a b t => rr 0x10#6 d a b (t ++ 0x19#6)
  | .addW d a b t => rr 0x10#6 d a b (t ++ 0x20#6)
  | .subW d a b t => rr 0x10#6 d a b (t ++ 0x21#6)
  | .sllW d a b t => rr 0x10#6 d a b (t ++ 0x26#6)
  | .srlW d a b t => rr 0x10#6 d a b (t ++ 0x27#6)
  | .sraW d a b t => rr 0x10#6 d a b (t ++ 0x28#6)
  | .clzW d a t => rr 0x10#6 d a 0#5 (t ++ 0x2D#6)
  | .ctzW d a t => rr 0x10#6 d a 0#5 (t ++ 0x2E#6)
  | .popcW d a t => rr 0x10#6 d a 0#5 (t ++ 0x2F#6)
  | .mul d a b => rr 0x11#6 d a b 0#7
  | .mulh d a b => rr 0x11#6 d a b 1#7
  | .mulhu d a b => rr 0x11#6 d a b 2#7
  | .mulhsu d a b => rr 0x11#6 d a b 3#7
  | .mulW d a b => rr 0x11#6 d a b 4#7
  | .div d a b => rr 0x11#6 d a b 8#7
  | .divu d a b => rr 0x11#6 d a b 9#7
  | .rem d a b => rr 0x11#6 d a b 0xA#7
  | .remu d a b => rr 0x11#6 d a b 0xB#7
  | .divW d a b => rr 0x11#6 d a b 0xC#7
  | .divuW d a b => rr 0x11#6 d a b 0xD#7
  | .remW d a b => rr 0x11#6 d a b 0xE#7
  | .remuW d a b => rr 0x11#6 d a b 0xF#7
  | .ldB d b o => mem 0x12#6 d b 0#2 o
  | .ldH d b o => mem 0x12#6 d b 1#2 o
  | .ldW d b o => mem 0x12#6 d b 2#2 o
  | .ldD d b o => mem 0x12#6 d b 3#2 o
  | .ldBu d b o => mem 0x13#6 d b 0#2 o
  | .ldHu d b o => mem 0x13#6 d b 1#2 o
  | .ldWu d b o => mem 0x13#6 d b 2#2 o
  | .stB d b o => mem 0x14#6 d b 0#2 o
  | .stH d b o => mem 0x14#6 d b 1#2 o
  | .stW d b o => mem 0x14#6 d b 2#2 o
  | .stD d b o => mem 0x14#6 d b 3#2 o
  | .hld d b o => mem 0x17#6 d b 0#2 o
  | .hst d b o => mem 0x17#6 d b 1#2 o
  | .hdrop d b => mem 0x17#6 d b 2#2 0#10
  | .aadd d a b z => rr 0x18#6 d a b (0#6 ++ z)
  | .aand d a b z => rr 0x18#6 d a b (1#6 ++ z)
  | .aor d a b z => rr 0x18#6 d a b (2#6 ++ z)
  | .axor d a b z => rr 0x18#6 d a b (3#6 ++ z)
  | .amin d a b z => rr 0x18#6 d a b (4#6 ++ z)
  | .amax d a b z => rr 0x18#6 d a b (5#6 ++ z)
  | .aminu d a b z => rr 0x18#6 d a b (6#6 ++ z)
  | .amaxu d a b z => rr 0x18#6 d a b (7#6 ++ z)
  | .aswap d a b z => rr 0x18#6 d a b (8#6 ++ z)
  | .acas d a b z => rr 0x18#6 d a b (9#6 ++ z)
  | .bind a b => rr 0x19#6 0#5 a b 0#7
  | .acq a c => rr 0x19#6 0#5 a 0#5 (1#4 ++ c)
  | .rel a c => rr 0x19#6 0#5 a 0#5 (2#4 ++ c)
  | .fenceAcq c => rr 0x19#6 0#5 0#5 0#5 (3#4 ++ c)
  | .fenceRel c => rr 0x19#6 0#5 0#5 0#5 (4#4 ++ c)
  | .fence c => rr 0x19#6 0#5 0#5 0#5 (5#4 ++ c)
  | .lfence => rr 0x19#6 0#5 0#5 0#5 0x30#7
  | .ifence => rr 0x19#6 0#5 0#5 0#5 0x31#7
  | .ptgt d i => lim 0x1A#6 d i
  | .cmpEq d a b x => rr 0x1B#6 d a b (0#3 ++ x ++ 0#3)
  | .cmpNe d a b x => rr 0x1B#6 d a b (0#3 ++ x ++ 1#3)
  | .cmpLt d a b x => rr 0x1B#6 d a b (0#3 ++ x ++ 2#3)
  | .cmpGe d a b x => rr 0x1B#6 d a b (0#3 ++ x ++ 3#3)
  | .cmpLtu d a b x => rr 0x1B#6 d a b (0#3 ++ x ++ 4#3)
  | .cmpGeu d a b x => rr 0x1B#6 d a b (0#3 ++ x ++ 5#3)
  | .br a b k => rr 0x1C#6 0#5 a b (0#5 ++ k)
  | .brZ a b k => rr 0x1C#6 0#5 a b (1#5 ++ k)
  | .brl d a k => rr 0x1C#6 d a 0#5 (2#5 ++ k)
  | .jr a k => rr 0x1C#6 0#5 a 0#5 (3#5 ++ k)
  | .jtab a b k => rr 0x1C#6 0#5 a b (4#5 ++ k)
  | .vany d p => rr 0x1D#6 d p 0#5 0#7
  | .vall d p => rr 0x1D#6 d p 0#5 1#7
  | .estat d n => rr 0x1D#6 d n 0#5 2#7
  | .lset l a => lp 0x1E#6 l 0#3 (a ++ 0#11)
  | .lstr l j r t => lp 0x1E#6 l 1#3 (j ++ r ++ t ++ 0#5)
  | .lbody l n => lp 0x1E#6 l 2#3 (0#8 ++ n)
  | .lidx l d => lp 0x1E#6 l 3#3 (d ++ 0#11)
  | .lexit l => lp 0x1E#6 l 4#3 0#16
  | .lfl l f => lp 0x1E#6 l 7#3 (0#6 ++ f)
  | .nop => sys 0x1F#6 0#5 0#5 0#12
  | .stall n => sys 0x1F#6 0#5 1#5 n
  | .trap n => sys 0x1F#6 0#5 2#5 n
  | .brk n => sys 0x1F#6 0#5 3#5 n
  | .rft => sys 0x1F#6 0#5 4#5 0#12
  | .csrr x n => sys 0x1F#6 x 5#5 n
  | .csrw x n => sys 0x1F#6 x 6#5 n
  | .yield => sys 0x1F#6 0#5 7#5 0#12
  | .idle => sys 0x1F#6 0#5 8#5 0#12
  | .tlbi x k => sys 0x1F#6 x 9#5 (0#10 ++ k)
  | .stest x => sys 0x1F#6 x 0xA#5 0#12
  | .ststat x => sys 0x1F#6 x 0xB#5 0#12
  | .cmapw x => sys 0x1F#6 x 0xC#5 0#12
  | .hmov d a => rr 0x20#6 d a 0#5 0#7
  | .hofs d a b => rr 0x20#6 d a b 1#7
  | .hseq d b => rr 0x20#6 d 0#5 b 2#7
  | .hlive d a => rr 0x20#6 d a 0#5 3#7
  | .hea d a b => rr 0x20#6 d a b 4#7
  | .hset d a i => im 0x21#6 d a i
  | .hget d a i => im 0x22#6 d a i
  | .ewr c a b => eng 0x23#6 c a b 0#6 0#1
  | .erd c a b => eng 0x23#6 c a b 1#6 0#1
  | .edrain => eng 0x23#6 0#5 0#5 0#5 2#6 0#1
  | .efence => eng 0x23#6 0#5 0#5 0#5 3#6 0#1
  | .cmm c a b => eng 0x24#6 c a b 0#6 0#1
  | .cmmh c a b => eng 0x24#6 c a b 1#6 0#1
  | .cldb a h => eng 0x25#6 0#5 a 0#5 0#6 h
  | .czero c => eng 0x25#6 c 0#5 0#5 1#6 0#1
  | .crd c a => eng 0x26#6 c a 0#5 0#6 0#1
  | .cfsel a => eng 0x27#6 0#5 a 0#5 0#6 0#1
  | .vaddFp c a b f m => eng 0x28#6 c a b (f ++ 0#4) m
  | .vsubFp c a b f m => eng 0x28#6 c a b (f ++ 1#4) m
  | .vmulFp c a b f m => eng 0x28#6 c a b (f ++ 2#4) m
  | .vminFp c a b f m => eng 0x28#6 c a b (f ++ 3#4) m
  | .vmaxFp c a b f m => eng 0x28#6 c a b (f ++ 4#4) m
  | .vfma c a b f m => eng 0x29#6 c a b (f ++ 0#4) m
  | .vfms c a b f m => eng 0x29#6 c a b (f ++ 1#4) m
  | .vfnma c a b f m => eng 0x29#6 c a b (f ++ 2#4) m
  | .vabs c a f m => eng 0x29#6 c a 0#5 (f ++ 3#4) m
  | .vneg c a f m => eng 0x29#6 c a 0#5 (f ++ 4#4) m
  | .vrcp c a m => eng 0x29#6 c a 0#5 5#6 m
  | .vrsq c a m => eng 0x29#6 c a 0#5 6#6 m
  | .vexp2 c a m => eng 0x29#6 c a 0#5 7#6 m
  | .vlog2 c a m => eng 0x29#6 c a 0#5 8#6 m
  | .vaddInt c a b f m => eng 0x2A#6 c a b (f ++ 0#4) m
  | .vsubInt c a b f m => eng 0x2A#6 c a b (f ++ 1#4) m
  | .vmulInt c a b f m => eng 0x2A#6 c a b (f ++ 2#4) m
  | .vminInt c a b f m => eng 0x2A#6 c a b (f ++ 3#4) m
  | .vmaxInt c a b f m => eng 0x2A#6 c a b (f ++ 4#4) m
  | .vadds c a b f m => eng 0x2A#6 c a b (f ++ 5#4) m
  | .vsubs c a b f m => eng 0x2A#6 c a b (f ++ 6#4) m
  | .vand c a b f m => eng 0x2A#6 c a b (f ++ 7#4) m
  | .vor c a b f m => eng 0x2A#6 c a b (f ++ 8#4) m
  | .vxor c a b f m => eng 0x2A#6 c a b (f ++ 9#4) m
  | .vshl c a b f m => eng 0x2A#6 c a b (f ++ 0xA#4) m
  | .vsra c a b f m => eng 0x2A#6 c a b (f ++ 0xB#4) m
  | .vsrl c a b f m => eng 0x2A#6 c a b (f ++ 0xC#4) m
  | .vcmpEq p a b f m => eng 0x2B#6 p a b (f ++ 0#4) m
  | .vcmpNe p a b f m => eng 0x2B#6 p a b (f ++ 1#4) m
  | .vcmpLt p a b f m => eng 0x2B#6 p a b (f ++ 2#4) m
  | .vcmpLe p a b f m => eng 0x2B#6 p a b (f ++ 3#4) m
  | .vcmpGt p a b f m => eng 0x2B#6 p a b (f ++ 4#4) m
  | .vcmpGe p a b f m => eng 0x2B#6 p a b (f ++ 5#4) m
  | .vcmpUo p a b f m => eng 0x2B#6 p a b (f ++ 6#4) m
  | .vsel c a b => eng 0x2C#6 c a b 0#6 0#1
  | .pand p q r m => eng 0x2C#6 p q r 1#6 m
  | .por p q r m => eng 0x2C#6 p q r 2#6 m
  | .pxor p q r m => eng 0x2C#6 p q r 3#6 m
  | .pnot p q m => eng 0x2C#6 p q 0#5 4#6 m
  | .pset p m => eng 0x2C#6 p 0#5 0#5 5#6 m
  | .pclr p m => eng 0x2C#6 p 0#5 0#5 6#6 m
  | .vcvt c a r m => eng 0x2D#6 c a 0#5 (0#4 ++ r) m
  | .vqnt c a m => eng 0x2D#6 c a 0#5 4#6 m
  | .vdq c a m => eng 0x2D#6 c a 0#5 8#6 m
  | .vrsum c a f m => eng 0x2E#6 c a 0#5 (f ++ 0#4) m
  | .vrmax c a f m => eng 0x2E#6 c a 0#5 (f ++ 1#4) m
  | .vrmin c a f m => eng 0x2E#6 c a 0#5 (f ++ 2#4) m
  | .vgather c a b m => eng 0x2F#6 c a b 0#6 m
  | .vscatter c a b m => eng 0x2F#6 c a b 1#6 m
  | .vperm c a b m => eng 0x2F#6 c a b 2#6 m
  | .vmov c a m => eng 0x2F#6 c a 0#5 3#6 m
  | .vfill c a m => eng 0x2F#6 c a 0#5 4#6 m
  | .viota c m => eng 0x2F#6 c 0#5 0#5 5#6 m
  | .xtr c a => eng 0x30#6 c a 0#5 0#6 0#1
  | .xtrc c a => eng 0x30#6 c a 0#5 1#6 0#1
  | .upst c a => eng 0x31#6 c a 0#5 0#6 0#1
  | .uvtag a b => eng 0x31#6 0#5 a b 1#6 0#1
  | .cpy c a b => eng 0x32#6 c a b 0#6 0#1
  | .cpym c a b => eng 0x32#6 c a b 1#6 0#1
  | .rrot c a b => eng 0x32#6 c a b 2#6 0#1
  | .ccan a => eng 0x32#6 0#5 a 0#5 3#6 0#1
  | .waitc c => eng 0x32#6 c 0#5 0#5 4#6 0#1
  | .sbind c q b => eng 0x33#6 c q b 0#6 0#1
  | .ssch a => eng 0x33#6 0#5 a 0#5 1#6 0#1
  | .sadv => eng 0x33#6 0#5 0#5 0#5 2#6 0#1
  | .sres a => eng 0x33#6 0#5 a 0#5 3#6 0#1
  | .ginit c a => eng 0x34#6 c a 0#5 0#6 0#1
  | .gwait c a b => eng 0x34#6 c a b 1#6 0#1
  | .gread c a => eng 0x34#6 c a 0#5 2#6 0#1
  | .gbar => eng 0x34#6 0#5 0#5 0#5 3#6 0#1
  | .wact a => eng 0x35#6 0#5 a 0#5 0#6 0#1
  | .wpre a => eng 0x35#6 0#5 a 0#5 1#6 0#1
  | .wref a => eng 0x35#6 0#5 a 0#5 2#6 0#1
  | .wld c a => eng 0x35#6 c a 0#5 3#6 0#1
  | .wst c a => eng 0x35#6 c a 0#5 4#6 0#1
  | .vpub a b => eng 0x36#6 0#5 a b 0#6 0#1
  | .vswt a => eng 0x36#6 0#5 a 0#5 1#6 0#1
  | .temit c a b => eng 0x36#6 c a b 2#6 0#1
  | .jopen a => eng 0x37#6 0#5 a 0#5 0#6 0#1
  | .jacc c a => eng 0x37#6 c a 0#5 1#6 0#1
  | .jarr c a => eng 0x37#6 c a 0#5 2#6 0#1
  | .jwait a => eng 0x37#6 0#5 a 0#5 3#6 0#1
  | .kpt => eng 0x37#6 0#5 0#5 0#5 4#6 0#1
  | .coll a => eng 0x38#6 0#5 a 0#5 0#6 0#1
  | .collJ a b => eng 0x38#6 0#5 a b 0#6 1#1
  | .csig c a => eng 0x38#6 c a 0#5 1#6 0#1
  | .afw a => eng 0x39#6 0#5 a 0#5 0#6 0#1
  | .stallStep .. => 0#32
  | .shadowQueueLanding .. => 0#32
  | .transientExpiry .. => 0#32
  | .loadDataReturn .. => 0#32
  | .loopIterationEnd .. => 0#32
  | .asynchronousTrap .. => 0#32
  | .idleWake .. => 0#32
  | .vectorOperationCompletion .. => 0#32
  | .transposeOperationCompletion .. => 0#32
  | .upstCompletion .. => 0#32
  | .cubeOperationStart .. => 0#32
  | .cubeOperationCompletion .. => 0#32
  | .copyLanding .. => 0#32
  | .scheduleIterationStart .. => 0#32
  | .scheduleIterationLanding .. => 0#32
  | .wldLanding .. => 0#32
  | .wstCompletion .. => 0#32
  | .guardRefresh .. => 0#32
  | .gaugeTimeout .. => 0#32
  | .doorbell .. => 0#32
  | .launchBegin => 0#32
  | .groupPlacement .. => 0#32
  | .preemptionDeadline .. => 0#32
  | .save .. => 0#32
  | .resume .. => 0#32
  | .taskEnd .. => 0#32
  | .stepBudgetWindow => 0#32
  | .quantumExpiry .. => 0#32
  | .progressPromise .. => 0#32
  | .recomputeProducerCompletion .. => 0#32
  | .stragglerKill .. => 0#32
  | .deadlockDetection .. => 0#32
  | .spillwayChunkReturn .. => 0#32
  | .fabricWindowAccess .. => 0#32
  | .windowAccessTimeout .. => 0#32
  | .collectiveTransferSend .. => 0#32
  | .collectiveFold .. => 0#32
  | .collectiveCompletion .. => 0#32
  | .linkFailure .. => 0#32
  | .versionPublication .. => 0#32
  | .loweringAnnouncement .. => 0#32
  | .raiseProposal .. => 0#32
  | .raiseGrant .. => 0#32
  | .ceilingChange => 0#32
  | .heartbeatSend => 0#32
  | .heartbeat .. => 0#32
  | .memberEviction .. => 0#32
  | .joinRequest .. => 0#32
  | .departure .. => 0#32
  | .weirReq .. => 0#32
  | .pwrDidt .. => 0#32
  | .registerWrite .. => 0#32
  | .sensorReading .. => 0#32
  | .governorWindow .. => 0#32
  | .droopAlarm .. => 0#32
  | .droopAlarmClear .. => 0#32
  | .forecastUpdate => 0#32
  | .forecastExpiry .. => 0#32
  | .telemetrySample => 0#32
  | .telemetryAggregate => 0#32
  | .busTestRun .. => 0#32
  | .busTestCompletion .. => 0#32
  | .wsMapApplication .. => 0#32
  | .elevatorDrainEnd .. => 0#32
  | .transactionRetry .. => 0#32
  | .fatalEvent .. => 0#32
  | .coldStart .. => 0#32
  | .warmStart .. => 0#32
  | .faultDomainAcknowledge .. => 0#32
  | .hostWindowAccess .. => 0#32
  | .info => 0#32
  | .group .. => 0#32
  | .keyLoad .. => 0#32
  | .keyClear .. => 0#32
  | .attest .. => 0#32
  | .errlog .. => 0#32
  | .status => 0#32
  | .reset .. => 0#32
  | .telemetry .. => 0#32
  | .dumpRead .. => 0#32
  | .dumpClear => 0#32
  | .configRead => 0#32
  | .configWrite .. => 0#32
  | .cmapRestore .. => 0#32
  | .timeset .. => 0#32
  | .errlogRead .. => 0#32
  | .getMeasurements .. => 0#32
  | .testDrained .. => 0#32
  | .testEnd .. => 0#32
  | .testAbort .. => 0#32
  | .coreMapPersist => 0#32
  | .copyFault .. => 0#32
  | .storePerformed .. => 0#32
  | .jaccCompletion .. => 0#32
  | .collectiveTransferArrival .. => 0#32
  | .clockStretch .. => 0#32
  | .crossingBubble .. => 0#32
  | .spdmSecuredSession => 0#32

/-- An instruction that has a word. -/
def Instr.isWord (i : Instr) : Bool := encode i ≠ 0#32

/-- The header in its place, bits 31:28 (R41). -/
def Header.bits (h : Header) : BitVec 32 := (h.e ++ h.s ++ h.w) ++ 0#28

/-- The whole word of an instruction with a header. -/
def encodeWord (h : Header) (i : Instr) : BitVec 32 := h.bits ||| encode i

/-- The instruction this decoder reads from a row's bits: every row of the table has 32 bits. -/
def decodeTableWord (nbits w : Nat) : Option Instr :=
  if nbits = 32 then
    match decode (BitVec.ofNat 32 w) with
    | .ok i => some i
    | .error _ => none
  else none

end Sys2Proof
end

