-- ==== Sys2Proof/Machine/State.lean ====
section
/-! DEFINITION. The state of one HK-2 module, all of it plain data, and the machine right after reset
(a cold start that has completed, spec 14 R379). INVENTORY.md lists each field with its rule. -/

namespace Sys2Proof.Machine

/-- A table keyed by a number, kept in rising order of its keys; an absent row reads as the default
that the reading function names. -/
abbrev Tbl (α : Type) := List (Nat × α)

/-- User or supervisor mode (R290). -/
inductive Mode where
  | user
  | supervisor
  deriving DecidableEq, Repr

/-- The scalar or the handle register file (FILE of SCB.HIT, R24). -/
inductive RegFile where
  | scalar
  | handle
  deriving DecidableEq, Repr

/-- A register write on its way: it lands after `left` more steps (R32, R33). Latency-1 writes pass
through the same list within their own step and never stand in it between steps. -/
structure PendWrite where
  file : RegFile
  reg : BitVec 5
  val : Handle
  left : Nat
  deriving DecidableEq, Repr

/-- A transient result (R35): readable while `left` is 1 to 3; 4 within its own bundle. -/
structure Bypass where
  reg : BitVec 5
  val : Word
  left : Nat
  deriving DecidableEq, Repr

/-- A stream binding (R21). -/
structure Binding where
  headSeq : BitVec 32
  fillSeq : BitVec 32
  sched : BitVec 16
  hreg : BitVec 5
  bound : Bool
  deriving DecidableEq, Repr

/-- A level of the loop sequencer (R103), with the words of its body that the sequencer's buffer holds, by
address (R105). -/
structure Loop where
  active : Bool
  init : BitVec 32
  index : BitVec 32
  start : Word
  len : BitVec 8
  reg0 : BitVec 5
  stride0 : Word
  reg1 : BitVec 5
  stride1 : Word
  code : Tbl (BitVec 32)
  deriving DecidableEq, Repr

/-- What happens at the end of a bundle and its stall steps: a level advances or ends (R106), execution
continues elsewhere (R105, R107), a handler returns (R292). -/
inductive LoopEdge where
  | advance (level : Nat)
  | finish (level : Nat)
  | goto (target : Word)
  | leave
  deriving DecidableEq, Repr

/-- A pending transfer and its remaining delay count (R48); the register that awaits the link of a BRL whose
delay bundles could not be fetched as it issued (R98). -/
structure Xfer where
  target : Word
  left : Nat
  taken : Bool
  link : Option (BitVec 5) := none
  deriving DecidableEq, Repr

/-- A trap: cause, engine fault code, engine, kind, address and info (R291, R293); the identifier of the
collective whose fault in flight it is, 0 for any other (R337); the location of the write that a RACE reports, and
whether it is an atomic's (R274, R277). -/
structure Trap where
  cause : BitVec 8
  fcode : BitVec 8 := 0#8
  engine : BitVec 5 := 31#5
  async : Bool := false
  addr : Word := 0#64
  info : Word := 0#64
  coll : BitVec 32 := 0#32
  wrote : Option (Nat × Bool) := none
  deriving DecidableEq, Repr

/-- The part of a context that a trap holds aside for the interrupted code (R36, R109). -/
structure Held where
  shadow : List PendWrite
  bypass : List Bypass
  owed : Nat
  edges : List LoopEdge
  after : Option Trap
  safe : Option (BitVec 32)
  link : Option (BitVec 5)
  deriving DecidableEq, Repr

/-- Cube engine registers (R175 to R180). -/
structure CubeRegs where
  shape : Word
  lmask : Word
  mode : Word
  dir : Word
  acc : Word
  fsel : Word
  fmt : Vector Word 16
  deriving DecidableEq, Repr

/-- One latched B element: its bits (both parts in complex formats) and its group record (R188). -/
structure LatchElem where
  re : BitVec 32
  im : BitVec 32
  record : BitVec 32
  deriving DecidableEq, Repr

/-- The B latch set of a context (R181, R188); tile entry (ℓ, x, y) has key (ℓ·32 + x)·32 + y, an
absent one is +0 (a quantised one its zero point). -/
structure Latch where
  valid : Bool
  hold : Bool
  lmask : BitVec 8
  bfmt : BitVec 4
  grp : BitVec 2
  tiles : Tbl LatchElem
  deriving DecidableEq, Repr

/-- One entry of the loaded copy schedule, with its next iteration (R226, R227). -/
structure SchedEntry where
  pat : Handle
  step : Word
  iters : BitVec 32
  stage : BitVec 16
  gauge : Word
  next : Nat
  deriving DecidableEq, Repr

/-- Copy engine registers and the loaded schedule (R205); the scope of each completion record not yet returned, by
its place in the ring: that of R255's row, 0 for a record that releases nothing (R276). -/
structure CopyRegs where
  cfg : Word
  crbase : Word
  lost : BitVec 16
  size : BitVec 4
  widx : BitVec 16
  ridx : BitVec 16
  lastid : BitVec 32
  stage : BitVec 16
  halt : Bool
  hentry : BitVec 8
  fcode : BitVec 8
  sched : List SchedEntry
  scopes : Tbl Nat
  deriving DecidableEq, Repr

/-- A context's copy of every engine register (R22). -/
structure EngRegs where
  cube : CubeRegs
  latch : Latch
  vcfg : Word
  tcfg : Word
  ucfg : Word
  uwver : Word
  copy : CopyRegs
  collLast : BitVec 32
  deriving DecidableEq, Repr

/-- An engine fault reported after issue and not yet consumed (R102, R333). -/
structure EngFault where
  engine : Nat
  cause : BitVec 8
  fcode : BitVec 8
  coll : BitVec 32
  gauge : Word
  link : Option Nat
  deriving DecidableEq, Repr

/-- Trap registers of a context (R293); TRP.SHQ and TRP.BYP are read from `Ctx.held`. -/
structure TrapRegs where
  last : Trap
  pc : Word
  tgt : Word
  scrA : Word
  scrB : Word
  stalls : Nat
  pmode : Mode
  xfer : Bool
  dleft : BitVec 2
  deriving DecidableEq, Repr

/-- Status of the most recent STEST of a context (R117). -/
structure TestStatus where
  sig : BitVec 32
  cube : BitVec 1
  core : BitVec 8
  state : BitVec 3
  deriving DecidableEq, Repr

/-- The join a context has open, as the join unit caches it (R300): the record's address, where its three
lines of 64 bytes lie, the contributor index; RELTIME once a kill is pending; what the record held when a
JWAIT closed it. -/
structure OpenJoin where
  record : Word
  lines : List Nat
  idx : Nat
  arrived : Bool
  kill : Option Nat
  shut : Option Nat
  deriving DecidableEq, Repr

/-- The shadow of a 64-byte sector of a checked page (R275), and whether an atomic wrote it (R274). -/
structure Shadow where
  writer : Nat
  scope : Nat
  intv : Nat
  atomic : Bool
  deriving DecidableEq, Repr

/-- A context's part of the race detector (R275, R276): horizon entries (agent, interval, scope). -/
structure Race where
  horizon : List (Nat × Nat × Nat)
  floor : Nat × Nat
  overflow : Bool
  pending : List (Nat × Nat)
  interval : Nat
  deriving DecidableEq, Repr

/-- An activity-forecast entry (R364). -/
structure Forecast where
  horizon : Nat
  vec : Nat
  cube : Nat
  expiry : Nat
  deriving DecidableEq, Repr

/-- The task a context runs: launch number, index within it, its group (R283), and the logical number by which its core is
known to it (R24). -/
structure Task where
  launch : Nat
  index : Nat
  group : Nat
  core : Nat := 0
  deriving DecidableEq, Repr

/-- Where a context stands in a pre-emption (R288). -/
inductive Preempt where
  | none
  | req (at_ : Nat)
  | stopped (at_ : Nat) (forced : Bool) (mask : BitVec 32)
  deriving DecidableEq, Repr

/-- How a task comes to its end: it took BREAK with tag 0, a fault-domain stop or the failure of its own
producer launch ended it, or a join killed it (R283). -/
inductive Ending where
  | none
  | finished
  | stopped
  | killed
  deriving DecidableEq, Repr

/-- One context (R13, R24, R293 and the rules INVENTORY.md names). -/
structure Ctx where
  pc : Word
  regs : Vector Word 32
  hregs : Vector Handle 32
  binds : Vector Binding 8
  loops : Vector Loop 6
  preds : Vector Pred 8
  mode : Mode
  shadow : List PendWrite
  bypass : List Bypass
  owed : Nat
  edges : List LoopEdge
  after : Option Trap
  safe : Option (BitVec 32)
  killPoint : Bool
  xfer : Option Xfer
  busyS : BitVec 32
  busyH : BitVec 32
  busyErr : List (RegFile × BitVec 5 × Word)
  held : Option Held
  inh : Bool
  trp : TrapRegs
  step : Word
  loss : Vector (BitVec 32) 4
  scbEn : Bool
  scbSkip : Bool
  scbLeft : BitVec 8
  scbFile : BitVec 1
  scbReg : BitVec 5
  eng : EngRegs
  doneCnt : Vector Nat 6
  faults : List EngFault
  asyncs : List Trap
  join : Option OpenJoin
  verPsel : BitVec 8
  tokSeq : BitVec 32
  wsWver : BitVec 16
  test : TestStatus
  gbars : Nat
  barOpen : Nat
  atBar : Bool
  wsAct : Tbl Nat
  wsPre : Tbl Nat
  race : Race
  forecast : Option Forecast
  task : Option Task
  asleep : Bool
  yielded : Bool
  preempt : Preempt
  rowsOwed : List (Nat × Nat)
  readyAt : Nat
  lastIssue : Nat
  waitFrom : Option Nat
  blocked : Bool
  ending : Ending
  recompute : Option (BitVec 5 × Nat)
  deriving DecidableEq, Repr

/-- One entry of a chain queue (R170): the tile, its descriptor, its context. -/
structure ChainEntry where
  id : Nat
  ctx : Nat
  fmt : BitVec 4
  ext : Nat × Nat × Nat × Nat
  data : List (BitVec 32)
  filled : Bool
  err : Bool
  claimed : Bool
  deriving DecidableEq, Repr

/-- A collective transfer that waits in receive staging (R331, R334); `node` is the module it comes from, where that is told
(R342). -/
structure Transfer where
  sender : Nat
  chunk : Nat
  digest : BitVec 32
  data : List Byte
  node : Option Nat := none
  deriving DecidableEq, Repr

/-- One core (R285, R39, R170, R266, R211, R331, R390, R191); `fetched` is its fetch buffers, words by location
(R273). -/
structure Core where
  holder : Option Nat
  since : Nat
  chain : Vector (List ChainEntry) 3
  chunks : Vector Nat 4
  recCache : Tbl (BitVec 512)
  rots : Nat
  staging : List Transfer
  pair : Option (BitVec 4 × BitVec 4 × BitVec 2)
  fetched : Tbl (BitVec 32)
  drained : Bool
  drains : Nat
  idleFrom : Nat
  prefer : Option Nat
  deriving DecidableEq, Repr

/-- A weight-store bank (R234, R238): the open row and its owner, when it was last refreshed, in
tenths of a cycle of the 2.1 GHz clock, and the row its next refresh begins at. -/
structure Bank where
  open_ : Option (Nat × Nat)
  refreshed : Nat
  nextRow : Nat
  deriving DecidableEq, Repr

/-- The weight-store side of a column beyond its banks (R232, R350 to R352): guard count, retired
weight-store buses by (interface, bus), those whose banks the map in force leaves out, the mask of partial-sum
bundles retired by interface, map pending, no folding any more. -/
structure Column where
  guard : BitVec 32
  wsBuses : List (Nat × Nat)
  applied : List (Nat × Nat)
  bundles : Tbl Nat
  pend : Bool
  noFold : Bool
  deriving DecidableEq, Repr

/-- An in-field test of a cube (R390). -/
structure FieldTest where
  core : Nat
  logical : BitVec 8
  prio : Nat
  running : Option Nat
  deriving DecidableEq, Repr

/-- A telemetry record (R366). -/
structure Record where
  kind : Nat
  die : Nat
  time : Nat
  pavg : Nat := 0
  ppeak : Nat := 0
  tmax : Nat := 0
  vmin : Nat := 0
  droop : Nat := 0
  fset : Nat := 0
  gstep : Nat := 0
  col : Nat := 0
  evt : Nat := 0
  bus : Nat := 0
  deriving DecidableEq, Repr

/-- One cube: its core map, weight-store regions, spillway, power, governor, stack and test state. `sensors` holds the
latest reading of each thermal sensor, numbered 4 × die + its place, in quarters of a degree, `peaks` each die's hottest
reading since the last telemetry sample, `hot` that one has reached 115 °C (R359); `episodes` counts the stretches since that
sample and `samples` holds the last four of each die (R365, R366); `elevators` says of a retired elevator when it was retired
and whether every table has lost it (R353). -/
structure Cube where
  cmap : Tbl (Option Nat)
  names : Tbl Nat
  rga : Vector Word 16
  rgb : Vector Word 16
  spwCount : BitVec 32
  didtLimit : BitVec 16
  istep : BitVec 16
  starts : List (Nat × Nat)
  fcast : Word
  govChg : BitVec 32
  govStep : Nat
  govHist : List (Nat × Nat)
  govTlim : BitVec 8
  govPlim : BitVec 16
  calm : Nat
  proposedAt : Nat
  govWindow : Nat
  droop : Bool
  failedDies : List Nat
  withdrawn : Bool
  unused : Nat
  sensors : Tbl Int
  peaks : Tbl Int
  hot : Bool
  episodes : Nat
  samples : Tbl (List Record)
  testEn : Bool
  testPeriod : BitVec 8
  testRuns : BitVec 16
  testAborts : BitVec 16
  testFails : BitVec 16
  busRun : Option (Nat × Bool)
  busNext : Nat
  busAt : Nat
  fieldTest : Option FieldTest
  elevators : Tbl (Nat × Bool)
  lastProgress : Nat
  deriving DecidableEq, Repr

/-- A clock region; `periods` is the running count of the periods completed over the last 1 µs (R355 to R357). -/
structure Region where
  stretch : BitVec 32
  bubble : BitVec 16
  droop : Bool
  periods : Nat
  deriving DecidableEq, Repr

/-- What a variable-latency write brings when it returns (R34, R47, R84, R92): `handle` is what an HLD read from a
location, `arrival` the status of a JARR that waits for its context's contributions (R301). -/
inductive LoadKind where
  | mem (loc size : Nat) (signed : Bool)
  | atomic (op : Nat) (loc size : Nat) (v cmp : Word)
  | value (v : Handle)
  | handle (v : Handle) (loc : Nat)
  | arrival
  deriving DecidableEq, Repr

/-- A variable-latency write not yet returned (R34); `note` is the interval number of an atomic on a checked page
(R275), `born` the step of the machine in which it issued. -/
structure PendLoad where
  id : Nat
  ctx : Nat
  file : RegFile
  reg : BitVec 5
  kind : LoadKind
  addr : Word
  issued : Nat
  lost : Bool
  note : Option Nat := none
  born : Nat := 0
  deriving DecidableEq, Repr

/-- A global store issued and not yet performed at package scope (R249): bytes of `data` from `loc`. `level` is the
scope at which it is performed, 0 to 3 (R247), `seen` the other contexts that have read it (R251), `note` the
interval number of a store to a checked page (R275), `born` the step of the machine in which it issued. -/
structure PendStore where
  id : Nat
  ctx : Nat
  addr : Word
  loc : Nat
  size : Nat
  data : Nat
  fabric : Option Nat
  level : Nat := 0
  seen : List Nat := []
  note : Option Nat := none
  born : Nat := 0
  deriving DecidableEq, Repr

/-- A layout record's tiling (R263). -/
structure Layout where
  t0 : Nat
  t1 : Nat
  tstr0 : Nat
  tstr1 : Nat
  byDim1 : Bool
  deriving DecidableEq, Repr

/-- A handle operand as issue took it: the handle, the address its element mapping starts at (BASE, or a
slot of a ring), the core whose scratchpad it names, its layout, and where each 256 KiB page of its global
bytes lies (R19, R22, R26, R222). -/
structure Opnd where
  h : Handle
  base : Word
  core : Nat
  lay : Option Layout
  pages : List (Nat × Nat)
  deriving DecidableEq, Repr

def Opnd.none : Opnd := ⟨0, 0, 0, Option.none, []⟩

/-- A slot that an operation pops: the stream binding if the handle is bound, where the ring's control word
lies, and the sequence number (R222, R223, R225). -/
structure Pop where
  binding : Option Nat
  loc : Nat
  seq : BitVec 32
  deriving DecidableEq, Repr

/-- An engine operation in flight, with everything it was issued with (R22, R39). `engine` is a number of
R22, 6 for the weight store's channel, 8 for a join contribution. Operands by role: 0 the c field, 1 a,
2 b, 3 the paired destination of UPST, 4, 5 and 6 the scale handles of c, a and b, 16 + k the k-th further
receiver of a copy. -/
structure Op where
  id : Nat
  ctx : Nat
  engine : Nat
  instr : Instr
  args : Tbl Opnd
  val : Word
  aux : Word
  regs : EngRegs
  ranges : List (Nat × Nat)
  pops : List Pop
  intv : Nat
  entry : Option Nat
  chainIn : Option Nat
  chainOut : Option Nat
  copyId : BitVec 32
  recvs : List Nat
  slot : Option (Nat × BitVec 32)
  round : Nat
  iter : Nat
  data : Option (List Nat)
  landed : Nat
  started : Bool
  left : Nat
  issued : Nat
  asked : Nat
  broken : Bool
  born : Nat
  deriving DecidableEq, Repr

/-- A transaction of an operation that has lost packets in a retired elevator: how often it has been retried, when it was last
sent, and whether its packets are lost (R353). -/
structure Retry where
  count : Nat
  sent : Nat
  lost : Bool
  deriving DecidableEq, Repr

/-- What a collective needs of the join it names (R338): RULE, Q, the weights, SUB, and where the lines of the
record lie. -/
structure CollJoin where
  rule : Nat
  q : Nat
  weights : List (BitVec 32)
  sub : Word
  lines : List Nat
  deriving DecidableEq, Repr

/-- A collective in flight, or one of the last 16 of a context (R330 to R339): its record, where the pages of
a global source lie, the copy engine registers of its issue (R22), its membership and rank, how many iterations have sent, the turns (chunk, sender) that
landed and those missed, the transfers (chunk, receiver) not yet acknowledged, the ranks evicted; after a switch to
the fallback schedule, the first record and the turns that had landed under it; the chunk boundary agreed for a
switch that is to come; the bytes, by address, that it reads
and writes; the step of the machine in which it issued. -/
structure Coll where
  id : Nat
  ctx : Nat
  ident : BitVec 32
  record : Nat
  pages : List (Nat × Nat)
  regs : CopyRegs
  join : Option CollJoin
  members : List Nat
  rank : Nat
  sent : Nat
  folded : List (Nat × Nat)
  missed : List (Nat × Nat)
  unacked : List (Nat × Nat)
  evicted : List Nat
  before : Option (Nat × List (Nat × Nat))
  switchAt : Option Nat
  done : Bool
  fault : BitVec 8
  silent : Bool
  ranges : List (Nat × Nat)
  srcs : List (Word × Nat)
  dests : List (Word × Nat)
  born : Nat
  deriving DecidableEq, Repr

/-- A launch in progress (R281 to R283, R236, R298). `begun` counts launches in the order they began, 0 where
it has not; `queue` is the number of its queue and where its entry lies (R374); `consumer` is the tensor record a producer recomputes, by its location. -/
structure Launch where
  id : Nat
  record : Word
  queue : Option (Nat × Nat)
  polder : Nat
  asid : Nat
  prio : Nat
  fdom : Nat
  version : BitVec 16
  code : Word
  pclass : Nat
  super : Bool
  group : Nat
  tasks : Nat
  spad : Nat
  sporg : Nat
  acc0 : Nat
  accn : Nat
  sched : Word
  img : Word
  imgn : Nat
  dmap : Word
  dmapn : Nat
  addrs : List Word
  done : Option Word
  nextGroup : Nat
  ended : Nat
  failed : Bool
  depth : Nat
  consumer : Option Nat
  begun : Nat
  deriving DecidableEq, Repr

/-- A saved context of a pre-empted group: its core context number, its image, its scratchpad
allotment and accumulator tiles, its open rows, chain entries and cancelled operations (R288, R235). -/
structure SavedCtx where
  place : Nat
  image : Ctx
  spad : List (Nat × Byte)
  rows : List (Nat × Nat)
  chain : List (Nat × ChainEntry)
  copies : List Op
  colls : List Coll
  deriving DecidableEq, Repr

/-- A saved group (R287, R288); `rings` lists rings in its scratchpads whose TAIL is to advance once they are back: a killed
member's cancelled copies count as filled there (R223, R303). -/
structure SavedGroup where
  launch : Nat
  group : Nat
  ctxs : List SavedCtx
  rings : List Nat := []
  deriving DecidableEq, Repr

/-- A slot of a ring that a copy claimed and, since it faulted, never fills: the group that the copy belongs to, as launch
and group, where the control word lies, and the sequence number (R223). -/
structure LostSlot where
  team : Nat × Nat
  loc : Nat
  seq : BitVec 32
  deriving DecidableEq, Repr

/-- A launch queue's registers (R372). -/
structure Queue where
  base : Word
  asid : BitVec 12
  size : BitVec 4
  ien : Bool
  loc : Bool
  en : Bool
  tail : BitVec 16
  head : BitVec 16
  deriving DecidableEq, Repr

/-- An entry that is held back: its queue, where it lies, and the address space of its record (R372, R377). -/
structure HeldEntry where
  queue : Nat
  at_ : Nat
  asid : Nat
  deriving DecidableEq, Repr

/-- An announced change of a member's limit, not yet in force (R341): whose, value, instant, whether it
is a raise, the members that still have to acknowledge or grant it. -/
structure Announce where
  node : Nat
  limit : Nat
  at_ : Nat
  raise : Bool
  waiting : List Nat
  deriving DecidableEq, Repr

/-- A grant-table entry (R325): offset range, physical base, permissions, key slot. -/
structure Grant where
  lo : Nat
  hi : Nat
  base : Nat
  read : Bool
  write : Bool
  key : Option Nat
  deriving DecidableEq, Repr

/-- The fabric and the weir of the module (R324 to R344). `unacked` holds its lowerings that some members have not
acknowledged; `admits` the modules that ask to join, each with its limit and the members that have not acknowledged
it; `acks` the limits and SEQs acknowledged to this module as it joins or forms a group, and `forming` the nodes of a
group being formed. `known` holds the changes that other members have announced so far, `early` what came before the message it
answers: members that have acknowledged a module which has not asked yet, and grants (proposer, member, limit, instant) of raises
not proposed yet. -/
structure Fabric where
  node : Nat
  members : List Nat
  lost : BitVec 32
  grants : Tbl (List Grant)
  limits : Tbl Nat
  request : Nat
  floor : Bool
  announces : List Announce
  seq : BitVec 32
  evict : BitVec 16
  late : BitVec 16
  heard : Tbl Nat
  sentAt : Nat
  downLinks : List (Nat × Nat)
  leaving : Bool
  joining : Bool
  unacked : List Announce
  admits : Tbl (Nat × List Nat)
  acks : Tbl (Nat × Nat)
  forming : Option (List Nat)
  known : List Announce
  early : Tbl (List Nat)
  grantsEarly : List (Nat × Nat × Nat × Nat)
  deriving DecidableEq, Repr

/-- One entry of the error log (R387). -/
structure ErrEntry where
  index : BitVec 32
  code : Nat
  time : Nat
  addr : Word
  unit : Nat
  core : Nat
  ctx : Nat
  sig : Word
  deriving DecidableEq, Repr

/-- What leaves the module toward the host, the Aqkin port and the fabric. -/
inductive Outgoing where
  | msix (vector : Nat)
  | reply (code status : Nat) (payload : List Byte)
  | hostData (data : Nat)
  | atomicRequest (id op offset size : Nat) (data cmp : Word)
  | aqkin (code status : Nat) (payload : List Byte)
  | transfer (dest sender chunk : Nat) (digest : BitVec 32) (data : List Byte)
  | acknowledge (dest sender chunk : Nat)
  | scheduleSwitch (core : Nat) (digest : BitVec 32) (chunk : Nat)
  | heartbeat (seq limit : Nat) (members : List Nat)
  | lowering (seq limit at_ : Nat)
  | proposal (limit at_ : Nat)
  | grant (node limit at_ : Nat)
  | lowered (node limit at_ : Nat)
  | joinRequest (limit : Nat)
  | joinAcknowledgement (joiner limit seq : Nat) (members : List Nat)
  | formRequest (limit seq : Nat) (nodes : List Nat)
  | publication (region : BitVec 8) (ver : BitVec 16)
  | windowReply (node : Nat) (data : Word)
  | windowRequest (node op offset size : Nat) (data cmp : Word)
  | departure
  deriving DecidableEq, Repr

/-- A Rontal image slot of package flash: its rollback number, the image and its signature (R380). -/
structure Image where
  rollback : Nat
  body : List Byte
  sig : BitVec 768
  deriving DecidableEq, Repr

/-- Rontal and the management side (R378 to R391). `cold` says that the last start was a cold one, `linkUp` that its host
link trained, `tier2Down` that the second tier did not (R379); `identity` is the identity key, none where its
derivation failed, and `chain` the certificate chain in flash (R381); `pending` is the MSI-X pending-bit array (R369). -/
structure Rontal where
  stage : Nat
  halted : Bool
  state : BitVec 3
  hostErr : Bool
  fdstat : BitVec 256
  winBase : BitVec 16
  winKey : BitVec 13
  winEnc : Bool
  busy : Bool
  keys : Tbl (BitVec 256)
  /-- Slots that have held a key since the cold start (R383). -/
  worn : List Nat
  session : Option (BitVec 256)
  measures : Vector (BitVec 384) 8
  errors : List ErrEntry
  errCount : BitVec 32
  dump : Option (List Byte)
  provNode : BitVec 8
  provSig : BitVec 768
  images : Tbl Image
  rollback : Nat
  persist : List (Nat × BitVec 16)
  deviceSig : BitVec 768
  flashMap : Tbl (Option Nat)
  timeStart : Word
  port : List (BitVec 256)
  portLost : Nat
  mailbox : Tbl Byte
  msix : Tbl Word
  pending : BitVec 64
  request : BitVec 3
  provBody : List Byte
  cold : Bool
  linkUp : Bool
  tier2Down : Bool
  identity : Option (BitVec 384)
  chain : List Byte
  deriving DecidableEq, Repr

/-- Straps of the part: its cubes (2 in an HK-2, 1 in an HK-1) and which optional units it has (R2, R6, R7, R388). Every
figure that counts cubes, columns, cores or stacks follows `cubes`. -/
structure Part where
  cubes : Nat
  fabric : Bool
  tier2 : Bool
  race : Bool
  cplx : Bool
  deriving DecidableEq, Repr

/-- The UALink ports of the part, where it has any: 16 on an HK-2, 8 on an HK-1 (R2, R6). -/
def Part.ports (p : Part) : Nat := if p.fabric then 8 * p.cubes else 0

/-- What the last executed word did: it ran, took a precise trap, or waits (R392). -/
inductive Mark where
  | ran
  | trapped (t : Trap)
  | waits
  deriving DecidableEq, Repr

/-- What may come from outside: the host, the Aqkin port, the fabric, and the physical events of the stack (R4, R10, R326,
R341 to R343, R356, R359, R374, R378, R384). The parameters are those of the event's own constructor of Instr; a
register write by the host is one of BAR0. -/
inductive Input where
  | doorbell (q : BitVec 5) (tail : BitVec 16)
  | registerWrite (n : Nat) (v : BitVec 64)
  | faultDomainAcknowledge (fdom : BitVec 8)
  | hostWindowAccess (op : BitVec 8) (offset size data : Nat) (cmp : BitVec 64)
  | hostAtomicFailure (id : Nat)
  | status
  | reset (kind : BitVec 2)
  | telemetry (n : Nat)
  | dumpRead (offset len : Nat)
  | dumpClear
  | configRead
  | configWrite (node : BitVec 8) (slot : Nat) (rollback : Nat) (body : List (BitVec 8)) (sig : BitVec 768)
  | cmapRestore (cube : Nat) (logical : BitVec 7)
  | timeset (v : BitVec 64)
  | errlogRead (index : BitVec 32) (n : Nat)
  | getMeasurements (nonce : BitVec 256)
  | spdmSecuredSession
  | fabricWindowAccess (node op : BitVec 8) (offset size : Nat) (data cmp : BitVec 64)
  | linkFailure (port node : Nat)
  | versionPublication (node : Nat) (region : BitVec 8) (ver : BitVec 16)
  | loweringAnnouncement (node limit at_ : Nat)
  | raiseProposal (node limit at_ : Nat)
  | raiseGrant (node : Nat)
  | raiseGrantOf (proposer node limit at_ : Nat)
  | loweringAcknowledgement (node limit at_ : Nat)
  | grantTable (node : Nat) (entries : List Grant)
  | joinAcknowledgement (node joiner limit seq : Nat) (members : List Nat)
  | formRequest (node limit seq : Nat) (nodes : List Nat)
  | heartbeat (node seq limit : Nat) (members : List Nat)
  | joinRequest (node limit : Nat)
  | departure (node : Nat)
  | collectiveTransferArrival (node : Option Nat) (core sender chunk : Nat) (digest : BitVec 32) (data : List (BitVec 8))
  | collectiveAcknowledgement (core receiver chunk : Nat)
  | scheduleSwitch (core : Nat) (digest : BitVec 32) (chunk : Nat)
  | sensorReading (cube sensor : Nat) (quarters : Int)
  | periodCount (region n : Nat)
  | clockStretch (region : Nat)
  | crossingBubble (region : Nat)
  | busTestCompletion (cube : Nat) (pass demand : Bool)
  | busError (cube place id : Nat)
  | fatalEvent (code : Nat) (addr : BitVec 64)
  | coldStart (failing : List StartFailure)
  deriving DecidableEq, Repr

/-- The whole module. -/
structure State where
  mem : List Host.Cell
  poison : List Nat
  ctxs : Tbl Ctx
  cores : Tbl Core
  banks : Tbl Bank
  columns : Tbl Column
  cubes : Tbl Cube
  regions : Tbl Region
  loads : List PendLoad
  stores : List PendStore
  ops : List Op
  unfilled : List LostSlot
  colls : List Coll
  launches : List Launch
  waiting : List Nat
  saved : List SavedGroup
  heldLaunches : List HeldEntry
  queues : Tbl Queue
  doorbells : List (Nat × BitVec 16)
  pubs : Tbl (BitVec 16)
  pdl : BitVec 32
  comThr : BitVec 8
  intervals : BitVec 32
  raceShadow : Tbl Shadow
  raceLogs : Tbl Nat
  gaugeScopes : Tbl Nat
  retries : Tbl Retry
  fabric : Fabric
  telBase : Word
  telSize : BitVec 4
  telWidx : BitVec 16
  telRidx : BitVec 16
  telLost : BitVec 16
  telAt : Nat
  telAggAt : Nat
  fcastAt : Nat
  windowAt : Nat
  rontal : Rontal
  part : Part
  out : List Outgoing
  time : Nat
  cycles : Nat
  cur : Nat
  mark : Mark
  issue : Nat
  inputs : List Input
  tick : Nat
  seq : Nat
  deriving DecidableEq, Repr

/-- Why the model stops. -/
inductive Fault where
  /-- Raised by `step` where State.cur or a chosen move names a context number at or above
  96 × 4 × cubes: no such context exists (R2). Safe: no state the machine reaches has it. -/
  | noSuchContext
  deriving DecidableEq, Repr

/-- What the model declines. -/
inductive Refusal where
  /-- An instruction that has no meaning yet. Raised by `exec` alone, by the instruction's mnemonic.
  Safe: nothing is claimed of it. -/
  | notModelled (mnemonic : String)
  deriving DecidableEq, Repr

/-! Values at reset. -/

def Binding.reset : Binding := ⟨0, 0, 0, 0, false⟩
def Loop.reset : Loop := ⟨false, 0, 0, 0, 0, 0, 0, 0, 0, []⟩
def CubeRegs.reset : CubeRegs := ⟨0, 0xFF, 0, 0, 0, 0, Vector.replicate 16 0x022⟩
def Latch.reset : Latch := ⟨false, false, 0, 0, 0, []⟩
def CopyRegs.reset : CopyRegs := ⟨0xFF00, 0, 0, 0, 0, 0, 0, 0, false, 0, 0, [], []⟩
def EngRegs.reset : EngRegs := ⟨CubeRegs.reset, Latch.reset, 0, 0, 0, 0, CopyRegs.reset, 0⟩
def TrapRegs.reset : TrapRegs := ⟨⟨0, 0, 0, false, 0, 0, 0, none⟩, 0, 0, 0, 0, 0, .user, false, 0⟩
def Race.reset : Race := ⟨[], (0, 0), false, [], 0⟩

/-- A context that holds no task: the values R14 gives a context, and the reset values of its registers
(R24, R293, R205; log 2). -/
def Ctx.reset : Ctx where
  pc := 0
  regs := Vector.replicate 32 0
  hregs := Vector.replicate 32 0
  binds := Vector.replicate 8 Binding.reset
  loops := Vector.replicate 6 Loop.reset
  preds := Vector.replicate 8 (BitVec.allOnes 1024)
  mode := .user
  shadow := []
  bypass := []
  owed := 0
  edges := []
  after := none
  safe := none
  killPoint := false
  xfer := none
  busyS := 0
  busyH := 0
  busyErr := []
  held := none
  inh := false
  trp := TrapRegs.reset
  step := 0
  loss := Vector.replicate 4 0
  scbEn := false
  scbSkip := false
  scbLeft := 0
  scbFile := 0
  scbReg := 0
  eng := EngRegs.reset
  doneCnt := Vector.replicate 6 0
  faults := []
  asyncs := []
  join := none
  verPsel := 0
  tokSeq := 0
  wsWver := 0
  test := ⟨0, 0, 0, 0⟩
  gbars := 0
  barOpen := 0
  atBar := false
  wsAct := []
  wsPre := []
  race := Race.reset
  forecast := none
  task := none
  asleep := false
  yielded := false
  preempt := .none
  rowsOwed := []
  readyAt := 0
  lastIssue := 0
  waitFrom := none
  blocked := false
  ending := .none
  recompute := none

def Core.reset : Core :=
  ⟨none, 0, Vector.replicate 3 [], Vector.replicate 4 0, [], 0, [], none, [], false, 0, 0, none⟩
def Bank.reset : Bank := ⟨none, 0, 0⟩
def Column.reset : Column := ⟨0, [], [], [], false, false⟩

/-- A cube after a start in which every die passed (R346, R345, R232, R289). -/
def Cube.reset : Cube where
  cmap := []
  names := []
  rga := Vector.replicate 16 0
  rgb := Vector.replicate 16 0
  spwCount := 0
  didtLimit := 0
  istep := 208
  starts := []
  fcast := 0
  govChg := 0
  govStep := 0
  govHist := []
  govTlim := 95
  govPlim := 1500
  calm := 0
  proposedAt := 0
  govWindow := 0
  droop := false
  failedDies := []
  withdrawn := false
  unused := 8
  sensors := []
  peaks := []
  hot := false
  episodes := 0
  samples := []
  testEn := true
  testPeriod := 10
  testRuns := 0
  testAborts := 0
  testFails := 0
  busRun := none
  busNext := 0
  busAt := 0
  fieldTest := none
  elevators := []
  lastProgress := 0

def Region.reset : Region := ⟨0, 0, false, 2100⟩
def Queue.reset : Queue := ⟨0, 0, 0, false, false, false, 0, 0⟩
def Fabric.reset : Fabric :=
  ⟨0, [0], 0, [], [], 2100, false, [], 0, 0, 0, [], 0, [], false, false, [], [], [], none, [], [], []⟩

/-- Rontal at the end of step 9 of a cold start: ready, slot 0 derived (R379, R383). -/
def Rontal.reset : Rontal where
  stage := 9
  halted := false
  state := 2
  hostErr := false
  fdstat := 0
  winBase := 0
  winKey := 0
  winEnc := false
  busy := false
  keys := [(0, 0)]
  worn := []
  session := none
  measures := Vector.replicate 8 0
  errors := []
  errCount := 0
  dump := none
  provNode := 0
  provSig := 0
  images := [(0, ⟨0, [], 0⟩)]
  rollback := 0
  persist := []
  deviceSig := 0
  flashMap := []
  timeStart := 0
  port := []
  portLost := 0
  mailbox := []
  msix := []
  pending := 0
  request := 0
  provBody := []
  cold := true
  linkUp := true
  tier2Down := false
  identity := some 0
  chain := []

/-- The HK-2 part: both cubes and every optional unit (R2, R7). -/
def Part.hk2 : Part := ⟨2, true, true, true, true⟩

/-- The HK-1 part: one cube with its own four stacks and base die, no die-to-die link, and where it has them 8 UALink ports
and a second tier of 1,536 GB (R6). -/
def Part.hk1 : Part := ⟨1, true, true, true, true⟩

/-- The module right after a cold start (R379): every queue disabled, no task or launch, the timebase 0
(R381), the weight store all zero, nothing listed in memory (log 1), every register at the value its
field map gives, or where none is given at the value log 2 names. -/
def State.reset : State where
  mem := []
  poison := []
  ctxs := []
  cores := []
  banks := []
  columns := []
  cubes := []
  regions := []
  loads := []
  stores := []
  ops := []
  unfilled := []
  colls := []
  launches := []
  waiting := []
  saved := []
  heldLaunches := []
  queues := []
  doorbells := []
  pubs := []
  pdl := 50000
  comThr := 32
  intervals := 0
  raceShadow := []
  raceLogs := []
  gaugeScopes := []
  retries := []
  fabric := Fabric.reset
  telBase := 0
  telSize := 0
  telWidx := 0
  telRidx := 0
  telLost := 0
  telAt := 0
  telAggAt := 0
  fcastAt := 0
  windowAt := 0
  rontal := Rontal.reset
  part := Part.hk2
  out := []
  time := 0
  cycles := 0
  cur := 0
  mark := .ran
  issue := 0
  inputs := []
  tick := 0
  seq := 0

end Sys2Proof.Machine
end

