-- ==== Sys2Proof/Machine/Mem.lean ====
section
/-! DEFINITION. Tables keyed by numbers, and the byte memory: one list holds global memory by physical
address, the scratchpads and the weight store (State.mem). An unlisted byte reads 0 (log 1). -/

namespace Sys2Proof.Machine

/-- The row of a key. -/
def tblFind {α : Type} : Tbl α → Nat → Option α
  | [], _ => none
  | (k, v) :: r, i => if k = i then some v else tblFind r i

/-- The row of a key, or what an absent row reads as. -/
def tblGet {α : Type} (t : Tbl α) (i : Nat) (d : α) : α := (tblFind t i).getD d

/-- Drop every row of a key. -/
def tblDel {α : Type} : Tbl α → Nat → Tbl α
  | [], _ => []
  | (k, v) :: r, i => if k = i then tblDel r i else (k, v) :: tblDel r i

/-- Insert a row before the first row of a greater key. -/
def tblIns {α : Type} : Tbl α → Nat → α → Tbl α
  | [], i, v => [(i, v)]
  | (k, w) :: r, i, v => if i < k then (i, v) :: (k, w) :: r else (k, w) :: tblIns r i v

/-- Set the row of a key. -/
def tblSet {α : Type} (t : Tbl α) (i : Nat) (v : α) : Tbl α := tblIns (tblDel t i) i v

/-- The byte at a location. -/
def memGet (m : List Host.Cell) (a : Nat) : Byte := tblGet m a 0#8

/-- Store one byte; a stored 0 leaves no entry, so that equal memories are equal lists. -/
def memSet (m : List Host.Cell) (a : Nat) (v : Byte) : List Host.Cell :=
  if v = 0#8 then tblDel m a else tblSet m a v

/-- Addresses strictly rise and no entry holds what an unlisted address reads as. -/
def memWf : List Host.Cell → Bool
  | [] => true
  | [(_, v)] => v != 0#8
  | (a, v) :: (b, w) :: r => v != 0#8 && decide (a < b) && memWf ((b, w) :: r)

/-- The n bytes from a, little-endian (R8). -/
def memRead (m : List Host.Cell) (a : Nat) : Nat → Nat
  | 0 => 0
  | n + 1 => (memGet m a).toNat + 256 * memRead m (a + 1) n

/-- Store the low n bytes of v from a, little-endian (R8). -/
def memWrite (m : List Host.Cell) (a : Nat) : Nat → Nat → List Host.Cell
  | 0, _ => m
  | n + 1, v => memWrite (memSet m a (BitVec.ofNat 8 v)) (a + 1) n (v / 256)

/-- The n bytes from a. -/
def memBytes (m : List Host.Cell) (a : Nat) : Nat → List Byte
  | 0 => []
  | n + 1 => memGet m a :: memBytes m (a + 1) n

/-- Store bytes from a. -/
def memPut (m : List Host.Cell) (a : Nat) : List Byte → List Host.Cell
  | [] => m
  | b :: r => memPut (memSet m a b) (a + 1) r

/-- Bytes as one little-endian number. -/
def leNat : List Byte → Nat
  | [] => 0
  | b :: r => b.toNat + 256 * leNat r

/-- The n low bytes of a number, little-endian. -/
def leBytes : Nat → Nat → List Byte
  | 0, _ => []
  | n + 1, v => BitVec.ofNat 8 v :: leBytes n (v / 256)

/-- Bits hi..lo of a number. -/
def bitsOf (v hi lo : Nat) : Nat := v / 2 ^ lo % 2 ^ (hi + 1 - lo)

/-- Two byte ranges [a, a + n) and [b, b + m) share a byte. -/
def overlaps (a n b m : Nat) : Bool := decide (a < b + m) && decide (b < a + n)

/-! Locations: where each byte of the machine lies in State.mem. -/

def spadBase : Nat := 2 ^ 52
def wsBase : Nat := 2 ^ 53

/-- The location of scratchpad byte `local29` (AREA, LAYER, OFFSET: bits 29:0 of a local address, R25) of
a core. -/
def spadLoc (core loc : Nat) : Nat := spadBase + core * 2 ^ 30 + loc % 2 ^ 30

/-- A location lies in a scratchpad. -/
def isSpad (l : Nat) : Bool := decide (spadBase ≤ l) && decide (l < wsBase)

/-- The location of a weight-store byte: layer, bank, row and byte of a core's column (R233). -/
def wsLoc (core layer bank row byte : Nat) : Nat :=
  wsBase + (((core * 8 + layer) * 16 + bank) * 256 + row) * 4096 + byte

/-- What led from one memory to another, done to a third: the bytes in which the first two differ. -/
def memOverlay (old new cur : List Host.Cell) : List Host.Cell :=
  if old = new then cur
  else ((old ++ new).map (·.1)).foldl (fun m a => if memGet old a = memGet new a then m else memSet m a (memGet new a)) cur

/-- Clear a run of bytes: n steps of one byte each would visit far more bytes than are listed, so the
listed ones in [a, a + n) are dropped. -/
def memZero (m : List Host.Cell) (a n : Nat) : List Host.Cell :=
  m.filter (fun c => decide (c.1 < a) || decide (a + n ≤ c.1))

end Sys2Proof.Machine
end

