-- ==== Sys2Proof/Machine/Access.lean ====
section
/-! DEFINITION. The rows of the state by number, the numbering of cores and contexts, register reads and
writes (spec 01 R15, R32 to R36), and the causes of traps (spec 09 R294, R295). -/

namespace Sys2Proof.Machine

/-! Rows of the state. -/

def State.ctx (s : State) (c : Nat) : Ctx := tblGet s.ctxs c Ctx.reset
def State.core (s : State) (k : Nat) : Core := tblGet s.cores k Core.reset
def State.bank (s : State) (b : Nat) : Bank := tblGet s.banks b Bank.reset
def State.column (s : State) (k : Nat) : Column := tblGet s.columns k Column.reset
def State.cube (s : State) (q : Nat) : Cube := tblGet s.cubes q Cube.reset
def State.region (s : State) (r : Nat) : Region := tblGet s.regions r Region.reset
/-- A launch queue; queue registers start at 0 (R372). -/
def State.queue (s : State) (q : Nat) : Queue := tblGet s.queues q Queue.reset

def State.setCtx (s : State) (c : Nat) (x : Ctx) : State := { s with ctxs := tblSet s.ctxs c x }
def State.setCore (s : State) (k : Nat) (x : Core) : State := { s with cores := tblSet s.cores k x }
def State.setBank (s : State) (b : Nat) (x : Bank) : State := { s with banks := tblSet s.banks b x }
def State.setColumn (s : State) (k : Nat) (x : Column) : State := { s with columns := tblSet s.columns k x }
def State.setCube (s : State) (q : Nat) (x : Cube) : State := { s with cubes := tblSet s.cubes q x }
def State.setRegion (s : State) (r : Nat) (x : Region) : State := { s with regions := tblSet s.regions r x }
def State.setQueue (s : State) (q : Nat) (x : Queue) : State := { s with queues := tblSet s.queues q x }

def State.modCtx (s : State) (c : Nat) (f : Ctx → Ctx) : State := s.setCtx c (f (s.ctx c))
def State.modCore (s : State) (k : Nat) (f : Core → Core) : State := s.setCore k (f (s.core k))
def State.modColumn (s : State) (k : Nat) (f : Column → Column) : State := s.setColumn k (f (s.column k))
def State.modCube (s : State) (q : Nat) (f : Cube → Cube) : State := s.setCube q (f (s.cube q))
def State.modRegion (s : State) (r : Nat) (f : Region → Region) : State := s.setRegion r (f (s.region r))

/-- The context that executes. -/
def State.me (s : State) : Ctx := s.ctx s.cur
/-- Change the context that executes. -/
def State.modMe (s : State) (f : Ctx → Ctx) : State := s.modCtx s.cur f

/-! Numbering: context c is context c mod 4 of core c div 4; core k is physical core k mod 96 of cube
k div 96; four consecutive cores form a cluster (R2, R24). -/

def coreOf (c : Nat) : Nat := c / 4
def cubeOfCore (k : Nat) : Nat := k / 96
def cubeOf (c : Nat) : Nat := cubeOfCore (coreOf c)
/-- The first core of a core's cluster. -/
def clusterBase (k : Nat) : Nat := k / 4 * 4
/-- The core at physical position p of the cluster of core k (R26). -/
def clusterCore (k p : Nat) : Nat := clusterBase k + p
/-- How many contexts the part has (R2, R6). -/
def State.numCtxs (s : State) : Nat := s.part.cubes * 384

/-- The logical core a physical core is known by: the name it had before a removal (R24). -/
def State.logical (s : State) (k : Nat) : Nat := tblGet (s.cube (cubeOfCore k)).names (k % 96) (k % 96)

/-- The logical number by which a context knows its core: that of its task's placement (R24, R391). -/
def State.coreName (s : State) (c : Nat) : Nat := ((s.ctx c).task.map (·.core)).getD (s.logical (coreOf c))

/-- The physical core that the map holds under a logical number, if any (R118). -/
def State.mapped (s : State) (q l : Nat) : Option Nat := tblGet (s.cube q).cmap l (some l)

/-- CTX.ID of a context (R24). -/
def State.ctxId (s : State) (c : Nat) : Nat :=
  let k := coreOf c
  k % 4 * 2 ^ 16 + cubeOfCore k * 2 ^ 15 + s.coreName c % 128 * 2 ^ 8 + k % 96 / 4 * 8 + c % 4

/-- CTX.ID[15:0], by which locks, bindings and the race detector name a context (R24, R94). -/
def State.agent (s : State) (c : Nat) : Nat := s.ctxId c % 2 ^ 16

/-! Register files. -/

def vget {α : Type} (v : Vector α 32) (r : BitVec 5) : α := v[r.toNat]'r.isLt
def vset {α : Type} (v : Vector α 32) (r : BitVec 5) (x : α) : Vector α 32 := v.set r.toNat x r.isLt

/-- The live transient of a register, if any: one produced one to three steps ago (R35). -/
def Ctx.transient? (x : Ctx) (r : BitVec 5) : Option Word :=
  (x.bypass.find? (fun b => b.reg == r && decide (b.left ≤ 3))).map (·.val)

/-- What a bundle reads in a scalar register: 0 in s0, else a live transient, else the file (R15, R35). -/
def Ctx.sreg (x : Ctx) (r : BitVec 5) : Word :=
  if r = 0#5 then 0#64 else (x.transient? r).getD (vget x.regs r)

/-- What a bundle reads in a handle register (R17). -/
def Ctx.hreg (x : Ctx) (r : BitVec 5) : Handle := vget x.hregs r

/-- A handle with its reserved bits 0 (R10, R17). -/
def cleanHandle (h : Handle) : Handle := h &&& ~~~((7#256 <<< 253) ||| (7#256 <<< 245))

/-- Queue a scalar write that lands after `lat` steps; one to s0 is discarded (R15, R32, R33). -/
def Ctx.putS (x : Ctx) (r : BitVec 5) (v : Word) (lat : Nat) : Ctx :=
  if r = 0#5 then x else { x with shadow := x.shadow ++ [⟨RegFile.scalar, r, v.setWidth 256, lat⟩] }

/-- Queue a handle write that lands after `lat` steps (R32). -/
def Ctx.putH (x : Ctx) (r : BitVec 5) (v : Handle) (lat : Nat) : Ctx :=
  { x with shadow := x.shadow ++ [⟨RegFile.handle, r, v, lat⟩] }

/-- Produce a transient result; one to s0 is discarded (R35). -/
def Ctx.putT (x : Ctx) (r : BitVec 5) (v : Word) : Ctx :=
  if r = 0#5 then x else { x with bypass := x.bypass ++ [⟨r, v, 4⟩] }

/-- A scalar file write that lands: it drops a live transient of the register (R35). -/
def Ctx.landS (x : Ctx) (r : BitVec 5) (v : Word) : Ctx :=
  if r = 0#5 then x
  else { x with regs := vset x.regs r v, bypass := x.bypass.filter (fun b => !(b.reg == r)) }

/-- A handle file write that lands. -/
def Ctx.landH (x : Ctx) (r : BitVec 5) (v : Handle) : Ctx := { x with hregs := vset x.hregs r v }

/-- Land one queued write. -/
def Ctx.land (x : Ctx) (w : PendWrite) : Ctx :=
  match w.file with
  | .scalar => x.landS w.reg (w.val.setWidth 64)
  | .handle => x.landH w.reg w.val

/-- Keep of each register's transients the last one produced (R35). -/
def newest : List Bypass → List Bypass
  | [] => []
  | b :: r => if r.any (fun d => d.reg == b.reg) then newest r else b :: newest r

/-- Every pending entry of a context counts one step down (R30, R32, R35, R237). -/
def Ctx.countdown (x : Ctx) : Ctx :=
  { x with
    shadow := x.shadow.map (fun w => { w with left := w.left - 1 })
    bypass := x.bypass.map (fun b => { b with left := b.left - 1 })
    step := x.step + 1
    wsAct := x.wsAct.filterMap (fun p => if p.2 ≤ 1 then none else some (p.1, p.2 - 1))
    wsPre := x.wsPre.filterMap (fun p => if p.2 ≤ 1 then none else some (p.1, p.2 - 1)) }

/-- Queued writes whose count has run out land in the order they were queued (R32, R33). They drop the
transients that were live; those of the step itself become live after them (R35). -/
def Ctx.landDue (x : Ctx) : Ctx :=
  let fresh := x.bypass.filter (fun b => b.left == 3)
  let y := (x.shadow.filter (fun w => w.left == 0)).foldl Ctx.land
    { x with bypass := x.bypass.filter (fun b => b.left != 3) }
  { y with shadow := x.shadow.filter (fun w => w.left != 0), bypass := newest (y.bypass ++ fresh) }

/-- Transients whose count has run out go (R35). -/
def Ctx.expire (x : Ctx) : Ctx := { x with bypass := x.bypass.filter (fun b => b.left != 0) }

/-- One step of a context (R30, R32, R35). -/
def Ctx.tick (x : Ctx) : Ctx := x.countdown.landDue.expire

/-- The busy bit of a register (R34). -/
def Ctx.busy (x : Ctx) (f : RegFile) (r : BitVec 5) : Bool :=
  match f with
  | .scalar => x.busyS.getLsbD r.toNat
  | .handle => x.busyH.getLsbD r.toNat

/-- Set or clear a busy bit. -/
def Ctx.setBusy (x : Ctx) (f : RegFile) (r : BitVec 5) (on : Bool) : Ctx :=
  let m : BitVec 32 := 1#32 <<< r.toNat
  match f with
  | .scalar => { x with busyS := if on then x.busyS ||| m else x.busyS &&& ~~~m }
  | .handle => { x with busyH := if on then x.busyH ||| m else x.busyH &&& ~~~m }

/-- What issue of a variable-latency write does to its destination: pending entries go, a live transient is read
by no later bundle, and the busy bit rises; s0 takes none (R15, R34). -/
def Ctx.claim (x : Ctx) (f : RegFile) (r : BitVec 5) : Ctx :=
  if f = RegFile.scalar ∧ r = 0#5 then x
  else
    ({ x with
       shadow := x.shadow.filter (fun w => !(w.file == f && w.reg == r))
       bypass := if f = RegFile.scalar then x.bypass.map (fun b : Bypass =>
         if b.reg == r then { b with left := min b.left 1 } else b) else x.bypass }).setBusy f r true

/-! Traps. -/

/-- Why a word does not take effect now: a precise trap, or a wait (R49, R392). -/
inductive Stop where
  | trap (t : Trap)
  | wait
  deriving DecidableEq, Repr

/-- A check: a stop, or what the word goes on with. -/
abbrev Chk (α : Type) := Except Stop α

def cIllegalOp : BitVec 8 := 0x01#8
def cBundleForm : BitVec 8 := 0x02#8
def cPriv : BitVec 8 := 0x03#8
def cAlign : BitVec 8 := 0x04#8
def cXlate : BitVec 8 := 0x05#8
def cProt : BitVec 8 := 0x06#8
def cUnitAbsent : BitVec 8 := 0x07#8
def cStallShort : BitVec 8 := 0x08#8
def cEngineFault : BitVec 8 := 0x09#8
def cRecompute : BitVec 8 := 0x0A#8
def cGaugeOverrun : BitVec 8 := 0x0B#8
def cGaugeTimeout : BitVec 8 := 0x0C#8
def cVersionAbsent : BitVec 8 := 0x0D#8
def cRace : BitVec 8 := 0x0E#8
def cMcheck : BitVec 8 := 0x0F#8
def cDeadlock : BitVec 8 := 0x10#8
def cBreak : BitVec 8 := 0x11#8
def cSyscall : BitVec 8 := 0x12#8
def cFmtGroup : BitVec 8 := 0x13#8
def cRecomputeFailed : BitVec 8 := 0x14#8
def cMemberSilent : BitVec 8 := 0x15#8

def fHandleForm : BitVec 8 := 0x01#8
def fCubeFormat : BitVec 8 := 0x02#8
def fCubeShape : BitVec 8 := 0x03#8
def fCubeMode : BitVec 8 := 0x04#8
def fCubeLatch : BitVec 8 := 0x05#8
def fRotGroup : BitVec 8 := 0x06#8
def fCopyRing : BitVec 8 := 0x07#8
def fCopyId : BitVec 8 := 0x08#8
def fSchedState : BitVec 8 := 0x09#8
def fSchedHalt : BitVec 8 := 0x0A#8
def fWsOpen : BitVec 8 := 0x0B#8
def fWsTiming : BitVec 8 := 0x0C#8
def fJoinState : BitVec 8 := 0x0D#8
def fCollForm : BitVec 8 := 0x10#8
def fCollGroup : BitVec 8 := 0x11#8
def fCollUnreach : BitVec 8 := 0x12#8
def fCollMismatch : BitVec 8 := 0x13#8
def fCollId : BitVec 8 := 0x14#8

/-- A precise trap of a cause, at no address. -/
def trapC {α : Type} (cause : BitVec 8) : Chk α := .error (.trap { cause := cause })
/-- A precise trap of a cause at an address. -/
def trapA {α : Type} (cause : BitVec 8) (a : Word) : Chk α := .error (.trap { cause := cause, addr := a })
/-- ENGINE_FAULT with a fault code, reported by an engine at issue. -/
def trapE {α : Type} (engine : BitVec 5) (code : BitVec 8) : Chk α :=
  .error (.trap { cause := cEngineFault, fcode := code, engine := engine })
/-- A condition that must hold, or the trap is taken. -/
def need (b : Bool) (e : Chk Unit) : Chk Unit := if b then .ok () else e
/-- A condition that must hold, or the word waits. -/
def await (b : Bool) : Chk Unit := if b then .ok () else .error .wait

/-- The launch a context's task belongs to. -/
def State.launchOf (s : State) (c : Nat) : Option Launch :=
  match (s.ctx c).task with
  | some t => s.launches.find? (fun l => l.id == t.launch)
  | none => none

/-- The address space of a context: that of its launch (R278). -/
def State.asidOf (s : State) (c : Nat) : Nat := ((s.launchOf c).map (·.asid)).getD 0
/-- The bound version of a context's launch (R236). -/
def State.verOf (s : State) (c : Nat) : BitVec 16 := ((s.launchOf c).map (·.version)).getD 0#16
/-- The polder of a context's launch. -/
def State.polderOf (s : State) (c : Nat) : Nat := ((s.launchOf c).map (·.polder)).getD 0
/-- The effective priority of a context (R285). -/
def State.prioOf (s : State) (c : Nat) : Nat := ((s.launchOf c).map (·.prio)).getD 0
/-- The boundaries of a context's base-slice allotment: SPORG and SPAD (R29). -/
def State.spadOf (s : State) (c : Nat) : Nat × Nat := ((s.launchOf c).map (fun l => (l.sporg, l.spad))).getD (0, 0)
/-- The accumulator allotment of a context: ACC0 and ACCN (R186). -/
def State.accOf (s : State) (c : Nat) : Nat × Nat := ((s.launchOf c).map (fun l => (l.acc0, l.accn))).getD (0, 0)

/-- Change a launch by its number. -/
def State.modLaunch (s : State) (id : Nat) (f : Launch → Launch) : State :=
  { s with launches := s.launches.map (fun l => if l.id == id then f l else l) }

/-- A free value drawn in this step; draws of one step are told apart by i (log 4). -/
def State.draw (s : State) (i : Nat) : Word := Config.freeWord (s.tick * 4096 + i)

/-- A number not used before, and the state that has used it. -/
def State.fresh (s : State) : Nat × State := (s.seq, { s with seq := s.seq + 1 })

end Sys2Proof.Machine
end

