-- ==== Sys2Proof/Machine/Xlate.lean ====
section
/-! DEFINITION. Addresses: the local space and its checks (spec 01 R25 to R29), translation and protection
of global addresses (spec 08 R269 to R271), and the spaces of the physical address (spec 14 R370,
R383, R389; spec 12 R325). -/

namespace Sys2Proof.Machine

/-- A local address: bit 63 set (R25). -/
def isLocal (a : Word) : Bool := a.getLsbD 63

def areaOf (a : Word) : Nat := bitsOf a.toNat 29 28
def layerOf (a : Word) : Nat := bitsOf a.toNat 27 25
def offsetOf (a : Word) : Nat := bitsOf a.toNat 20 0
def ccoreOf (a : Word) : Nat := bitsOf a.toNat 31 30

/-- A well-formed local address (R25). -/
def localOk (a : Word) : Bool :=
  let n := a.toNat
  bitsOf n 62 32 == 0 && bitsOf n 24 21 == 0 && areaOf a != 3 &&
  (areaOf a != 0 || layerOf a == 0) && (areaOf a == 0 || bitsOf n 20 17 == 0)

/-- The size of the area a local address names: 2 MiB of base slice or 128 KiB of face (R27). -/
def areaSize (a : Word) : Nat := if areaOf a = 0 then 2 ^ 21 else 2 ^ 17

def generalEnd : Nat := 0x1B0000
def accBase : Nat := 0x1C0000

/-- A core may hold a spillway chunk, by its logical number (R27; the model's choice, log 66). -/
def State.holdsChunk (s : State) (k : Nat) : Bool := decide (s.logical k < 64)

/-- The checks of R27, R29 and R186 on n bytes from a well-formed local address of a context on core k: the
base-slice allotment, the spillway chunk of cores 0 to 63, the allotted accumulator tiles. The cores that hold a chunk
are taken by their logical numbers (the model's choice, log 66). -/
def State.allotted (s : State) (c k : Nat) (a : Word) (n : Nat) : Bool :=
  if areaOf a != 0 || n == 0 then true
  else
    let lo := offsetOf a
    let hi := lo + n - 1
    let (sporg, spad) := s.spadOf c
    let (acc0, accn) := s.accOf c
    (decide (generalEnd ≤ lo) ||
      (decide (sporg ≤ lo) && decide (min hi (generalEnd - 1) < sporg + spad))) &&
    (decide (hi < generalEnd) || decide (accBase ≤ lo) || !s.holdsChunk k) &&
    (decide (hi < accBase) ||
      (decide (acc0 ≤ (max lo accBase - accBase) / 4096) && decide ((hi - accBase) / 4096 < acc0 + accn)))

/-- A local access of n bytes by a context: XLATE where malformed or leaving its area (R20, R25), PROT
outside its allotments; the location of the first byte on core k. -/
def State.localAt (s : State) (c k : Nat) (a : Word) (n : Nat) : Chk Nat :=
  if !localOk a || decide (areaSize a < offsetOf a + n) then trapA cXlate a
  else if !s.allotted c k a n then trapA cProt a
  else .ok (spadLoc k a.toNat)

/-- What an access does (R271); `pair` is a UPST or UVTAG, which may write a weight leaf. -/
inductive Acc where
  | read
  | fetch
  | write
  | pair
  deriving DecidableEq, Repr

/-- On whose behalf an access is made: address space, mode, bound version, polder. -/
structure Agent where
  asid : Nat
  super : Bool
  ver : BitVec 16
  polder : Nat
  deriving DecidableEq, Repr

/-- The agent that a context is. -/
def State.agentOf (s : State) (c : Nat) : Agent :=
  ⟨s.asidOf c, (s.ctx c).mode == .supervisor, s.verOf c, s.polderOf c⟩

/-- A leaf found by a walk: its entry, where the entry lies, and the page's size 2^shift (R270). -/
structure Leaf where
  entry : Nat
  at_ : Nat
  shift : Nat
  deriving DecidableEq, Repr

def Leaf.pa0 (l : Leaf) : Nat := bitsOf l.entry 115 64
def Leaf.pa1 (l : Leaf) : Nat := bitsOf l.entry 211 160
def Leaf.ver0 (l : Leaf) : Nat := bitsOf l.entry 239 224
def Leaf.ver1 (l : Leaf) : Nat := bitsOf l.entry 255 240
def Leaf.wreg (l : Leaf) : Nat := bitsOf l.entry 39 32
def Leaf.key (l : Leaf) : Nat := bitsOf l.entry 28 16
def Leaf.enc (l : Leaf) : Bool := l.entry.testBit 15
def Leaf.rl (l : Leaf) : Bool := l.entry.testBit 7
def Leaf.rc (l : Leaf) : Bool := l.entry.testBit 6
def Leaf.u (l : Leaf) : Bool := l.entry.testBit 5
def Leaf.x (l : Leaf) : Bool := l.entry.testBit 4
def Leaf.w (l : Leaf) : Bool := l.entry.testBit 3
def Leaf.r (l : Leaf) : Bool := l.entry.testBit 2
def Leaf.weight (l : Leaf) : Bool := l.entry % 4 == 3

/-- The reserved bits of an entry of each type are 0 and its addresses are aligned (R269, R270); `pg` and
`nxt` are the sizes of the page it would map and of the table it would name. -/
def entryOk (e pg nxt : Nat) : Bool :=
  match e % 4 with
  | 1 => bitsOf e 255 116 == 0 && bitsOf e 63 2 == 0 && bitsOf e 115 64 % nxt == 0
  | 2 => bitsOf e 255 116 == 0 && bitsOf e 63 29 == 0 && bitsOf e 14 8 == 0 && bitsOf e 115 64 % pg == 0
  | 3 => bitsOf e 223 212 == 0 && bitsOf e 159 116 == 0 && bitsOf e 63 40 == 0 && bitsOf e 31 29 == 0 &&
      bitsOf e 14 8 == 0 && bitsOf e 115 64 % pg == 0 && bitsOf e 211 160 % pg == 0
  | _ => false

/-- The levels of the walk: page shift, entries of a table, size of the next table (R269). -/
def walkLevels : List (Nat × Nat × Nat) :=
  [(45, 4096, 0x40000), (32, 8192, 0x1000), (25, 128, 0x1000), (18, 128, 1)]

/-- The walk from a table (R269): none where it traps XLATE. -/
def walkFrom (m : List Host.Cell) : List (Nat × Nat × Nat) → Nat → Nat → Option Leaf
  | [], _, _ => none
  | (sh, cnt, nxt) :: rest, tbl, va =>
    let a := tbl + 32 * (va / 2 ^ sh % cnt)
    let e := memRead m a 32
    if !entryOk e (2 ^ sh) nxt then none
    else if e % 4 = 1 then walkFrom m rest (bitsOf e 115 64) va
    else if sh = 45 then none
    else some ⟨e, a, sh⟩

/-- The leaf of a global virtual address in an address space (R269; the address-space table, log 10). -/
def State.walk (s : State) (asid : Nat) (a : Word) : Option Leaf :=
  if bitsOf a.toNat 63 57 != 0 then none
  else walkFrom s.mem walkLevels (memRead s.mem (Config.asidBase + 8 * asid) 8) a.toNat

def hbmBytes : Nat := 64000000000
def tier2Bytes : Nat := 1536000000000

/-- A physical address in the second tier of an installed cube (R370). -/
def State.inTier2 (s : State) (pa : Nat) : Bool :=
  (decide (2 ^ 42 ≤ pa) && decide (pa < 2 ^ 42 + tier2Bytes)) ||
  (s.part.cubes == 2 && decide (2 ^ 43 ≤ pa) && decide (pa < 2 ^ 43 + tier2Bytes))

/-- The second tier is present and trained (R379, R388). -/
def State.hasTier2 (s : State) : Bool := s.part.tier2 && !s.rontal.tier2Down

/-- A physical address in an installed HBM stack (R370). -/
def State.inHbm (s : State) (pa : Nat) : Bool :=
  decide (pa / 2 ^ 36 < 4 * s.part.cubes) && decide (pa % 2 ^ 36 < hbmBytes)

/-- The cube whose memory a package address lies in (R370). -/
def homeCube (pa : Nat) : Nat := if pa < 2 ^ 42 then pa / 2 ^ 38 else if pa < 2 ^ 43 then 0 else 1

/-- The grant of a node that covers an offset of its exposed space (R325). -/
def State.grantOf (s : State) (node off : Nat) : Option Grant :=
  (tblGet s.fabric.grants node []).find? (fun g => decide (g.lo ≤ off) && decide (off ≤ g.hi))

/-- The location a physical address names, or the cause of the trap (R325, R370, R389). -/
def State.place (s : State) (pa : Nat) (wr : Bool) : Except (BitVec 8) Nat :=
  match pa / 2 ^ 50 with
  | 0 =>
    if s.inHbm pa then .ok pa
    else if s.inTier2 pa then (if s.hasTier2 then .ok pa else .error cUnitAbsent)
    else .error cXlate
  | 1 => .error cXlate
  | 2 => .ok pa
  | _ =>
    let node := pa / 2 ^ 42 % 256
    let off := pa % 2 ^ 42
    if !s.part.fabric then .error cUnitAbsent
    else if !s.fabric.members.contains node then .error cProt
    else match s.grantOf node off with
      | none => .error cProt
      | some g =>
        if (if wr then g.write else g.read) then
          .ok (if node = s.fabric.node then g.base + (off - g.lo) else pa)
        else .error cProt

/-! Polder records (R278, R279). -/

/-- A field of a polder's own record. -/
def State.polField (s : State) (p off n : Nat) : Nat := memRead s.mem (Config.polderBase + 128 * p + off) n

/-- The polder that supplies an inheritable field: the nearest one at or above p whose OVR bit is set (R279). -/
def State.effFrom (s : State) (bit : Nat) : Nat → Nat → Nat
  | 0, _ => 0
  | f + 1, p => if p = 0 || (s.polField p 4 2).testBit bit then p else s.effFrom bit f (s.polField p 0 2 % 4096)

def State.effPolder (s : State) (bit p : Nat) : Nat := s.effFrom bit 8 p

/-- The effective value of a field. -/
def State.effField (s : State) (bit p off n : Nat) : Nat := s.polField (s.effPolder bit p) off n

/-- A polder and its ancestors (R278: at most 8 levels). -/
def State.polChain (s : State) : Nat → Nat → List Nat
  | 0, _ => []
  | f + 1, p => p :: (if p = 0 then [] else s.polChain f (s.polField p 0 2 % 4096))

/-- The current version of a polder (R240, R279). -/
def State.currentVer (s : State) (p : Nat) : Nat := s.effField 3 p 12 2

/-- Write permission of a polder to a weight region (R271). -/
def State.writerOf (s : State) (p wreg : Nat) : Bool :=
  let e := s.effPolder 4 p
  s.polField e 10 1 == wreg && (s.polField e 2 2).testBit 1

/-- Where an access by an agent lands, and through which leaf. -/
structure Place where
  loc : Nat
  leaf : Leaf
  deriving DecidableEq, Repr

/-- An access is permitted by its leaf (R271). -/
def State.permits (s : State) (g : Agent) (acc : Acc) (l : Leaf) : Bool :=
  (g.super || l.u) &&
  match acc with
  | .read => l.r
  | .fetch => l.x && !l.weight
  | .write => l.w && !l.weight
  | .pair => l.w && (!l.weight || s.writerOf g.polder l.wreg)

/-- The physical address of a page that a read of the agent's version or a write resolves to (R236). -/
def Leaf.backing (l : Leaf) (g : Agent) : Option Nat :=
  if !l.weight then some l.pa0
  else if l.ver0 = g.ver.toNat then some l.pa0
  else if l.ver1 = g.ver.toNat then some l.pa1
  else none

/-- Translation, protection and version resolution of one global address (R25, R269 to R271, R383), in
this order. -/
def State.globalAt (s : State) (g : Agent) (acc : Acc) (a : Word) : Chk Place :=
  match s.walk g.asid a with
  | none => trapA cXlate a
  | some l =>
    if !s.permits g acc l then trapA cProt a
    else match l.backing g with
      | none => trapA cVersionAbsent a
      | some pg =>
        let pa := pg + a.toNat % 2 ^ l.shift
        match s.place pa (acc == .write || acc == .pair) with
        | .error cause => trapA cause a
        | .ok loc =>
          if l.enc && pa < 2 ^ 50 && (tblFind s.rontal.keys l.key).isNone then trapA cProt a
          else .ok ⟨loc, l⟩

/-- The location of an aligned access of n bytes that lies in one page, local on core k or global. -/
def State.dataAt (s : State) (c k : Nat) (g : Agent) (acc : Acc) (a : Word) (n : Nat) : Chk Nat :=
  if isLocal a then s.localAt c k a n
  else match s.globalAt g acc a with
    | .ok p => .ok p.loc
    | .error e => .error e

/-- Where the three lines of a join record lie for an agent that reads and writes it. -/
def State.joinLines (s : State) (g : Agent) (a : Word) : Chk (List Nat) :=
  [0, 1, 2].mapM (fun i => do
    let b := a + BitVec.ofNat 64 (64 * i)
    let _ ← s.globalAt g .read b
    let p ← s.globalAt g .write b
    pure p.loc)

/-! What the agents of a core see (R246, R247). A global store reaches the instances of scope that its writer lies in
one by one; until it is performed at package scope, State.stores holds it, at each level in the order in which it
came there. -/

/-- Two contexts lie in one instance of a scope, context to cube (R247). -/
def sameInstance (level x y : Nat) : Bool :=
  match level with
  | 0 => x == y
  | 1 => coreOf x == coreOf y
  | 2 => coreOf x / 4 == coreOf y / 4
  | _ => cubeOf x == cubeOf y

/-- The byte that the last of some stores leaves at a location. -/
def State.lastStore (s : State) (p : PendStore → Bool) (a : Nat) : Option Byte :=
  ((s.stores.filter (fun w => p w && decide (w.loc ≤ a) && decide (a < w.loc + w.size))).getLast?).map
    (fun w => BitVec.ofNat 8 (w.data / 256 ^ (a - w.loc)))

/-- The byte at a location as the agents of a core see it: the last store at the narrowest scope, else memory. -/
def State.seenByte (s : State) (k a : Nat) : Byte :=
  let at_ := fun (l : Nat) => s.lastStore (fun w => w.level == l && sameInstance l w.ctx (4 * k)) a
  match at_ 1 with
  | some b => b
  | none => match at_ 2 with
    | some b => b
    | none => (at_ 3).getD (memGet s.mem a)

/-- The n bytes from a location as the agents of a core see them. -/
def State.seenBytes (s : State) (k a : Nat) : Nat → Nat
  | 0 => 0
  | n + 1 => (s.seenByte k a).toNat + 256 * s.seenBytes k (a + 1) n

/-- A context observes those stores by others that it can see and that a test selects (R251). -/
def State.observing (s : State) (c : Nat) (p : PendStore → Bool) : State :=
  { s with stores := s.stores.map (fun w =>
      if w.ctx != c && w.level != 0 && sameInstance w.level w.ctx c && p w && !w.seen.contains c then
        { w with seen := w.seen ++ [c] } else w) }

/-- A context has read n bytes from a location: the stores that it saw are observed (R251). -/
def State.observe (s : State) (c a n : Nat) : State := s.observing c (fun w => overlaps a n w.loc w.size)

/-- A context acquires at a scope: it observes every store that is performed there, since a release has waited for what
it covers (R251; log 23). -/
def State.acquired (s : State) (c scope : Nat) : State := s.observing c (fun w => scope != 0 && decide (scope ≤ w.level))

/-- The granule of 64 bytes a location lies in: the unit of an uncorrectable error. -/
def granule (loc : Nat) : Nat := loc / 64

/-- A byte range that meets an uncorrectable error. -/
def State.poisoned (s : State) (loc n : Nat) : Bool :=
  s.poison.any (fun q => overlaps (64 * q) 64 loc n)

/-- Write bytes; writing removes the errors of the granules it covers whole. -/
def State.store (s : State) (loc n v : Nat) : State :=
  { s with mem := memWrite s.mem loc n v
           poison := s.poison.filter (fun q => !(decide (loc ≤ 64 * q) && decide (64 * q + 64 ≤ loc + n))) }

end Sys2Proof.Machine
end

