-- ==== Sys2Proof/Machine/Ops.lean ====
section
/-! DEFINITION. The operations every meaning is built from: performing a word, taking a trap (spec 09
R290 to R298), returning from one, ending a task, recording an error. -/

namespace Sys2Proof.Machine

/-- A message leaves the module. -/
def State.emit (s : State) (m : Outgoing) : State := { s with out := s.out ++ [m] }

/-- The physical address that a context's address names, for the error log; a local address stands as it is. -/
def State.physical (s : State) (c : Nat) (a : Word) : Word :=
  if isLocal a then a
  else match s.globalAt ⟨s.asidOf c, true, s.verOf c, s.polderOf c⟩ .read a with
    | .ok p => BitVec.ofNat 64 p.loc
    | .error _ => a

/-- An uncorrectable error enters the error log, which holds the last 256, and raises vector 5 (R387). -/
def State.logError (s : State) (code : Nat) (addr : Word) (unit core ctx : Nat) (sig : Word) : State :=
  let r := s.rontal
  let e : ErrEntry := ⟨r.errCount, code, s.time, addr, unit, core, ctx, sig⟩
  let es := r.errors ++ [e]
  { s with rontal := { r with errors := es.drop (es.length - 256), errCount := r.errCount + 1 } }.emit (.msix 5)

/-- Where the entry of a launch-queue slot lies (R372, R373). -/
def Queue.entryAt (q : Queue) (i : Nat) : Nat :=
  (if q.loc then q.base.toNat else 2 ^ 51 + q.base.toNat % 2 ^ 50) + 64 * (i % 2 ^ max 1 q.size.toNat)

/-- The final state of a launch reaches its queue entry: STATE, REASON 0 and TEND, the unused bytes 0, then the queue's message (R373 to
R375). A producer launch of the recompute machinery has no entry. -/
def State.reportLaunch (s : State) (l : Launch) (state : Nat) : State :=
  match l.queue with
  | none => s
  | some (q, a) =>
    let s := ((s.store (a + 40) 24 0).store (a + 32) 8 s.time).store (a + 16) 8 state
    if (s.queue q).ien then s.emit (.msix (8 + q)) else s

/-- The contexts that run tasks of a launch. -/
def State.runners (s : State) (l : Nat) : List Nat :=
  s.ctxs.filterMap (fun p => match p.2.task with
    | some t => if t.launch == l then some p.1 else none
    | none => none)

/-- A context asleep or blocked that is ready from now on (R285, R297). -/
def Ctx.awake (x : Ctx) (now : Nat) : Ctx :=
  if x.asleep || x.blocked then { x with asleep := false, readyAt := now } else x

/-- A task comes to its end, unless it is ending already (R283); what ends is not saved (R288, R296). -/
def Ctx.endBy (x : Ctx) (e : Ending) : Ctx := if x.ending = .none then { x with ending := e, preempt := .none } else x

/-! Rings: control and claim words, slots claimed and not yet filled (R222, R223). -/

/-- a − b of sequence numbers, read signed (R87). -/
def seqDiff (a b : BitVec 32) : Int := (a - b).toInt

/-- The fields of a ring's control and claim words. -/
def State.ringHead (s : State) (loc : Nat) : BitVec 32 := BitVec.ofNat 32 (memRead s.mem loc 4)
def State.ringTail (s : State) (loc : Nat) : BitVec 32 := BitVec.ofNat 32 (memRead s.mem (loc + 4) 4)
def State.ringClaim (s : State) (loc : Nat) : BitVec 32 := BitVec.ofNat 32 (memRead s.mem (loc + 8) 4)

/-- The group that a context's task belongs to, as launch and group. -/
def State.teamOf (s : State) (c : Nat) : Nat × Nat := ((s.ctx c).task.map (fun t => (t.launch, t.group))).getD (0, 0)

/-- The slots that an operation has claimed, for its group. -/
def Op.claimed (o : Op) (team : Nat × Nat) : List LostSlot := o.slot.toList.map (fun p => ⟨team, p.1, p.2⟩)

/-- Slots of rings claimed and not filled, those of copies that a save cancelled among them. -/
def State.claimedSlots (s : State) : List LostSlot :=
  s.ops.flatMap (fun o => o.claimed (s.teamOf o.ctx)) ++
  s.saved.flatMap (fun g => g.ctxs.flatMap (fun x => x.copies.flatMap (fun o => o.claimed (g.launch, g.group)))) ++ s.unfilled

/-- Those of the ring at a location. One in a scratchpad is its group's own, whatever a group that a save took out of there
has claimed (R223, R288). -/
def State.openSlots (s : State) (team : Nat × Nat) (loc : Nat) : List (BitVec 32) :=
  (s.claimedSlots.filter (fun p => p.loc == loc && (!isSpad loc || p.team == team))).map (·.seq)

/-- TAIL of a group's ring advances past the slots that are filled, in sequence order (R223). -/
def State.advanceTail (s : State) (team : Nat × Nat) (loc : Nat) : State :=
  let tail := s.ringTail loc
  let next := (s.openSlots team loc).foldl (fun n q =>
    if 0 ≤ seqDiff q tail ∧ seqDiff q n < 0 then q else n) (s.ringClaim loc)
  s.store (loc + 4) 4 next.toNat

/-- The rings that some operations have claimed a slot of. -/
def ringsOf (os : List Op) : List Nat := (os.filterMap (·.slot)).map (·.1)

/-- The rings of copies that a save cancelled, as their slots count as filled (R223). Rings in the scratchpads of groups that
never return are gone. -/
def State.fillSaved (s : State) (gone : List SavedGroup) : State :=
  gone.foldl (fun (s : State) g =>
    ((ringsOf (g.ctxs.flatMap (·.copies))).filter (fun l => !isSpad l)).foldl (fun (s : State) l =>
      s.advanceTail (g.launch, g.group) l) s) s

/-- A launch fails: no further group is placed, its running tasks end, its saved ones are discarded and the slots that
their cancelled copies hold count as filled (R223, R296). -/
def State.failLaunch (s : State) (l : Launch) : State :=
  if l.failed then s
  else
    let s := s.modLaunch l.id (fun l => { l with failed := true })
    let s := (s.runners l.id).foldl (fun s c => s.modCtx c (fun x => (x.awake s.cycles).endBy .stopped)) s
    let (gone, keep) := s.saved.partition (fun g => g.launch == l.id)
    ({ s with saved := keep }.fillSaved gone).reportLaunch l 4

/-- A fault-domain stop: the launches of its running tasks fail, and so do the producers of the domain that a recompute
has begun (R296, R298, R377). -/
def State.stopDomain (s : State) (d : Nat) : State :=
  let s := (s.launches.filter (fun l => l.fdom == d && (l.consumer.isSome || !(s.runners l.id).isEmpty))).foldl
    State.failLaunch s
  { s with rontal := { s.rontal with fdstat := s.rontal.fdstat ||| (1#256 <<< d) } }.emit (.msix 3)

/-- What a trap without a handler, or a second trap, does: a producer launch fails alone (R298), any other
context's fault domain is stopped (R291, R296). -/
def State.unhandled (s : State) (c : Nat) : State :=
  match s.launchOf c with
  | some l => if l.consumer.isSome then s.failLaunch l else s.stopDomain l.fdom
  | none => s

/-- The trap handler of a context's polder: 0 where there is none (R278). -/
def State.handlerOf (s : State) (c : Nat) : Word := BitVec.ofNat 64 (s.effField 6 (s.polderOf c) 32 8)

/-- Trap entry proper: save, hold aside, inhibit, enter the handler (R36, R109, R291). -/
def Ctx.enter (x : Ctx) (t : Trap) (h : Word) : Ctx :=
  { x with
    trp := { x.trp with
      last := t
      pc := x.pc
      tgt := (x.xfer.map (·.target)).getD 0
      stalls := x.owed
      pmode := x.mode
      xfer := (x.xfer.map (·.taken)).getD false
      dleft := BitVec.ofNat 2 ((x.xfer.map (·.left)).getD 0) }
    held := some ⟨x.shadow, x.bypass.filter (fun b => decide (b.left ≤ 3)), x.owed, x.edges, x.after, x.safe, x.xfer.bind (·.link)⟩
    shadow := []
    bypass := []
    owed := 0
    edges := []
    after := none
    safe := none
    killPoint := false
    xfer := none
    inh := true
    mode := .supervisor
    pc := h
    blocked := false
    waitFrom := none }

/-- A collective's fault in flight is consumed as its trap is taken (R102, R337). -/
def State.consumeColl (s : State) (c : Nat) (t : Trap) : State :=
  if t.coll = 0#32 then s
  else s.modCtx c (fun x => { x with faults := x.faults.filter (fun f => !(f.engine == 5 && f.coll == t.coll)) })

/-- A collective wait of the current context takes the oldest fault in flight that it waits for; MEMBER_SILENT is
asynchronous and stays pending while a handler runs (R337). -/
def State.collectiveWait (s : State) (mine : EngFault → Bool) : Chk Unit :=
  match s.me.faults.find? (fun f => f.engine == 5 && mine f && !(s.me.inh && f.cause == cMemberSilent)) with
  | none => .ok ()
  | some f => .error (.trap
      { cause := f.cause, fcode := f.fcode, engine := 5#5, async := f.cause == cMemberSilent, coll := f.coll })

/-- A trap other than RECOMPUTE (R291). A WLD pending at trap entry stops counting (R237). -/
def State.takePlain (s : State) (c : Nat) (t : Trap) : State :=
  let s := s.consumeColl c t
  let x := s.ctx c
  if t.async && x.inh then s.setCtx c { x with asyncs := x.asyncs ++ [t] }
  else if x.inh then s.unhandled c
  else if t.cause = cBreak ∧ t.info = 0 then s.setCtx c (x.endBy .finished)
  else
    let h := s.handlerOf c
    if h = 0 then s.unhandled c
    else
      { s.setCtx c ((x.awake s.cycles).enter t h) with
        ops := s.ops.map (fun o => if o.ctx == c && o.engine == 6 then { o with started := false } else o) }

/-- The agent as which the hardware uses a polder's tables (R278). -/
def State.tableAgent (s : State) (c : Nat) : Agent :=
  ⟨s.effField 2 (s.polderOf c) 8 2, true, s.verOf c, s.polderOf c⟩

/-- The address of tensor record n of a context's polder (R262). -/
def State.tensorAddr (s : State) (c n : Nat) : Word :=
  BitVec.ofNat 64 (s.effField 8 (s.polderOf c) 64 8 + 64 * n)

/-- The handle a recompute reloads: the record's image with D cleared and TREC its index, reserved bits 0 (R17, R298, R265). -/
def reloaded (rec_ : BitVec 512) (n : Nat) : Handle :=
  let img := cleanHandle (rec_.setWidth 256)
  (img &&& ~~~(1#256 <<< 240) &&& ~~~(0xFFFF#256 <<< 216)) ||| (BitVec.ofNat 256 (n % 65536) <<< 216)

/-- RECOMPUTE, served by the hardware (R298). The trap's `info` carries the number of the handle register,
which no trap register shows. -/
def State.recompute (s : State) (c : Nat) (t : Trap) : State :=
  let r := t.info.setWidth 5
  let n := ((s.ctx c).hreg r).extractLsb' 216 16
  let failed : Trap := { cause := cRecomputeFailed }
  if n = 0#16 then s.takePlain c failed
  else
    let a := s.tensorAddr c n.toNat
    match s.globalAt (s.tableAgent c) .read a with
    | .error (.trap u) => s.takePlain c u
    | .error .wait => s
    | .ok p =>
      let rec_ := BitVec.ofNat 512 (memRead s.mem p.loc 64)
      if !rec_.getLsbD 384 then
        s.modCtx c (fun x => { x with hregs := vset x.hregs r (reloaded rec_ n.toNat) })
      else
        let wait := fun (s : State) => s.modCtx c (fun x => { x with recompute := some (r, p.loc), blocked := true })
        if rec_.getLsbD 385 then wait s
        else match s.launchOf c with
          | none => s.takePlain c failed
          | some l =>
            if 4 ≤ l.depth then s.takePlain c { failed with addr := a }
            else
              let (id, s) := s.fresh
              let l' : Launch :=
                { l with
                  id := id, record := rec_.extractLsb' 320 64, queue := none, tasks := 0, nextGroup := 0
                  ended := 0, failed := false, depth := l.depth + 1, consumer := some p.loc, begun := 0, done := none }
              let s := s.store (p.loc + 48) 1 ((memGet s.mem (p.loc + 48)).toNat ||| 2)
              wait { s with launches := s.launches ++ [l'], waiting := s.waiting ++ [id] }

/-- Take a trap in a context (R291). -/
def State.takeTrap (s : State) (c : Nat) (t : Trap) : State :=
  if t.cause = cRecompute then s.recompute c t else s.takePlain c t

/-- Idle every loop level; bindings keep their values (R100). -/
def Ctx.idleLoops (x : Ctx) : Ctx :=
  { x with loops := Vector.ofFn (fun i : Fin 6 => { x.loops[i] with active := false, code := [] }) }

/-- The return from a trap (R36, R292). A taken transfer with no delay bundle left takes effect at once. Writes that the
handler's own bundles left pending go on counting behind the entries held; the queue may then hold more than 8
(the model's choice, log 66). -/
def Ctx.leave (x : Ctx) : Ctx :=
  let h : Held := x.held.getD ⟨[], [], 0, [], none, none, none⟩
  let now := x.trp.xfer && x.trp.dleft == 0#2
  let y : Ctx :=
    { x with
      mode := x.trp.pmode
      pc := if now then x.trp.tgt else x.trp.pc
      xfer := if x.trp.dleft == 0#2 then none else some ⟨x.trp.tgt, x.trp.dleft.toNat, x.trp.xfer, h.link⟩
      shadow := h.shadow ++ x.shadow
      bypass := h.bypass
      owed := x.trp.stalls
      edges := h.edges
      after := h.after
      safe := h.safe
      held := none
      inh := false }
  if now then y.idleLoops else y

/-- The narrowest scope that covers a context and the home of a location (R275). -/
def homeScope (c loc : Nat) : Nat :=
  if loc < 2 ^ 42 ∧ homeCube loc = cubeOf c then 3 else 4

/-- A write by a context reaches the shadow of its sector (R275). -/
def State.shade (s : State) (c loc intv : Nat) (atomic : Bool) : State :=
  { s with raceShadow := tblSet s.raceShadow (loc / 64) ⟨s.agent c, homeScope c loc, intv, atomic⟩ }

/-- A write that traps RACE updates the shadow all the same (R277). -/
def State.shadeTrapped (s : State) (c : Nat) (t : Trap) : State :=
  match t.wrote with
  | some (loc, atomic) => s.shade c loc (s.ctx c).race.interval atomic
  | none => s

/-- Take a precise trap in the current context; an MCHECK enters the error log (R387). -/
def State.precise (s : State) (t : Trap) : State :=
  let s := s.shadeTrapped s.cur t
  (if t.cause = cMcheck then s.logError 2 (s.physical s.cur t.addr) 0 (coreOf s.cur) (s.cur % 4) 0 else s).takeTrap s.cur t

/-- Perform a word of the current context: take its trap, wait, or give it its effect (R49, R392). -/
def perform {α : Type} (chk : Chk α) (eff : α → State) (s : State) : Host.Outcome State Fault Refusal :=
  match chk with
  | .ok a => .next { eff a with mark := .ran }
  | .error (.trap t) => .next { s.precise t with mark := .trapped t }
  | .error .wait => .next { s with mark := .waits }

/-- A trap that an engine's word raises names the engine (R293). -/
def onEngine {α : Type} (e : BitVec 5) (chk : Chk α) : Chk α :=
  match chk with
  | .error (.trap t) => .error (.trap (if t.engine = 31#5 then { t with engine := e } else t))
  | c => c

/-- Perform a word of an engine. -/
def performOn {α : Type} (e : BitVec 5) (chk : Chk α) (eff : α → State) (s : State) : Host.Outcome State Fault Refusal :=
  perform (onEngine e chk) eff s

/-- A word without checks. -/
def always (eff : State → State) (s : State) : Host.Outcome State Fault Refusal :=
  perform (.ok ()) (fun _ => eff s) s

/-- A privileged word traps PRIV in user mode (R67). -/
def State.privileged (s : State) : Chk Unit := need (s.me.mode == .supervisor) (trapC cPriv)

/-- An event: an operation of the machine itself, which always gives a next state. -/
def happen (s : State) : Host.Outcome State Fault Refusal := .next s

end Sys2Proof.Machine
end

