-- ==== Sys2Proof/Machine/Operands.lean ====
section
/-! DEFINITION. The operand forms (spec 02 R52), and what issue must know of a word before it runs: its
slot class and target (R44, R45), the registers it names (R32, R34), its privilege (R67) and the unit it
needs (R7). -/

namespace Sys2Proof.Machine

/-! Operand values. -/

/-- A scalar register as the current context's bundle reads it (R32). -/
def State.sr (s : State) (r : BitVec 5) : Word := s.me.sreg r
/-- A handle register as the current context's bundle reads it (R32). -/
def State.hr (s : State) (r : BitVec 5) : Handle := s.me.hreg r
/-- A 12-bit immediate, sign-extended (R78). -/
def imm12 (i : BitVec 12) : Word := i.signExtend 64
/-- A 17-bit immediate, sign-extended (R78). -/
def imm17 (i : BitVec 17) : Word := i.signExtend 64
/-- The address of a MEM-format operand of 2^sz bytes (R60). -/
def memAddr (base : Word) (o : BitVec 10) (sz : Nat) : Word := base + (o.signExtend 64 <<< sz)
/-- Sign-extend the low 32 bits: w(x) of R77. -/
def sextW (x : Word) : Word := (x.setWidth 32).signExtend 64

/-- Write a scalar register of the current context at a latency (R32). -/
def State.put (s : State) (r : BitVec 5) (v : Word) (lat : Nat) : State := s.modMe (fun x => x.putS r v lat)
/-- Write a handle register of the current context at latency 1 (R32). -/
def State.putHandle (s : State) (r : BitVec 5) (v : Handle) : State := s.modMe (fun x => x.putH r v 1)

/-! What a word is, judged from the word alone. -/

/-- Slot classes (R44). -/
inductive Slot where
  | scalar
  | memory
  | control
  | engine
  | prefix_
  deriving DecidableEq, Repr

/-- The major opcode of a word (R41). -/
def majorOf (i : Instr) : Nat := ((encode i).extractLsb' 22 6).toNat
def fieldD (i : Instr) : BitVec 5 := (encode i).extractLsb' 17 5
def fieldA (i : Instr) : BitVec 5 := (encode i).extractLsb' 12 5
def fieldB (i : Instr) : BitVec 5 := (encode i).extractLsb' 7 5

/-- The slot class of a word (R44, R56). -/
def slotOf (i : Instr) : Slot :=
  match i with
  | .lfl _ _ => .prefix_
  | _ =>
    let m := majorOf i
    if m ≤ 0x11 then .scalar
    else if m ≤ 0x19 then .memory
    else if m ≤ 0x1B then .scalar
    else if m ≤ 0x1F then .control
    else if m ≤ 0x22 then .scalar
    else .engine

/-- The target of an engine word (R45): an engine's number (R22), 6 the weight store, 7 the version unit,
8 the join unit, 9 the power unit, 10 every target. -/
def targetOf (i : Instr) : Nat :=
  match i with
  | .ewr _ a _ | .erd _ a _ => a.toNat
  | .edrain => 0
  | .efence => 10
  | _ =>
    let m := majorOf i
    if m ≤ 0x27 then 0
    else if m ≤ 0x2F then 1
    else if m = 0x30 then 2
    else if m = 0x31 then 3
    else if m ≤ 0x34 then 4
    else if m = 0x35 then 6
    else if m = 0x36 then 7
    else if m = 0x37 then 8
    else if m = 0x38 then 5
    else 9

/-- The latency of a write of more than 1 step that does not depend on an address (R32, R47); 1 otherwise. -/
def fixedLatency (i : Instr) : Nat :=
  match i with
  | .mul _ _ _ | .mulh _ _ _ | .mulhu _ _ _ | .mulhsu _ _ _ | .mulW _ _ _ => 3
  | .div _ _ _ | .divu _ _ _ | .rem _ _ _ | .remu _ _ _
  | .divW _ _ _ | .divuW _ _ _ | .remW _ _ _ | .remuW _ _ _ => 20
  | .vany _ _ | .vall _ _ | .estat _ _ | .erd _ _ _ | .csrr _ _ | .ststat _ => 2
  | _ => 1

/-- The scalar registers a word reads. -/
def scalarReads (i : Instr) : List (BitVec 5) :=
  let d := fieldD i
  let a := fieldA i
  let b := fieldB i
  match i with
  | .lsi d _ => [d]
  | .li _ _ | .lui _ _ | .ptgt _ _ => []
  | .hld _ _ _ => [a]
  | .hst _ _ _ => [a]
  | .hdrop _ _ => [d, a]
  | .acas _ _ _ _ => [a, b, d]
  | .bind a _ => [a]
  | .acq a _ | .rel a _ => [a]
  | .lset _ a => [a]
  | .lstr _ _ _ t => [t]
  | .csrw x _ => [x]
  | .tlbi x k => if k = 2#2 then [] else [x]
  | .stest x => [x]
  | .cmapw x => [x]
  | .hmov _ _ | .hlive _ _ => []
  | .hofs _ _ b => [b]
  | .hseq _ b => [b]
  | .hea _ _ b => [b]
  | .hset _ a _ => [a]
  | .ewr c _ _ => [c]
  | .cfsel a => [a]
  | .vfill _ a _ => [a]
  | .uvtag a b => [a, b]
  | .ccan a => [a]
  | .sbind _ _ b => [b]
  | .ssch a => [a]
  | .sres a => [a]
  | .ginit _ a => [a]
  | .gwait _ a b => [a, b]
  | .wact a | .wpre a | .wref a => [a]
  | .wld _ a => [a]
  | .vpub a b => [a, b]
  | .vswt a => [a]
  | .temit _ a b => [a, b]
  | .coll a => [a]
  | .collJ a _ => [a]
  | .csig _ a => [a]
  | .afw a => [a]
  | _ =>
    match majorOf i with
    | 0x01 | 0x02 | 0x03 | 0x04 | 0x05 | 0x06 | 0x07 | 0x08 | 0x12 | 0x13 => [a]
    | 0x10 | 0x11 | 0x18 | 0x1B | 0x1C => [a, b]
    | 0x14 => [d, a]
    | _ => []

/-- The handle registers a word names and reads; the destination handle of an engine word is read. -/
def handleReads (i : Instr) : List (BitVec 5) :=
  let c := fieldD i
  let a := fieldA i
  let b := fieldB i
  match i with
  | .hst d _ _ => [d]
  | .bind _ b => [b]
  | .hmov _ a | .hlive _ a => [a]
  | .hofs _ a _ | .hea _ a _ => [a]
  | .hset d _ _ => [d]
  | .hget _ a _ => [a]
  | .cldb a _ => [a]
  | .czero c => [c]
  | .cfsel _ | .pand _ _ _ _ | .por _ _ _ _ | .pxor _ _ _ _ | .pnot _ _ _ | .pset _ _ | .pclr _ _
  | .uvtag _ _ | .ccan _ | .waitc _ | .ssch _ | .sadv | .sres _ | .gbar => []
  | .vcmpEq _ a b _ _ | .vcmpNe _ a b _ _ | .vcmpLt _ a b _ _ | .vcmpLe _ a b _ _ | .vcmpGt _ a b _ _
  | .vcmpGe _ a b _ _ | .vcmpUo _ a b _ _ => [a, b]
  | .vfill c _ _ => [c]
  | .viota c _ => [c]
  | .upst c a => [c, c + 1#5, a]
  | .sbind c _ _ => [c]
  | .ginit c _ => [c]
  | .gwait c _ _ => [c]
  | .gread _ a => [a]
  | .wld c _ => [c]
  | .wst c a => [c, a]
  | .temit c _ _ => [c]
  | .jopen a | .jwait a => [a]
  | .jacc c a => [c, a]
  | .jarr _ a => [a]
  | .collJ _ b => [b]
  | .crd c a => [c, a]
  | .vabs c a _ _ | .vneg c a _ _ => [c, a]
  | .vrcp c a _ | .vrsq c a _ | .vexp2 c a _ | .vlog2 c a _ => [c, a]
  | .vcvt c a _ _ => [c, a]
  | .vqnt c a _ | .vdq c a _ => [c, a]
  | .vrsum c a _ _ | .vrmax c a _ _ | .vrmin c a _ _ => [c, a]
  | .vmov c a _ => [c, a]
  | .xtr c a | .xtrc c a => [c, a]
  | _ =>
    match majorOf i with
    | 0x24 | 0x28 | 0x29 | 0x2A | 0x2C | 0x2F | 0x32 => [c, a, b]
    | _ => []

/-- The scalar registers a word writes, s0 among them. -/
def scalarWrites (i : Instr) : List (BitVec 5) :=
  match i with
  | .hmov _ _ | .hofs _ _ _ | .hseq _ _ | .hset _ _ _ => []
  | .lidx _ d => [d]
  | .csrr x _ => [x]
  | .ststat x => [x]
  | .brl d _ _ => [d]
  | .erd c _ _ => [c]
  | .waitc c => [c]
  | .gread c _ => [c]
  | .jarr c _ => [c]
  | .csig c _ => [c]
  | _ =>
    match majorOf i with
    | 0x14 | 0x17 | 0x19 | 0x1C | 0x1E | 0x1F => []
    | m => if m ≤ 0x22 then [fieldD i] else []

/-- The handle registers a word writes. -/
def handleWrites (i : Instr) : List (BitVec 5) :=
  match i with
  | .hld d _ _ => [d]
  | .hmov d _ => [d]
  | .hofs d _ _ => [d]
  | .hset d _ _ => [d]
  | .sbind c _ _ => [c]
  | _ => []

/-- The memory-class words whose write, on a local address, takes a shadow-queue entry (R32). -/
def localLoad (i : Instr) : Bool :=
  match majorOf i with
  | 0x12 | 0x13 | 0x18 => true
  | 0x17 => (match i with | .hld _ _ _ => true | _ => false)
  | _ => false

/-- The byte address of a memory-class word (R60, R61). -/
def memOperand (x : Ctx) (i : Instr) : Word :=
  let o : BitVec 10 := (encode i).extractLsb' 0 10
  let sz := ((encode i).extractLsb' 10 2).toNat
  match majorOf i with
  | 0x12 | 0x13 | 0x14 => memAddr (x.sreg (fieldA i)) o sz
  | 0x17 => memAddr (x.sreg (fieldA i)) o 5
  | _ => x.sreg (fieldA i)

/-- The shadow-queue entries a word's writes take (R33): one for each write of latency 2 or more, none for
s0 (R15), none for a global load or atomic (R34). Whether a load is a local one is judged by its base register as it
stands, also where that register is still busy, since the room is asked for before the busy bits (R392; the model's
choice, log 66). -/
def shadowNeed (x : Ctx) (i : Instr) : Nat :=
  if localLoad i then
    (if isLocal (memOperand x i) && ((handleWrites i).length == 1 || fieldD i != 0#5) then 1 else 0)
  else if fixedLatency i ≥ 2 then ((scalarWrites i).filter (fun r => r != 0#5)).length
  else 0

/-- Control and status registers that a user-mode write traps PRIV on (R23, R24, R232, R289, R293, R327,
R345): each has a field that only supervisor mode may write, or a rule that reserves its writes. -/
def csrSupervisor (n : Nat) : Bool :=
  n == 0x001 || n == 0x009 || (decide (0x100 ≤ n) && decide (n ≤ 0x115)) || n == 0x120 ||
  n == 0x401 || n == 0x411 || n == 0x430 || n == 0x431 || n == 0x442 ||
  (decide (0x611 ≤ n) && decide (n ≤ 0x61F)) || (decide (0x621 ≤ n) && decide (n ≤ 0x62F)) ||
  n == 0x700 || n == 0x712

/-- A word that traps PRIV in user mode (R23, R67). -/
def isPrivileged (i : Instr) : Bool :=
  match i with
  | .rft | .idle | .tlbi _ _ | .stest _ | .ststat _ | .cmapw _ => true
  | .csrw _ n => csrSupervisor n.toNat
  | _ => false

/-- A word that needs a unit the part lacks, judged from the word alone (R7, R389). -/
def unitAbsent (p : Part) (i : Instr) : Bool :=
  match i with
  | .coll _ | .collJ _ _ | .csig _ _ => !p.fabric
  | _ => false

/-- A transfer word or a word of major 0x1E, which no delay bundle may hold (R48). -/
def badInDelay (i : Instr) : Bool := majorOf i == 0x1C || majorOf i == 0x1E

end Sys2Proof.Machine
end

