-- ==== Sys2Proof/Machine/Handles.lean ====
section
/-! DEFINITION. Handles: fields (spec 01 R17), formats (R18), validity (R20), the element mapping (R19) and
its layout records (spec 08 R262 to R266). -/

namespace Sys2Proof.Machine

/-! Fields (R17). -/

/-- Bits lo..lo+n-1 of a handle. -/
def hbits (h : Handle) (lo n : Nat) : Nat := h.toNat / 2 ^ lo % 2 ^ n

def hBase (h : Handle) : Word := h.setWidth 64
def hExt (h : Handle) (k : Nat) : Nat := hbits h (64 + 16 * k) 16
/-- The stride of dimension k, 1 to 3. -/
def hStride (h : Handle) (k : Nat) : Nat := hbits h (104 + 24 * k) 24
def hFmt (h : Handle) : Nat := hbits h 200 4
def hKind (h : Handle) : Nat := hbits h 204 4
def hLrec (h : Handle) : Nat := hbits h 208 8
def hTrec (h : Handle) : Nat := hbits h 216 16
def hDepth (h : Handle) : Nat := hbits h 232 8
def hD (h : Handle) : Bool := h.getLsbD 240
def hW (h : Handle) : Bool := h.getLsbD 241
def hX (h : Handle) : Bool := h.getLsbD 242
def hP (h : Handle) : Bool := h.getLsbD 243
def hQ (h : Handle) : Bool := h.getLsbD 244
def hScale (h : Handle) : BitVec 5 := BitVec.ofNat 5 (hbits h 248 5)

/-- Replace n bits of a handle from lo by the low n bits of a value. -/
def hput (h : Handle) (lo n v : Nat) : Handle :=
  (h &&& ~~~(BitVec.ofNat 256 (2 ^ n - 1) <<< lo)) ||| (BitVec.ofNat 256 (v % 2 ^ n) <<< lo)

def kPlain : Nat := 0
def kRing : Nat := 1
def kStream : Nat := 2
def kGauge : Nat := 3
def kJoin : Nat := 4
def kWeightStore : Nat := 5
def kLayout : Nat := 6

/-- Where a field code of HSET and HGET lies: lowest bit and width (R68). -/
def fieldAt (code : Nat) : Nat × Nat :=
  match code with
  | 0x00 => (0, 64)
  | 0x01 => (64, 16)
  | 0x02 => (80, 16)
  | 0x03 => (96, 16)
  | 0x04 => (112, 16)
  | 0x05 => (128, 24)
  | 0x06 => (152, 24)
  | 0x07 => (176, 24)
  | 0x08 => (200, 4)
  | 0x09 => (204, 4)
  | 0x0A => (208, 8)
  | 0x0B => (216, 16)
  | 0x0C => (232, 8)
  | 0x0D => (240, 1)
  | 0x0E => (241, 1)
  | 0x0F => (242, 1)
  | 0x10 => (243, 1)
  | 0x11 => (244, 1)
  | 0x12 => (248, 5)
  | 0x20 => (0, 64)
  | 0x21 => (64, 64)
  | 0x22 => (128, 64)
  | _ => (192, 64)

/-- Size of an element in bits (R18); none for an unassigned format. -/
def fmtBits (f : Nat) : Option Nat :=
  match f with
  | 0x0 => some 32
  | 0x1 => some 16
  | 0x2 => some 16
  | 0x3 => some 16
  | 0x4 => some 8
  | 0x5 => some 4
  | 0x6 => some 8
  | 0x7 => some 16
  | 0x8 => some 32
  | 0x9 => some 8
  | _ => none

/-- Size of an element in bytes; INT4 counts as 1 where an alignment is meant. -/
def fmtBytes (f : Nat) : Nat := ((fmtBits f).map (fun b => max 1 (b / 8))).getD 1

/-- The checks of R20 that do not depend on the operand position. -/
def handleOk (h : Handle) : Bool :=
  let k := hKind h
  let f := hFmt h
  if k = kGauge ∨ k = kJoin then true
  else
    decide (k ≤ 6) && decide (f ≤ 9) && (hQ h == (f == 4 || f == 5)) &&
    (!hQ h || decide (hDepth h ≤ 2)) &&
    ((k != kRing && k != kStream) || (hDepth h != 0 && !hQ h)) &&
    (f != 3 || hExt h 0 % 2 == 0)

/-- BASE is aligned as R20 asks. -/
def handleAligned (h : Handle) : Bool :=
  let n := if hKind h = kGauge then 16 else if hKind h = kJoin then 64 else fmtBytes (hFmt h)
  (hBase h).toNat % n == 0

/-- The check of a handle operand (R20): form, a kind that suits the position, alignment. -/
def checkHandle (eng : BitVec 5) (kinds : List Nat) (h : Handle) : Chk Unit :=
  if !(handleOk h && kinds.contains (hKind h)) then trapE eng fHandleForm
  else if !handleAligned h then trapA cAlign (hBase h)
  else .ok ()

/-- An engine word that names a handle with D = 1 traps RECOMPUTE; `info` carries the register (R298). -/
def checkDropped (r : BitVec 5) (h : Handle) : Chk Unit :=
  if hD h then .error (.trap { cause := cRecompute, info := r.setWidth 64 }) else .ok ()

/-! Layout records (R263, R264). -/

/-- A layout record that keeps the limits of R263 for a format. -/
def parseLayout (r : BitVec 512) (fmt : Nat) : Option Layout :=
  let n := r.toNat
  let t0 := bitsOf n 47 32
  let t1 := bitsOf n 63 48
  if bitsOf n 511 128 = 0 ∧ bitsOf n 31 9 = 0 ∧ n % 256 = 1 ∧ 1 ≤ t0 ∧ t0 ≤ 1024 ∧ 1 ≤ t1 ∧ t1 ≤ 1024 ∧
      (fmt = 5 → t0 % 2 = 0) then
    some ⟨t0, t1, bitsOf n 95 64, bitsOf n 127 96, n.testBit 8⟩
  else none

/-- An element index in up to four dimensions. -/
structure Idx where
  i0 : Nat := 0
  i1 : Nat := 0
  i2 : Nat := 0
  i3 : Nat := 0
  deriving DecidableEq, Repr

/-- Inside the extents (R19). -/
def inside (h : Handle) (i : Idx) : Bool :=
  decide (i.i0 < hExt h 0) && decide (i.i1 < hExt h 1) && decide (i.i2 < hExt h 2) && decide (i.i3 < hExt h 3)

/-- Bytes taken by n elements of dimension 0 (INT4: two in a byte). -/
def rowBytes (fmt n : Nat) : Nat := if fmt = 5 then n / 2 else n * fmtBytes fmt

/-- Byte offset of an element from BASE, and its nibble (R19, R264). The spec gives an element of an unassigned FMT no
size; here it counts as one byte (the model's choice, log 66; HEA answers a free value instead). -/
def elemOff (h : Handle) (lay : Option Layout) (i : Idx) : Nat × Nat :=
  let f := hFmt h
  match lay with
  | none =>
    (rowBytes f i.i0 + i.i1 * hStride h 1 + i.i2 * hStride h 2 + i.i3 * hStride h 3,
     if f = 5 then i.i0 % 2 else 0)
  | some l =>
    let j0 := i.i0 % l.t0
    let j1 := i.i1 % l.t1
    let e := if l.byDim1 then j1 + l.t1 * j0 else j0 + l.t0 * j1
    (i.i0 / l.t0 * l.tstr0 + i.i1 / l.t1 * l.tstr1 + rowBytes f e + i.i2 * hStride h 2 + i.i3 * hStride h 3,
     if f = 5 then e % 2 else 0)

/-- The handle addresses no element (R19). -/
def emptyHandle (h : Handle) : Bool :=
  hExt h 0 == 0 || hExt h 1 == 0 || hExt h 2 == 0 || hExt h 3 == 0

/-- One past the highest byte offset an element of the handle takes (R39): under a layout record the highest
element lies in the last or the last but one tile of each tiled dimension. -/
def spanOf (h : Handle) (lay : Option Layout) : Nat :=
  if emptyHandle h then 0
  else
    let last := fun (n t : Nat) => [n - 1, if t = 0 then n - 1 else (n - 1) / t * t - 1]
    let c0 := match lay with | some l => last (hExt h 0) l.t0 | none => [hExt h 0 - 1]
    let c1 := match lay with | some l => last (hExt h 1) l.t1 | none => [hExt h 1 - 1]
    let offs := c0.flatMap (fun a => c1.map (fun b => (elemOff h lay ⟨a, b, hExt h 2 - 1, hExt h 3 - 1⟩).1))
    offs.foldl max 0 + fmtBytes (hFmt h)

/-- An operand's bytes stay within the area of a local BASE and within 57 bits of a global one (R20). -/
def spanFits (base : Word) (n : Nat) : Bool :=
  if isLocal base then localOk base && decide (offsetOf base + n ≤ areaSize base)
  else decide (base.toNat + n ≤ 2 ^ 57)

/-! Records on the record path (R262, R266). -/

/-- The address of layout record n of a context's polder (R262). -/
def State.layoutAddr (s : State) (c n : Nat) : Word :=
  BitVec.ofNat 64 (s.effField 8 (s.polderOf c) 56 8 + 64 * n)

/-- A record read through the core's record cache: where it lies and what it holds (R266). -/
def State.recordAt (s : State) (c : Nat) (a : Word) : Chk (Nat × BitVec 512) :=
  match s.globalAt (s.tableAgent c) .read a with
  | .error e => .error e
  | .ok p =>
    match tblFind (s.core (coreOf c)).recCache p.loc with
    | some r => .ok (p.loc, r)
    | none =>
      if s.poisoned p.loc 64 then trapA cMcheck a
      else .ok (p.loc, BitVec.ofNat 512 (s.seenBytes (coreOf c) p.loc 64))

/-- Keep a record in a core's cache (R266). -/
def State.cacheRecord (s : State) (k loc : Nat) (r : BitVec 512) : State :=
  s.modCore k (fun x => { x with recCache := tblSet x.recCache loc r })

/-- Drop a record from the caches of every core of the package (R266, R268). -/
def State.dropRecord (s : State) (loc : Nat) : State :=
  { s with cores := s.cores.map (fun p => (p.1, { p.2 with recCache := tblDel p.2.recCache loc })) }

/-- The layout of a handle, with what the cache must keep; XLATE, PROT, or HANDLE_FORM where the record
breaks R263. -/
def State.layoutFor (s : State) (c : Nat) (eng : BitVec 5) (h : Handle) :
    Chk (Option (Layout × Nat × BitVec 512)) :=
  if hLrec h = 0 then .ok none
  else match s.recordAt c (s.layoutAddr c (hLrec h)) with
    | .error e => .error e
    | .ok (loc, r) =>
      match parseLayout r (hFmt h) with
      | some l => .ok (some (l, loc, r))
      | none => trapE eng fHandleForm

/-- The live binding that names a handle register, if any (R21, R91). -/
def Ctx.boundBy (x : Ctx) (r : BitVec 5) : Option Nat :=
  (List.range 8).find? (fun n => match x.binds[n]? with
    | some b => b.bound && b.hreg == r
    | none => false)

/-- A word other than HSEQ and SBIND that would write a bound handle register traps (R91). -/
def State.unbound (s : State) (r : BitVec 5) : Chk Unit :=
  need (s.me.boundBy r).isNone (trapE 31#5 fHandleForm)

/-! Busy ranges (R39, R40). -/

/-- The contexts of a core: an operation's core. -/
def Op.core (o : Op) : Nat := coreOf o.ctx

/-- A CFSEL that inserts a drain slot is no operation to its context: no status shows it and nothing waits for it (R200). -/
def Op.silent (o : Op) : Bool :=
  match o.instr with
  | .cfsel _ => true
  | _ => false

/-- An operation or collective of core k, of those that `of` selects by context and number, holds a busy range over the
bytes; one of another engine than `eng` where one is given (R39, R40). -/
def State.rangeOf (s : State) (of : Nat → Nat → Bool) (k : Nat) (eng : Option Nat) (loc n : Nat) : Bool :=
  let hit := fun (e : Nat) (rs : List (Nat × Nat)) =>
    (match eng with | some g => g != e | none => true) && rs.any (fun r => overlaps r.1 r.2 loc n)
  let old := fun (c id : Nat) => coreOf c == k && of c id
  s.ops.any (fun o => old o.ctx o.id && hit o.engine o.ranges) ||
  s.colls.any (fun o => !o.done && old o.ctx o.id && hit 5 o.ranges)

/-- What the current bundle has recorded: accesses and operations by context and number. -/
def State.ofBundle (s : State) (c id : Nat) : Bool := c == s.cur && decide (s.issue ≤ id)

/-- A busy range that a word of the current bundle meets: one of an earlier bundle (R39, R46). -/
def State.rangeBusy (s : State) (k : Nat) (eng : Option Nat) (loc n : Nat) : Bool :=
  s.rangeOf (fun c id => !s.ofBundle c id) k eng loc n

/-- A busy range that an event meets: any in force (R39, R227, R237). -/
def State.rangeHeld (s : State) (k : Nat) (eng : Option Nat) (loc n : Nat) : Bool := s.rangeOf (fun _ _ => true) k eng loc n

/-- Busy ranges of a core in use (R24, R39). -/
def State.rangesUsed (s : State) (k : Nat) : Nat :=
  ((s.ops.filter (fun o => o.core == k)).map (fun o => o.ranges.length)).sum +
  ((s.colls.filter (fun o => !o.done && coreOf o.ctx == k)).map (fun o => o.ranges.length)).sum

/-- Bytes from BASE to the end of a ring's last slot. -/
def ringSpan (h : Handle) (lay : Option Layout) : Nat := 64 + (hDepth h - 1) * hStride h 3 + spanOf h lay

/-- The status of a handle (R88). A layout record that cannot be read, or that breaks R263, counts for BUSY as LREC = 0
would, and an element of an unassigned FMT as one byte (the model's choice, log 66); BASE of a layout-record handle is ignored (R268). -/
def State.handleStatus (s : State) (r : BitVec 5) : Word :=
  let h := s.hr r
  let lay : Option Layout := match s.layoutFor s.cur 31#5 h with
    | .ok (some (l, _, _)) => some l
    | _ => none
  let b := hBase h
  let n := if hKind h = kGauge then 16 else if hKind h = kJoin then 192 else
    if hKind h = kRing ∨ hKind h = kStream then ringSpan h lay else if hKind h = kLayout then 0 else spanOf h lay
  let busy := n != 0 && isLocal b && localOk b && s.rangeBusy (coreOf s.cur) none (spadLoc (coreOf s.cur) b.toNat) n
  let q := s.me.boundBy r
  BitVec.ofNat 64 ((q.getD 0) * 256 + (if q.isSome then 8 else 0) + (if busy then 4 else 0) +
    (if hD h then 2 else 0) + (if handleOk h && decide (hKind h ≤ 6) && handleAligned h then 1 else 0))

end Sys2Proof.Machine
end

