-- ==== Sys2Proof/Machine/Race.lean ====
section
/-! DEFINITION. The race detector (spec 08 R274 to R277): interval clock, horizons, shadow, reports. -/

namespace Sys2Proof.Machine

/-- A scope covers two agents: both lie in one instance of it (R247). Agents are CTX.ID[15:0] values. -/
def scopeCovers (scope x y : Nat) : Bool :=
  match scope with
  | 0 => x == y
  | 1 => x / 4 == y / 4
  | 2 => x / 2 ^ 15 == y / 2 ^ 15 && x / 8 % 32 == y / 8 % 32
  | 3 => x / 2 ^ 15 == y / 2 ^ 15
  | _ => true

/-- A release or an acquire by a context advances the package's interval clock and sets the context's
interval number (R275). -/
def State.newInterval (s : State) (c : Nat) : State :=
  let n := s.intervals + 1
  { s with intervals := n }.modCtx c (fun x => { x with race := { x.race with interval := n.toNat } })

/-- Enter an agent into a horizon: the larger interval stays, the entry becomes the most recent; the
least recent of more than 16 goes and marks an overflow (R276). -/
def Race.learn (r : Race) (agent intv scope : Nat) : Race :=
  let old := r.horizon.find? (fun e => e.1 == agent)
  let rest := r.horizon.filter (fun e => e.1 != agent)
  let e : Nat × Nat × Nat := match old with
    | some o => if o.2.1 > intv then o else (agent, intv, scope)
    | none => (agent, intv, scope)
  let l : List (Nat × Nat × Nat) := rest ++ [e]
  if l.length > 16 then { r with horizon := l.drop 1, overflow := true } else { r with horizon := l }

/-- A fence.acq or fence enters every pending pair (R276). -/
def Race.flush (r : Race) (scope : Nat) : Race :=
  { r.pending.foldl (fun r p => r.learn p.1 p.2 scope) r with pending := [] }

/-- GWAIT, WAITC, JWAIT, GBAR, a collective's completion and the beginning of a launch acquire, and set the floor (R251,
R276). -/
def State.setFloor (s : State) (c scope : Nat) : State :=
  (s.acquired c scope).modCtx c (fun x => { x with race := { x.race with floor := (s.intervals.toNat, scope) } })

/-- An access by a context to a checked sector is reported (R274, R277). -/
def State.races (s : State) (c loc : Nat) (atomic : Bool) : Bool :=
  match tblFind s.raceShadow (loc / 64) with
  | none => false
  | some h =>
    let y := s.agent c
    let r := (s.ctx c).race
    let seen := fun (intv scope : Nat) =>
      decide (h.intv < intv) && scopeCovers scope h.writer y && decide (h.scope ≤ scope)
    if h.writer == 0xFFFF || h.writer == y || (atomic && h.atomic) then false
    else if r.horizon.any (fun e => e.1 == h.writer && seen e.2.1 e.2.2) then false
    else if seen r.floor.1 r.floor.2 then false
    else !(r.overflow && !(r.horizon.any (fun e => e.1 == h.writer)))

/-- The page's accesses are checked (R7, R274, R389). -/
def State.checks (s : State) (l : Leaf) : Bool := s.part.race && l.rc

/-- RACE of a scalar access, precise, where the page does not log; that of a write tells where it would have written
(R277). -/
def State.raceTrap (s : State) (c : Nat) (p : Place) (va : Word) (wr atomic : Bool) : Chk Unit :=
  need (!(s.checks p.leaf && !p.leaf.rl && s.races c p.loc atomic))
    (.error (.trap { cause := cRace, addr := va, wrote := if wr then some (p.loc, atomic) else none }))

/-- The log record of a report, appended to the polder's race-log ring (R277, R278); a ring of size 0 or one
that cannot be written takes none. -/
def State.raceLog (s : State) (c : Nat) (va : Word) (h : Shadow) (wr : Bool) : State :=
  let p := s.effPolder 9 (s.polderOf c)
  let size := s.polField p 80 1
  let k := tblGet s.raceLogs p 0
  let a := BitVec.ofNat 64 (s.polField p 72 8 + 32 * (k % 2 ^ size))
  if size = 0 then s
  else match s.globalAt (s.tableAgent c) .write a with
    | .error _ => s
    | .ok q =>
      let v := va.toNat * 2 ^ 192 + s.time % 2 ^ 64 * 2 ^ 128 + h.intv * 2 ^ 96 + h.writer * 2 ^ 80 +
        s.agent c * 2 ^ 64 + h.scope * 2 ^ 8 + (if wr then 1 else 0)
      { s.store q.loc 32 v with raceLogs := tblSet s.raceLogs p (k + 1) }

/-- The report of an access that goes on, where the page logs (R277). -/
def State.raceNote (s : State) (c : Nat) (p : Place) (va : Word) (wr atomic : Bool) : State :=
  if s.checks p.leaf && s.races c p.loc atomic then
    match tblFind s.raceShadow (p.loc / 64) with
    | some h => s.raceLog c va h wr
    | none => s
  else s

/-- The interval number that a write by a context to a checked page carries (R275). -/
def State.noteOf (s : State) (c : Nat) (p : Place) : Option Nat :=
  if s.checks p.leaf then some (s.ctx c).race.interval else none

/-- An atomic that reads a checked sector records the pair of its shadow as pending (R276). -/
def State.pendPair (s : State) (c loc : Nat) : State :=
  match tblFind s.raceShadow (loc / 64) with
  | some h => s.modCtx c (fun x => { x with race := { x.race with pending := x.race.pending ++ [(h.writer, h.intv)] } })
  | none => s

/-- A release by another agent than a context advances the package's interval clock (R275). -/
def State.tickInterval (s : State) : State := { s with intervals := s.intervals + 1 }

/-- A write by the host or a fabric peer to a checked sector is never reported: WRITER 0xFFFF (R274). The
sector has a shadow only where a checked access has made one. -/
def State.raceForeign (s : State) (loc : Nat) : State :=
  match tblFind s.raceShadow (loc / 64) with
  | none => s
  | some h => { s with raceShadow := tblSet s.raceShadow (loc / 64) { h with writer := 0xFFFF } }

end Sys2Proof.Machine
end

