-- ==== Sys2Proof/Machine/LoadStore.lean ====
section
/-! DEFINITION. Scalar and handle loads and stores, HDROP and the atomics (spec 03 R81 to R85, R92). A local
access is performed at its step; a global one is queued in issue order and performed or returned by an
event of its own (STORE_PERFORMED, LOAD_DATA_RETURN). -/

namespace Sys2Proof.Machine

/-- Where a scalar access lands: in the core's scratchpad or in global memory. -/
inductive Target where
  | near (loc : Nat)
  | far (p : Place)
  deriving DecidableEq, Repr

def Target.loc : Target → Nat
  | .near l => l
  | .far p => p.loc

/-- The checks of a scalar access of n bytes, in the order of R81: alignment, address, translation,
protection, version, race. -/
def State.scalarAt (s : State) (acc : Acc) (atomic : Bool) (a : Word) (n : Nat) : Chk Target :=
  if a.toNat % n ≠ 0 then trapA cAlign a
  else if isLocal a then
    match s.localAt s.cur (coreOf s.cur) a n with
    | .ok l => .ok (.near l)
    | .error e => .error e
  else
    match s.globalAt (s.agentOf s.cur) acc a with
    | .error e => .error e
    | .ok p =>
      match s.raceTrap s.cur p a (acc == .write) atomic with
      | .error e => .error e
      | .ok _ => .ok (.far p)

/-- A local access waits while any busy range covers its bytes (R40); a read of a byte with an uncorrectable
error then traps MCHECK (R82). -/
def State.localReady (s : State) (t : Target) (reads : Bool) (a : Word) (n : Nat) : Chk Unit :=
  match t with
  | .far _ => .ok ()
  | .near l =>
    if s.rangeBusy (coreOf s.cur) none l n then .error .wait
    else if reads && s.poisoned l n then trapA cMcheck a
    else .ok ()

/-- Both of the above. -/
def State.scalarAccess (s : State) (acc : Acc) (atomic reads : Bool) (a : Word) (n : Nat) : Chk Target :=
  match s.scalarAt acc atomic a n with
  | .error e => .error e
  | .ok t =>
    match s.localReady t reads a n with
    | .error e => .error e
    | .ok _ => .ok t

/-- Extend n bytes read to 64 bits (R81, R92). -/
def extend (signed : Bool) (n v : Nat) : Word :=
  match n with
  | 1 => if signed then (BitVec.ofNat 8 v).signExtend 64 else BitVec.ofNat 64 (v % 2 ^ 8)
  | 2 => if signed then (BitVec.ofNat 16 v).signExtend 64 else BitVec.ofNat 64 (v % 2 ^ 16)
  | 4 => if signed then (BitVec.ofNat 32 v).signExtend 64 else BitVec.ofNat 64 (v % 2 ^ 32)
  | _ => BitVec.ofNat 64 v

/-- Queue a variable-latency write of the current context (R34, R47); `lost` where its data will return with
an uncorrectable error. -/
def State.pendLoad (s : State) (f : RegFile) (r : BitVec 5) (kind : LoadKind) (a : Word)
    (lost : Bool := false) (note : Option Nat := none) : State :=
  let (id, s) := s.fresh
  let l : PendLoad := ⟨id, s.cur, f, r, kind, a, s.time, lost, note, s.tick⟩
  { s with loads := s.loads ++ [l] }.modMe (fun x => x.claim f r)

/-- A global store joins the context's stores not yet performed (R249). -/
def State.pendStore (s : State) (a : Word) (loc n v : Nat) (note : Option Nat := none) : State :=
  let (id, s) := s.fresh
  let node := if loc / 2 ^ 50 = 3 then some (loc / 2 ^ 42 % 256) else none
  let w : PendStore := ⟨id, s.cur, a, loc, n, v % 2 ^ (8 * n), node, 0, [], note, s.tick⟩
  { s with stores := s.stores ++ [w] }

/-- A load of n bytes (R81). -/
def State.loadOp (s : State) (d : BitVec 5) (a : Word) (n : Nat) (signed : Bool) :
    Host.Outcome State Fault Refusal :=
  perform (s.scalarAccess .read false true a n) (fun t =>
    match t with
    | .near l => s.put d (extend signed n (memRead s.mem l n)) 5
    | .far p => (s.raceNote s.cur p a false false).pendLoad .scalar d (.mem p.loc n signed) a) s

/-- A store of the low n bytes of v (R81). -/
def State.storeOp (s : State) (v : Nat) (a : Word) (n : Nat) : Host.Outcome State Fault Refusal :=
  perform (s.scalarAccess .write false false a n) (fun t =>
    match t with
    | .near l => s.store l n v
    | .far p => (s.raceNote s.cur p a true false).pendStore a p.loc n v (s.noteOf s.cur p)) s

def execLdB (d : BitVec 5) (b : BitVec 5) (o : BitVec 10) (s : State) : Host.Outcome State Fault Refusal :=
  s.loadOp d (memAddr (s.sr b) o 0) 1 true
def execLdH (d : BitVec 5) (b : BitVec 5) (o : BitVec 10) (s : State) : Host.Outcome State Fault Refusal :=
  s.loadOp d (memAddr (s.sr b) o 1) 2 true
def execLdW (d : BitVec 5) (b : BitVec 5) (o : BitVec 10) (s : State) : Host.Outcome State Fault Refusal :=
  s.loadOp d (memAddr (s.sr b) o 2) 4 true
def execLdD (d : BitVec 5) (b : BitVec 5) (o : BitVec 10) (s : State) : Host.Outcome State Fault Refusal :=
  s.loadOp d (memAddr (s.sr b) o 3) 8 true
def execLdBu (d : BitVec 5) (b : BitVec 5) (o : BitVec 10) (s : State) : Host.Outcome State Fault Refusal :=
  s.loadOp d (memAddr (s.sr b) o 0) 1 false
def execLdHu (d : BitVec 5) (b : BitVec 5) (o : BitVec 10) (s : State) : Host.Outcome State Fault Refusal :=
  s.loadOp d (memAddr (s.sr b) o 1) 2 false
def execLdWu (d : BitVec 5) (b : BitVec 5) (o : BitVec 10) (s : State) : Host.Outcome State Fault Refusal :=
  s.loadOp d (memAddr (s.sr b) o 2) 4 false
def execStB (d : BitVec 5) (b : BitVec 5) (o : BitVec 10) (s : State) : Host.Outcome State Fault Refusal :=
  s.storeOp (s.sr d).toNat (memAddr (s.sr b) o 0) 1
def execStH (d : BitVec 5) (b : BitVec 5) (o : BitVec 10) (s : State) : Host.Outcome State Fault Refusal :=
  s.storeOp (s.sr d).toNat (memAddr (s.sr b) o 1) 2
def execStW (d : BitVec 5) (b : BitVec 5) (o : BitVec 10) (s : State) : Host.Outcome State Fault Refusal :=
  s.storeOp (s.sr d).toNat (memAddr (s.sr b) o 2) 4
def execStD (d : BitVec 5) (b : BitVec 5) (o : BitVec 10) (s : State) : Host.Outcome State Fault Refusal :=
  s.storeOp (s.sr d).toNat (memAddr (s.sr b) o 3) 8

/-! Reads that see the context's own earlier stores (R83). -/

/-- The byte at a location as a context sees it: its latest earlier store not yet performed at any wider scope, else
what its core sees (R246). -/
def State.viewByte (s : State) (c id a : Nat) : Byte :=
  match s.lastStore (fun w => w.level == 0 && w.ctx == c && decide (w.id < id)) a with
  | some b => b
  | none => s.seenByte (coreOf c) a

/-- The n bytes from a location as a context's access with number id sees them. -/
def State.view (s : State) (c id a : Nat) : Nat → Nat
  | 0 => 0
  | n + 1 => (s.viewByte c id a).toNat + 256 * s.view c id (a + 1) n

/-- The bytes an access not yet returned reads, if it reads any. -/
def LoadKind.range : LoadKind → Option (Nat × Nat)
  | .mem l n _ => some (l, n)
  | .atomic _ l n _ _ => some (l, n)
  | .value _ | .handle _ _ => none
  | .arrival => none

/-- The location an access not yet returned names, if any. -/
def LoadKind.place : LoadKind → Option Nat
  | .mem l _ _ | .atomic _ l _ _ _ | .handle _ l => some l
  | .value _ | .arrival => none

/-- The access goes through the window to another module (R326). -/
def PendLoad.remote (l : PendLoad) : Bool := l.kind.place.any (fun a => a / 2 ^ 50 == 3)

def LoadKind.isAtomic : LoadKind → Bool
  | .atomic _ _ _ _ _ => true
  | _ => false

/-- An earlier access of a context, by number, that touches bytes [a, a + n) and has not returned. -/
def State.olderLoad (s : State) (c id a n : Nat) : Bool :=
  s.loads.any (fun l => l.ctx == c && decide (l.id < id) &&
    match l.kind.range with
    | some (b, m) => overlaps a n b m
    | none => false)

/-! Handle loads and stores (R84, R85). -/

/-- What HLD loads: the 32 bytes, reserved bits as 0 (R10, R17), with D raised by the DROPPED bit of the tensor record
that a nonzero TREC names; with it what the record cache must keep (R84). The record is read at its address also where TREC
lies beyond the polder's count of tensor records (the model's choice, log 66). -/
def State.hldValue (s : State) (v : Handle) : Chk (Handle × Option (Nat × BitVec 512)) :=
  let v := cleanHandle v
  if hTrec v = 0 then .ok (v, none)
  else match s.recordAt s.cur (s.tensorAddr s.cur (hTrec v)) with
    | .error e => .error e
    | .ok (loc, r) => .ok (if r.getLsbD 384 then v ||| (1#256 <<< 240) else v, some (loc, r))

/-- HLD (R84). The bytes of a global one are read as it issues, since its tensor record's faults are precise; it
waits first while an earlier access of its context to them has not returned, or a busy range covers them (R40, R83, R246;
log 24). Bytes with an uncorrectable error name no record (R82). -/
def execHld (d : BitVec 5) (b : BitVec 5) (o : BitVec 10) (s : State) : Host.Outcome State Fault Refusal :=
  let a := memAddr (s.sr b) o 5
  perform (do
    s.unbound d
    let t ← s.scalarAt .read false a 32
    await (!s.olderLoad s.cur s.seq t.loc 32)
    s.localReady t true a 32
    let v ← if s.poisoned t.loc 32 then pure (0, none) else s.hldValue (BitVec.ofNat 256 (s.view s.cur s.seq t.loc 32))
    pure (t, v)) (fun (t, v, keep) =>
      let s := match keep with
        | some (loc, r) => s.cacheRecord (coreOf s.cur) loc r
        | none => s
      match t with
      | .near _ => s.modMe (fun x => x.putH d v 6)
      | .far p => ((s.raceNote s.cur p a false false).observe s.cur p.loc 32).pendLoad .handle d (.handle v p.loc) a
          (s.poisoned p.loc 32)) s

def execHst (d : BitVec 5) (b : BitVec 5) (o : BitVec 10) (s : State) : Host.Outcome State Fault Refusal :=
  s.storeOp (s.hr d).toNat (memAddr (s.sr b) o 5) 32

/-- HDROP: bytes 40 to 48 of the tensor record, PRODUCER and the DROPPED bit, as one global store (R85, R265,
R266). The store rewrites the other bits of byte 48, RECOMP among them, as the context saw them at issue (the model's
choice, log 66). -/
def execHdrop (d : BitVec 5) (b : BitVec 5) (s : State) : Host.Outcome State Fault Refusal :=
  let n := (s.sr d).toNat
  let l := s.sr b
  let cnt := s.effField 8 (s.polderOf s.cur) 50 2
  perform (do
    need (!isLocal l && l.toNat % 64 == 0) (trapA cAlign l)
    need (decide (1 ≤ n) && decide (n ≤ cnt)) (trapC cProt)
    let a := s.tensorAddr s.cur n
    let p ← s.globalAt (s.tableAgent s.cur) .write a
    s.raceTrap s.cur { p with loc := p.loc + 40 } (a + 40#64) true false
    pure (a, p)) (fun (a, p) =>
      let old := (s.view s.cur s.seq (p.loc + 48) 1)
      (s.raceNote s.cur { p with loc := p.loc + 40 } (a + 40#64) true false).pendStore (a + 40#64) (p.loc + 40) 9
        (l.toNat + 2 ^ 64 * (old ||| 1)) (s.noteOf s.cur p)) s

/-! Atomics (R61, R92). -/

/-- The new value of an atomic over n bytes (R92); `v` is the operand, `cmp` the comparison value. -/
def atomicNew (op n : Nat) (old v cmp : Nat) : Nat :=
  let w := 2 ^ (8 * n)
  let v := v % w
  let sg := fun (x : Nat) => if 2 * x < w then (x : Int) else (x : Int) - w
  match op with
  | 0 => (old + v) % w
  | 1 => old &&& v
  | 2 => old ||| v
  | 3 => old ^^^ v
  | 4 => if sg old < sg v then old else v
  | 5 => if sg old < sg v then v else old
  | 6 => min old v
  | 7 => max old v
  | 8 => v
  | _ => if old = cmp % w then v else old

/-- An atomic of the host window travels as an AtomicOp request (R370). -/
def State.requestAtomic (s : State) (op loc n : Nat) (v cmp : Word) : State :=
  if loc / 2 ^ 50 = 2 then s.emit (.atomicRequest s.seq op (loc % 2 ^ 50) n v cmp) else s

/-- An atomic of n = 4 or 8 bytes (R92). A local one is performed at its step; a global one when its data
return. The host window takes only aadd, aswap and acas (R370). -/
def State.atomicOp (s : State) (op : Nat) (d a b : BitVec 5) (z : BitVec 1) :
    Host.Outcome State Fault Refusal :=
  let n := if z = 0#1 then 4 else 8
  let va := s.sr a
  perform (do
    let t ← s.scalarAt .write true va n
    need (!(t.loc / 2 ^ 50 == 2 && !(isLocal va) && !(op == 0 || op == 8 || op == 9))) (trapA cProt va)
    s.localReady t true va n
    pure t) (fun t =>
      match t with
      | .near l =>
        let old := memRead s.mem l n
        (s.store l n (atomicNew op n old (s.sr b).toNat (s.sr d).toNat)).put d (extend true n old) 5
      | .far p =>
        (s.requestAtomic op p.loc n (s.sr b) (s.sr d)).raceNote s.cur p va true true
          |>.pendLoad .scalar d (.atomic op p.loc n (s.sr b) (s.sr d)) va
          (note := s.noteOf s.cur p)) s

def execAadd (d : BitVec 5) (a : BitVec 5) (b : BitVec 5) (z : BitVec 1) (s : State) : Host.Outcome State Fault Refusal :=
  s.atomicOp 0 d a b z
def execAand (d : BitVec 5) (a : BitVec 5) (b : BitVec 5) (z : BitVec 1) (s : State) : Host.Outcome State Fault Refusal :=
  s.atomicOp 1 d a b z
def execAor (d : BitVec 5) (a : BitVec 5) (b : BitVec 5) (z : BitVec 1) (s : State) : Host.Outcome State Fault Refusal :=
  s.atomicOp 2 d a b z
def execAxor (d : BitVec 5) (a : BitVec 5) (b : BitVec 5) (z : BitVec 1) (s : State) : Host.Outcome State Fault Refusal :=
  s.atomicOp 3 d a b z
def execAmin (d : BitVec 5) (a : BitVec 5) (b : BitVec 5) (z : BitVec 1) (s : State) : Host.Outcome State Fault Refusal :=
  s.atomicOp 4 d a b z
def execAmax (d : BitVec 5) (a : BitVec 5) (b : BitVec 5) (z : BitVec 1) (s : State) : Host.Outcome State Fault Refusal :=
  s.atomicOp 5 d a b z
def execAminu (d : BitVec 5) (a : BitVec 5) (b : BitVec 5) (z : BitVec 1) (s : State) : Host.Outcome State Fault Refusal :=
  s.atomicOp 6 d a b z
def execAmaxu (d : BitVec 5) (a : BitVec 5) (b : BitVec 5) (z : BitVec 1) (s : State) : Host.Outcome State Fault Refusal :=
  s.atomicOp 7 d a b z
def execAswap (d : BitVec 5) (a : BitVec 5) (b : BitVec 5) (z : BitVec 1) (s : State) : Host.Outcome State Fault Refusal :=
  s.atomicOp 8 d a b z
def execAcas (d : BitVec 5) (a : BitVec 5) (b : BitVec 5) (z : BitVec 1) (s : State) : Host.Outcome State Fault Refusal :=
  s.atomicOp 9 d a b z

/-! Returns and performed stores (R34, R82, R83, R249). -/

/-- An earlier store of a context, by number, to bytes [a, a + n) that is not yet performed. -/
def State.olderStore (s : State) (c id a n : Nat) : Bool :=
  s.stores.any (fun w => w.ctx == c && decide (w.id < id) && overlaps a n w.loc w.size)

/-- A location in the memory of a module that is no member of the group: no answer comes from there (R325, R342). -/
def State.offGroup (s : State) (loc : Nat) : Bool := loc / 2 ^ 50 == 3 && !s.fabric.members.contains (loc / 2 ^ 42 % 256)

/-- A store to bytes [a, a + n) that a context sees is not yet performed at package scope. -/
def State.layered (s : State) (c a n : Nat) : Bool :=
  s.stores.any (fun w => w.level != 0 && sameInstance w.level w.ctx c && overlaps a n w.loc w.size)

/-- The data of a pending load may return: the context's earlier accesses to its bytes have taken effect;
an earlier store need only be visible to the context itself unless the load is an atomic, which reads and writes
package memory (R83, R92, R246). The memory of an evicted module does not answer (R325, R342), and an access through
the window has a millisecond (R326). -/
def State.mayReturn (s : State) (l : PendLoad) : Bool :=
  !(l.remote && decide (l.issued + 1000000 ≤ s.time)) &&
  match l.kind.range with
  | none => l.kind != .arrival && !(l.kind.place.any s.offGroup)
  | some (a, n) => !s.offGroup a && !s.olderLoad l.ctx l.id a n &&
      !(l.kind.isAtomic && (s.olderStore l.ctx l.id a n || s.layered l.ctx a n))

/-- A request to a peer's memory leaves the module, in pieces of up to 8 bytes: operation 0 reads, 1 writes, 2 + k
is the atomic k (R325, R326). -/
def State.toPeer (s : State) (op loc n data cmp : Nat) : State :=
  if loc / 2 ^ 50 = 3 then
    (List.range ((n + 7) / 8)).foldl (fun (s : State) i =>
      s.emit (.windowRequest (loc / 2 ^ 42 % 256) op (loc % 2 ^ 42 + 8 * i) (min 8 (n - 8 * i))
        (BitVec.ofNat 64 (data / 2 ^ (64 * i))) (BitVec.ofNat 64 cmp))) s
  else s

/-- What a load brings, and the memory an atomic leaves. -/
def State.returned (s : State) (l : PendLoad) : Handle × State :=
  match l.kind with
  | .mem a n sg => ((extend sg n (s.view l.ctx l.id a n)).setWidth 256, s.toPeer 0 a n 0 0)
  | .atomic op a n v cmp =>
    let old := memRead s.mem a n
    ((extend true n old).setWidth 256,
     (s.store a n (atomicNew op n old v.toNat cmp.toNat)).toPeer (op + 2) a n v.toNat cmp.toNat)
  | .value v => (v, s)
  | .handle v a => (v, s.toPeer 0 a 32 0 0)
  | .arrival => (0, s)

/-- What a load that returns tells the ordering of others: the stores it read are observed (R251), and an atomic on a
checked page meets the sector's shadow and leaves its own (R275, R276). -/
def State.noteReturn (s : State) (l : PendLoad) : State :=
  let s := match l.kind.range with
    | some (a, n) => s.observe l.ctx a n
    | none => s
  match l.kind.range, l.note with
  | some (a, _), some i => (s.pendPair l.ctx a).shade l.ctx a i true
  | _, _ => s

/-- The load meets an uncorrectable error (R82). -/
def State.loadError (s : State) (l : PendLoad) : Bool :=
  l.lost || (match l.kind.range with | some (a, n) => s.poisoned a n | none => false)

/-- The data of a load land, or return with an error: then the busy bit stays, the error is attached to it
and logged (R82). -/
def State.landLoad (s : State) (l : PendLoad) : State :=
  let t := { s with loads := s.loads.filter (fun k => k.id != l.id) }
  if s.loadError l then
    (t.modCtx l.ctx (fun x => if x.busy l.file l.reg
      then { x with busyErr := x.busyErr ++ [(l.file, l.reg, l.addr)] } else x)).logError 2 (s.physical l.ctx l.addr) 0
        (coreOf l.ctx) (l.ctx % 4) 0
  else
    let (v, t) := (t.noteReturn l).returned l
    t.modCtx l.ctx (fun x => (x.land ⟨l.file, l.reg, v, 0⟩).setBusy l.file l.reg false)

/-- LOAD_DATA_RETURN (R34, R82, R83). -/
def execLoadDataReturn (id : Nat) (s : State) : Host.Outcome State Fault Refusal :=
  happen (match s.loads.find? (fun l => l.id == id) with
    | some l => if s.mayReturn l then s.landLoad l else s
    | none => s)

/-- A pending store may be performed at the next wider scope: the context's earlier accesses to its bytes have taken
effect (R83), and so have the stores to them that came before it to the scope it stands at (R246). -/
def State.mayPerform (s : State) (w : PendStore) : Bool :=
  !s.olderLoad w.ctx w.id w.loc w.size &&
  !((s.stores.takeWhile (fun v => v.id != w.id)).any (fun v =>
    v.level == w.level && sameInstance w.level v.ctx w.ctx && overlaps v.loc v.size w.loc w.size))

/-- The write of a store reaches the shadow of its sector, if its page is checked (R275). -/
def State.shadeStore (s : State) (w : PendStore) : State :=
  match w.note with
  | some i => s.shade w.ctx w.loc i false
  | none => s

/-- STORE_PERFORMED: a store is performed at core, cluster and cube scope in turn, last in the order of each, and
then at package scope and, unless it is on its way to a peer, beyond (R83, R246, R247, R249; log 3). -/
def execStorePerformed (id : Nat) (s : State) : Host.Outcome State Fault Refusal :=
  happen (match s.stores.find? (fun w => w.id == id) with
    | some w =>
      if !s.mayPerform w then s
      else
        let rest := s.stores.filter (fun v => v.id != id)
        if w.level < 3 then
          let s := { s with stores := rest ++ [{ w with level := w.level + 1 }] }
          if w.level = 2 then s.shadeStore w else s
        else (({ s with stores := rest }.store w.loc w.size w.data).toPeer 1 w.loc w.size w.data 0).shadeStore w
    | none => s)

end Sys2Proof.Machine
end

