-- ==== Sys2Proof/Machine/Numbers.lean ====
section
/-! DEFINITION. Number formats and exact arithmetic (spec 04 R119 to R136): a floating value is taken apart
into an exact fraction, computed with exactly, and rounded once. -/

namespace Sys2Proof.Machine

/-- A floating format: widths of the exponent and of the fraction (R119). -/
structure FFmt where
  eb : Nat
  fb : Nat
  deriving DecidableEq, Repr

def fp32 : FFmt := ⟨8, 23⟩
def fp16 : FFmt := ⟨5, 10⟩
def bf16 : FFmt := ⟨8, 7⟩

/-- The floating format of an FMT code (R18); each part of a complex element is a BF16 value (R130). -/
def ffmtOf (f : Nat) : Option FFmt :=
  match f with
  | 0 => some fp32
  | 1 => some fp16
  | 2 => some bf16
  | 3 => some bf16
  | _ => none

/-- An exact value: a NaN, an infinity, or (−1)^neg · n / d; a zero keeps its sign. -/
inductive Num where
  | nan
  | inf (neg : Bool)
  | fin (neg : Bool) (n d : Nat)
  deriving DecidableEq, Repr

/-- Rounding modes (R122). -/
inductive Rnd where
  | rne
  | rz
  | ru
  | rd
  deriving DecidableEq, Repr

/-- The mode an `r` field names (R70). -/
def rndOf (r : BitVec 2) : Rnd :=
  match r.toNat with
  | 0 => .rne
  | 1 => .rz
  | 2 => .ru
  | _ => .rd

def FFmt.bias (f : FFmt) : Nat := 2 ^ (f.eb - 1) - 1
/-- The encoding of +infinity (R120). -/
def FFmt.infBits (f : FFmt) : Nat := (2 ^ f.eb - 1) * 2 ^ f.fb
def FFmt.signBit (f : FFmt) : Nat := 2 ^ (f.eb + f.fb)
/-- The canonical NaN (R120). -/
def FFmt.nanBits (f : FFmt) : Nat := f.infBits + 2 ^ (f.fb - 1)

/-- The value of an encoding (R119 to R121). -/
def FFmt.value (f : FFmt) (b : Nat) : Num :=
  let neg := b.testBit (f.eb + f.fb)
  let e := b / 2 ^ f.fb % 2 ^ f.eb
  let m := b % 2 ^ f.fb
  if e = 2 ^ f.eb - 1 then (if m = 0 then .inf neg else .nan)
  else
    let sig := if e = 0 then m else m + 2 ^ f.fb
    let p := max e 1
    let q := f.bias + f.fb
    if q ≤ p then .fin neg (sig * 2 ^ (p - q)) 1 else .fin neg sig (2 ^ (q - p))

/-- n / d rounded to an integer under a mode, for a value of the sign given (R122). -/
def roundFrac (m : Rnd) (neg : Bool) (n d : Nat) : Nat :=
  let q := n / d
  let r := n % d
  let up := match m with
    | .rne => decide (d < 2 * r) || (decide (2 * r = d) && q % 2 == 1)
    | .rz => false
    | .ru => !neg && r != 0
    | .rd => neg && r != 0
  if up then q + 1 else q

/-- floor(log2(n / d)) + 2^16, for n, d > 0: kept positive. -/
def log2Frac (n d : Nat) : Nat :=
  let k := 2 ^ 16 + n.log2 - d.log2
  let below := if 2 ^ 16 ≤ k then decide (n < d * 2 ^ (k - 2 ^ 16)) else decide (n * 2 ^ (2 ^ 16 - k) < d)
  if below then k - 1 else k

/-- The encoding of (−1)^neg · n / d rounded once (R122). The fraction is measured in units of the
format's last place at its exponent; a carry out of the fraction raises the exponent field. -/
def FFmt.round (f : FFmt) (m : Rnd) (neg : Bool) (n d : Nat) : Nat :=
  let s := if neg then f.signBit else 0
  if n = 0 then s
  else
    let k := max (log2Frac n d) (2 ^ 16 + 1 - f.bias)
    let up := 2 ^ 16 + f.fb
    let mant := if k ≤ up then roundFrac m neg (n * 2 ^ (up - k)) d else roundFrac m neg n (d * 2 ^ (k - up))
    let b := (k - (2 ^ 16 + 1 - f.bias)) * 2 ^ f.fb + mant
    if b < f.infBits then s + b
    else match m, neg with
      | .rne, _ => s + f.infBits
      | .ru, false => f.infBits
      | .rd, true => s + f.infBits
      | _, _ => s + f.infBits - 1

/-- The encoding a value is delivered as (R121, R122). -/
def Num.bits (f : FFmt) (m : Rnd) (x : Num) : Nat :=
  match x with
  | .nan => f.nanBits
  | .inf neg => (if neg then f.signBit else 0) + f.infBits
  | .fin neg n d => f.round m neg n d

/-- rne of a format, as a value again (R11). -/
def Num.rne (f : FFmt) (x : Num) : Num := f.value (x.bits f .rne)
/-- rne32 (R11, R122). -/
def Num.r32 (x : Num) : Num := x.rne fp32

/-! Exact arithmetic (R122). -/

def Num.zero : Num := .fin false 0 1
def Num.ofNat (n : Nat) : Num := .fin false n 1
def Num.ofInt (i : Int) : Num := .fin (i < 0) i.natAbs 1

def Num.neg (x : Num) : Num :=
  match x with
  | .nan => .nan
  | .inf s => .inf (!s)
  | .fin s n d => .fin (!s) n d

def Num.abs (x : Num) : Num :=
  match x with
  | .nan => .nan
  | .inf _ => .inf false
  | .fin _ n d => .fin false n d

/-- The exact sum: two zeros of one sign keep it, x + (−x) is +0 (R122). -/
def Num.add (x y : Num) : Num :=
  match x, y with
  | .nan, _ => .nan
  | _, .nan => .nan
  | .inf s, .inf t => if s = t then .inf s else .nan
  | .inf s, _ => .inf s
  | _, .inf t => .inf t
  | .fin s n d, .fin t m e =>
    let a := n * e
    let b := m * d
    if s = t then .fin s (a + b) (d * e)
    else if b < a then .fin s (a - b) (d * e)
    else if a < b then .fin t (b - a) (d * e)
    else .fin false 0 1

def Num.sub (x y : Num) : Num := x.add y.neg

def Num.isZero (x : Num) : Bool :=
  match x with
  | .fin _ n _ => n == 0
  | _ => false

def Num.isNeg (x : Num) : Bool :=
  match x with
  | .nan => false
  | .inf s => s
  | .fin s _ _ => s

def Num.mul (x y : Num) : Num :=
  match x, y with
  | .nan, _ => .nan
  | _, .nan => .nan
  | .fin s n d, .fin t m e => .fin (s != t) (n * m) (d * e)
  | _, _ => if x.isZero || y.isZero then .nan else .inf (x.isNeg != y.isNeg)

/-- The exact quotient, with IEEE 754's results at zeros and infinities. -/
def Num.div (x y : Num) : Num :=
  match x, y with
  | .nan, _ => .nan
  | _, .nan => .nan
  | .inf _, .inf _ => .nan
  | .inf s, .fin t _ _ => .inf (s != t)
  | .fin s _ _, .inf t => .fin (s != t) 0 1
  | .fin s n d, .fin t m e =>
    if m = 0 then (if n = 0 then .nan else .inf (s != t)) else .fin (s != t) (n * e) (d * m)

/-- x < y; false where either is a NaN. -/
def Num.lt (x y : Num) : Bool :=
  match x, y with
  | .nan, _ => false
  | _, .nan => false
  | .inf s, .inf t => s && !t
  | .inf s, _ => s
  | _, .inf t => !t
  | .fin s n d, .fin t m e =>
    let a := n * e
    let b := m * d
    match s, t with
    | false, false => decide (a < b)
    | true, true => decide (b < a)
    | true, false => decide (0 < a + b)
    | false, true => false

def Num.isNan (x : Num) : Bool :=
  match x with
  | .nan => true
  | _ => false

def Num.isFin (x : Num) : Bool :=
  match x with
  | .fin _ _ _ => true
  | _ => false

/-- Equal as numbers: +0 equals −0, a NaN equals nothing. -/
def Num.eqv (x y : Num) : Bool := !x.isNan && !y.isNan && !x.lt y && !y.lt x

/-- IEEE maximum and minimum: a NaN wins, +0 is above −0 (R137). -/
def Num.maximum (x y : Num) : Num :=
  if x.isNan || y.isNan then .nan
  else if x.lt y then y else if y.lt x then x else if x.isNeg then y else x
def Num.minimum (x y : Num) : Num :=
  if x.isNan || y.isNan then .nan
  else if x.lt y then x else if y.lt x then y else if x.isNeg then x else y

/-- A finite value rounded to an integer under a mode (R126). -/
def Num.toInt (m : Rnd) (x : Num) : Int :=
  match x with
  | .fin s n d => let v := roundFrac m s n d; if s then -(v : Int) else v
  | _ => 0

/-- floor of a finite value. -/
def Num.floor (x : Num) : Int := x.toInt .rd

def clampInt (v lo hi : Int) : Int := max lo (min v hi)

/-- Floating to integer (R126). -/
def Num.toRange (m : Rnd) (lo hi : Int) (x : Num) : Int :=
  match x with
  | .nan => 0
  | .inf s => if s then lo else hi
  | .fin _ _ _ => clampInt (x.toInt m) lo hi

/-! Integer formats (R124). -/

/-- Width and signedness of an integer FMT code. -/
def ifmtOf (f : Nat) : Option (Nat × Bool) :=
  match f with
  | 6 => some (8, true)
  | 7 => some (16, true)
  | 8 => some (32, true)
  | 9 => some (8, false)
  | _ => none

/-- The integer an encoding of n bits stands for. -/
def intOf (n : Nat) (signed : Bool) (b : Nat) : Int :=
  let v := b % 2 ^ n
  if signed && decide (2 ^ n ≤ 2 * v) then (v : Int) - 2 ^ n else v

/-- The n-bit encoding of an integer, modulo 2^n. -/
def intBits (n : Nat) (v : Int) : Nat := (v % 2 ^ n).toNat

def rangeOf (n : Nat) (signed : Bool) : Int × Int :=
  if signed then (-(2 ^ (n - 1)), 2 ^ (n - 1) - 1) else (0, 2 ^ n - 1)

/-- The element's bits in one FMT as the nearest in another (R125, R126). UINT8 to INT8 clamps to the range of INT8: a value
from 128 on becomes 127 (the model's choice, log 66). -/
def convert (m : Rnd) (src dst b : Nat) : Nat :=
  match ffmtOf src, ffmtOf dst with
  | some f, some g =>
    if src = dst then (if (f.value b).isNan then f.nanBits else b) else (f.value b).bits g m
  | some f, none =>
    match ifmtOf dst with
    | some (n, sg) => let (lo, hi) := rangeOf n sg; intBits n ((f.value b).toRange m lo hi)
    | none => 0
  | none, some g =>
    match ifmtOf src with
    | some (n, sg) => (Num.ofInt (intOf n sg b)).bits g m
    | none => 0
  | none, none =>
    match ifmtOf src, ifmtOf dst with
    | some (n, sg), some (k, sh) => let (lo, hi) := rangeOf k sh; intBits k (clampInt (intOf n sg b) lo hi)
    | _, _ => 0

/-! Quantised formats (R127, R128, R131, R132). -/

/-- Elements of a group for a DEPTH code (R18, R128). -/
def groupSize (depth : Nat) : Nat := 32 * 2 ^ depth

/-- Scale and zero point of a group record (R128). -/
def recScale (rec_ : Nat) : Num := fp16.value (rec_ % 2 ^ 16)
def recZero (fmt rec_ : Nat) : Int := (if fmt = 5 then rec_ / 2 ^ 16 % 16 else rec_ / 2 ^ 16 % 256 : Nat)

/-- q − z of a code (R127). -/
def centred (fmt q rec_ : Nat) : Int := (q : Int) - recZero fmt rec_

/-- VDQ of one code (R132). A scale of −infinity multiplies signs as any other does, so that the result has the sign of
z − q (the model's choice, log 66). -/
def dequantise (fmt q rec_ : Nat) : Nat :=
  ((recScale rec_).mul (Num.ofInt (centred fmt q rec_))).bits fp32 .rne

/-- VQNT of one group: its record and its codes, from the values present (R131). -/
def quantise (qmax : Nat) (xs : List Num) : Nat × List Nat :=
  if xs.any (fun x => !x.isFin) then (0x7E00, xs.map (fun _ => 0))
  else
    let x0 := xs.headD Num.zero
    let lo := xs.foldl (fun a b => if b.lt a then b else a) x0
    let hi := xs.foldl (fun a b => if a.lt b then b else a) x0
    let sb := if lo.eqv hi then 0x3C00
      else
        let q := ((hi.sub lo).div (Num.ofNat qmax)).bits fp16 .rne
        if q = 0 then 0x0001 else if q = 0x7C00 then 0x7BFF else q
    let s := fp16.value sb
    let z := clampInt ((lo.neg.div s).toInt .rne) 0 qmax
    (z.toNat * 2 ^ 16 + sb, xs.map (fun x => (clampInt ((x.div s).toInt .rne + z) 0 qmax).toNat))

/-! Exponential and logarithm (R133 to R135). -/

/-- The largest t < 2^k with t^p ≤ n, found bit by bit from above, starting at r. -/
def rootFloor (p n : Nat) : Nat → Nat → Nat
  | 0, r => r
  | k + 1, r => rootFloor p n k (if (r + 2 ^ k) ^ p ≤ n then r + 2 ^ k else r)

/-- T[i] = rne32(2^(i/64)): the root is taken to 40 places; for i > 0 it is irrational (R133). -/
def expTable (i : Nat) : Num :=
  if i = 0 then Num.ofNat 1
  else (Num.fin false (2 * rootFloor 64 (2 ^ (i + 64 * 40)) 42 0 + 1) (2 ^ 41)).r32

def vecC1 : Num := fp32.value 0x3F317218
def vecC2 : Num := fp32.value 0x3E75FDF0
def vecC3 : Num := fp32.value 0x3D635847
def vecD1 : Num := fp32.value 0x3FB8AA3B
def vecD2 : Num := fp32.value 0xBF38AA3B
def vecD3 : Num := fp32.value 0x3EF6384F

/-- x · 2^e, exactly. -/
def Num.scale (x : Num) (e : Int) : Num :=
  match x with
  | .fin s n d => if 0 ≤ e then .fin s (n * 2 ^ e.toNat) d else .fin s n (d * 2 ^ (-e).toNat)
  | y => y

/-- VEXP2 (R134). -/
def exp2 (x : Num) : Num :=
  if x.isNan then .nan
  else if !(x.lt (Num.ofNat 128)) then .inf false
  else if x.lt (Num.ofInt (-151)) then Num.zero
  else
    let n := (x.scale 6).floor
    let i := n % 64
    let e := n / 64
    let f := x.sub ((Num.ofInt n).scale (-6))
    let t := expTable i.toNat
    let p := (vecC3.mul f).r32
    let p := (p.add vecC2).r32
    let p := (p.mul f).r32
    let p := (p.add vecC1).r32
    let p := (p.mul f).r32
    let m := (t.add (t.mul p).r32).r32
    (m.scale e).r32

/-- The largest i < n with T[i] ≤ m, 0 where there is none. -/
def tableIndex (m : Num) : Nat → Nat
  | 0 => 0
  | i + 1 => if m.lt (expTable i) then tableIndex m i else i

/-- VLOG2 (R135). -/
def log2 (x : Num) : Num :=
  match x with
  | .nan => .nan
  | .inf s => if s then .nan else .inf false
  | .fin s n d =>
    if n = 0 then .inf true
    else if s then .nan
    else
      let e : Int := (log2Frac n d : Int) - 2 ^ 16
      let m := x.scale (-e)
      let i := tableIndex m 64
      let t := expTable i
      let u := ((m.sub t).div t).r32
      let q := (vecD3.mul u).r32
      let q := (q.add vecD2).r32
      let q := (q.mul u).r32
      let q := (q.add vecD1).r32
      let q := (q.mul u).r32
      (((Num.ofInt e).add ((Num.ofNat i).scale (-6))).add q).r32

/-- VRCP (R136). -/
def recip (x : Num) : Num := ((Num.ofNat 1).div x).r32

/-- VRSQ (R136): the root is taken to 100 places, and a last bit says whether it is inexact. -/
def rsqrt (x : Num) : Num :=
  match x with
  | .nan => .nan
  | .inf s => if s then .nan else Num.zero
  | .fin s n d =>
    if n = 0 then .inf s
    else if s then .nan
    else
      let v := d * 2 ^ 200 / n
      let t := rootFloor 2 v 200 0
      let sticky := if t * t * n = d * 2 ^ 200 then 0 else 1
      (Num.fin false (2 * t + sticky) (2 ^ 101)).r32

/-! Reductions (R137). -/

/-- One level of the tree. -/
def treeLevel {α : Type} (op : α → α → α) : List α → List α
  | a :: b :: r => op a b :: treeLevel op r
  | l => l

/-- The fixed binary tree over 1,024 lanes (R137). -/
def tree {α : Type} (op : α → α → α) : Nat → List α → List α
  | 0, l => l
  | n + 1, l => tree op n (treeLevel op l)

end Sys2Proof.Machine
end

