-- ==== Sys2Proof/Machine/Engine.lean ====
section
/-! DEFINITION. What the engines share (spec 01 R20 to R22, R26, R39, R40; spec 05 R146 to R148; spec 07 R222
to R225; spec 08 R250, R277): checking operands at issue, recording an operation, reading and writing
elements, ending an operation. -/

namespace Sys2Proof.Machine

/-- Dropped handles, in order (R49, R298). -/
def State.noneDropped (s : State) : List (BitVec 5) → Chk Unit
  | [] => .ok ()
  | r :: rs => match checkDropped r (s.hr r) with
    | .ok _ => s.noneDropped rs
    | .error e => .error e

/-! Elements. -/

/-- Every element index of a handle, in lane order (R144). -/
def indices (h : Handle) : List Idx :=
  (List.range (hExt h 3)).flatMap fun i3 => (List.range (hExt h 2)).flatMap fun i2 =>
    (List.range (hExt h 1)).flatMap fun i1 => (List.range (hExt h 0)).map fun i0 => ⟨i0, i1, i2, i3⟩

/-- Elements of a handle (R144). -/
def countOf (h : Handle) : Nat := hExt h 0 * hExt h 1 * hExt h 2 * hExt h 3

/-- The addresses of an element's bytes (R19). -/
def Opnd.bytesAt (o : Opnd) (i : Idx) : List Word :=
  let a := o.base + BitVec.ofNat 64 (elemOff o.h o.lay i).1
  (List.range (fmtBytes (hFmt o.h))).map (fun j => a + BitVec.ofNat 64 j)

/-- The location of an operand's byte: in the scratchpad it names, or where its page lay at issue (R22, R26). -/
def Opnd.loc (o : Opnd) (a : Word) : Nat :=
  if isLocal a then spadLoc o.core a.toNat
  else tblGet o.pages (a.toNat / 2 ^ 18) 0 + a.toNat % 2 ^ 18

/-- The bits of an element; one outside the extents reads 0 (R19, R129). -/
def State.element (s : State) (o : Opnd) (i : Idx) : Nat :=
  if !inside o.h i then 0
  else
    let v := leNat ((o.bytesAt i).map (fun a => s.seenByte o.core (o.loc a)))
    if hFmt o.h = 5 then v / 16 ^ (elemOff o.h o.lay i).2 % 16 else v

/-- A write of some bits of a byte: location, mask, value. -/
abbrev Poke := Nat × Byte × Byte

/-- What writing an element stores; one outside the extents is suppressed (R19, R160). -/
def Opnd.pokes (o : Opnd) (i : Idx) (v : Nat) : List Poke :=
  if !inside o.h i then []
  else if hFmt o.h = 5 then
    let nib := (elemOff o.h o.lay i).2
    (o.bytesAt i).map (fun a =>
      (o.loc a, if nib = 0 then 0x0F#8 else 0xF0#8, BitVec.ofNat 8 (v % 16 * 16 ^ nib)))
  else (o.bytesAt i).zipIdx.map (fun p => (o.loc p.1, 0xFF#8, BitVec.ofNat 8 (v / 256 ^ p.2)))

/-- Apply writes in order (R147); an error goes with the last byte of its granule to be written whole. -/
def State.poke (s : State) (ws : List Poke) : State :=
  { s with
    mem := ws.foldl (fun m w => memSet m w.1 ((memGet m w.1 &&& ~~~w.2.1) ||| (w.2.2 &&& w.2.1))) s.mem
    poison := s.poison.filter (fun q =>
      !((List.range 64).all (fun j => ws.any (fun w => w.1 == 64 * q + j && w.2.1 == 0xFF#8)))) }

/-- Write elements of an operand in order (R147); those in a peer's memory also leave for the peer (R325). -/
def State.putElements (s : State) (o : Opnd) (vs : List (Idx × Nat)) : State :=
  let s := s.poke (vs.flatMap (fun v => o.pokes v.1 v.2))
  if isLocal o.base then s
  else vs.foldl (fun (s : State) v =>
    match (o.bytesAt v.1).map o.loc with
    | [] => s
    | l :: r => if inside o.h v.1 then s.toPeer 1 l (r.length + 1) v.2 0 else s) s

/-- The first byte of some elements that meets an uncorrectable error. -/
def State.badElement (s : State) (o : Opnd) (is : List Idx) : Option Word :=
  if s.poison.isEmpty then none
  else is.findSome? (fun i => if inside o.h i then (o.bytesAt i).find? (fun a => s.poisoned (o.loc a) 1) else none)

/-! Layers. -/

/-- The layers of a mask, in rising order. -/
def layersOf (mask : Nat) : List Nat := (List.range 8).filter (fun l => mask.testBit l)

/-- Layer, start and length of each chunk from a start on, `r` chunks one longer than `q` first (R139). -/
def chunksFrom (q : Nat) : Nat → Nat → List Nat → List (Nat × Nat × Nat)
  | _, _, [] => []
  | r, st, l :: ls => (l, st, if r = 0 then q else q + 1) :: chunksFrom q (r - 1) (if r = 0 then st + q else st + q + 1) ls

/-- The chunks of a depth over layers (R139). -/
def chunksOf (k : Nat) (ls : List Nat) : List (Nat × Nat × Nat) :=
  chunksFrom (k / max ls.length 1) (k % max ls.length 1) 0 ls

/-- An operand whose BASE names layer 0, on a layer (R183, R209). -/
def Opnd.onLayer (o : Opnd) (l : Nat) : Opnd := { o with base := o.base + BitVec.ofNat 64 (l * 2 ^ 25) }

/-- A range over layers runs from the lowest to the highest (R195). -/
def stretch (ls : List Nat) (r : Nat × Nat) : Nat × Nat :=
  let lo := ls.headD 0
  let hi := ls.getLastD 0
  (r.1 + lo * 2 ^ 25, (hi - lo) * 2 ^ 25 + r.2)

/-! Operands at issue. -/

/-- An operand as issue checked it: its role, its busy ranges, the records the core's cache keeps, the slot it
pops, and whether that slot is filled. -/
structure Arg where
  role : Nat
  o : Opnd
  ranges : List (Nat × Nat)
  keep : List (Nat × BitVec 512)
  pop : Option Pop
  ready : Bool
  deriving DecidableEq, Repr

/-- The sequence number the next read of a ring takes: past those that operations in flight pop (R40, R223). -/
def State.nextSeq (s : State) (loc : Nat) (head : BitVec 32) : BitVec 32 :=
  s.ops.foldl (fun h o => o.pops.foldl (fun h p =>
    if p.loc = loc ∧ 0 < seqDiff (p.seq + 1) h then p.seq + 1 else h) h) head

/-- Where slot s of a ring begins (R222). -/
def slotBase (h : Handle) (q : BitVec 32) : Word :=
  hBase h + 64#64 + BitVec.ofNat 64 (q.toNat % hDepth h * hStride h 3)

/-- A stream-bound handle's binding; one that no live binding names has a kind that suits no operand (R20, R225). -/
def Ctx.bindingOf (x : Ctx) (r : BitVec 5) : Option Binding :=
  (x.boundBy r).bind (fun n => x.binds[n]?)

/-- A source of kind ring or stream-bound (R196, R222, R225). EXT3 other than 1 breaks the form; the cube has a check and a
fault of its own for it (R184, R193). -/
def State.ringArg (s : State) (eng : BitVec 5) (role : Nat) (h : Handle) (r : BitVec 5) : Chk Arg := do
  let k := coreOf s.cur
  let x := s.me
  need (eng == 0#5 || hExt h 3 == 1) (trapE eng fHandleForm)
  let h := hput h 112 16 1
  need (hKind h == kRing || (x.bindingOf r).isSome) (trapE eng fHandleForm)
  need ((hBase h).toNat % 64 == 0) (trapA cAlign (hBase h))
  let lay ← s.layoutFor s.cur eng h
  let l := lay.map (·.1)
  let loc ← s.localAt s.cur k (hBase h) (ringSpan h l)
  let word := memRead s.mem loc 8
  let (head, last) : BitVec 32 × BitVec 32 := match (if hKind h = kStream then x.bindingOf r else none) with
    | some b => (b.headSeq, b.fillSeq)
    | none => (BitVec.ofNat 32 word, BitVec.ofNat 32 (word / 2 ^ 32))
  let q := s.nextSeq loc head
  let base := slotBase h q
  pure
    { role := role
      o := ⟨h, base, k, l, []⟩
      ranges := [(spadLoc k base.toNat, spanOf h l)]
      keep := lay.toList.map (·.2)
      pop := some ⟨if hKind h = kStream then x.boundBy r else none, loc, q⟩
      ready := decide (0 < seqDiff last q) }

/-- A scratchpad operand of the vector, transpose and update engines and of the cube: the form of the handle,
its alignment, its layout record, its bytes (R20, R27, R29, R146, R184, R266). -/
def State.localArg (s : State) (eng : BitVec 5) (role : Nat) (kinds : List Nat) (q : Bool) (h : Handle)
    (r : BitVec 5) : Chk Arg := do
  need (handleOk h && kinds.contains (hKind h) && isLocal (hBase h) && !hW h && hQ h == q) (trapE eng fHandleForm)
  need (handleAligned h) (trapA cAlign (hBase h))
  if hKind h = kRing ∨ hKind h = kStream then s.ringArg eng role h r
  else
    let k := coreOf s.cur
    let lay ← s.layoutFor s.cur eng h
    let l := lay.map (·.1)
    let n := spanOf h l
    let loc ← if n = 0 then .ok 0 else s.localAt s.cur k (hBase h) n
    pure ⟨role, ⟨h, hBase h, k, l, []⟩, if n = 0 then [] else [(loc, n)], lay.toList.map (·.2), none, true⟩

/-- A handle that supplies only a descriptor (R172). -/
def descArg (role : Nat) (h : Handle) : Arg := ⟨role, ⟨h, hBase h, 0, none, []⟩, [], [], none, true⟩

/-- The descriptor of a handle is valid: FMT, Q and extents (R172). -/
def descOk (h : Handle) : Bool :=
  decide (hFmt h ≤ 9) && (hQ h == (hFmt h == 4 || hFmt h == 5)) && (hFmt h != 3 || hExt h 0 % 2 == 0)

/-- The scale handle that a quantised operand names: plain, INT32, not quantised (R128). -/
def State.scaleArg (s : State) (eng : BitVec 5) (role : Nat) (h : Handle) : Chk Arg := do
  let g := s.hr (hScale h)
  need (hFmt g == 8) (trapE eng fHandleForm)
  s.localArg eng role [kPlain] false g (hScale h)

/-- The rule of R128 for the scale handle of an operand whose groups are not read. -/
def State.scaleForm (s : State) (eng : BitVec 5) (h : Handle) : Chk Unit :=
  let g := s.hr (hScale h)
  need (!hQ h || (handleOk g && hKind g == kPlain && hFmt g == 8 && !hQ g)) (trapE eng fHandleForm)

/-- The pages of some byte addresses, each resolved by `f`, which answers a byte's location (R208). -/
def pagesBy (f : Word → Chk Nat) : List Word → Tbl Nat → Chk (Tbl Nat)
  | [], t => .ok t
  | a :: r, t =>
    if (tblFind t (a.toNat / 2 ^ 18)).isSome then pagesBy f r t
    else match f a with
      | .error e => .error e
      | .ok l => pagesBy f r (tblSet t (a.toNat / 2 ^ 18) (l - a.toNat % 2 ^ 18))

/-- Translation and protection of a global byte for an agent (R271). -/
def State.byteAt (s : State) (g : Agent) (acc : Acc) (a : Word) : Chk Nat :=
  match s.globalAt g acc a with
  | .error e => .error e
  | .ok p => .ok p.loc

/-- The first and last byte of every element. -/
def Opnd.ends (o : Opnd) : List Word :=
  (indices o.h).flatMap (fun i => (o.bytesAt i).take 1 ++ (o.bytesAt i).drop (fmtBytes (hFmt o.h) - 1))

/-- A plain operand, global or in the scratchpad of core k, whose form has been checked: its layout record, and
translation and protection of every byte (R20, R29, R208, R271). -/
def State.anyArgBy (s : State) (eng : BitVec 5) (role : Nat) (f : Word → Chk Nat) (k : Nat) (h : Handle) :
    Chk Arg := do
  let lay ← s.layoutFor s.cur eng h
  let l := lay.map (·.1)
  let n := spanOf h l
  let keep := lay.toList.map (·.2)
  let b := hBase h
  if isLocal b then
    let loc ← if n = 0 then .ok 0 else s.localAt s.cur k b n
    pure ⟨role, ⟨h, b, k, l, []⟩, if n = 0 then [] else [(loc, n)], keep, none, true⟩
  else
    let o : Opnd := ⟨h, b, k, l, []⟩
    let t ← pagesBy f o.ends []
    pure ⟨role, { o with pages := t }, [], keep, none, true⟩

/-- The same with the permission of a kind of access (R271). -/
def State.anyArg (s : State) (eng : BitVec 5) (role : Nat) (acc : Acc) (k : Nat) (h : Handle) : Chk Arg :=
  s.anyArgBy eng role (s.byteAt (s.agentOf s.cur) acc) k h

/-- The waits of an engine word with scratchpad operands: filled slots, no busy range of another engine over its
bytes, and room among the 64 ranges of the core (R39, R40, R196). -/
def State.canIssue (s : State) (eng : Nat) (args : List Arg) : Chk Unit := do
  let k := coreOf s.cur
  let rs := args.flatMap (·.ranges)
  await (args.all (·.ready))
  await (!(rs.any (fun r => s.rangeBusy k (some eng) r.1 r.2)))
  await (decide (s.rangesUsed k + rs.length ≤ 64))

/-- Records kept by the record caches of the current core (R266). -/
def State.keepAll (s : State) (args : List Arg) : State :=
  (args.flatMap (·.keep)).foldl (fun s p => s.cacheRecord (coreOf s.cur) p.1 p.2) s

/-- Record an operation of the current context; `f` fills in what is its own (R22, R39, R46). -/
def State.issueOp (s : State) (eng : Nat) (i : Instr) (args : List Arg) (f : Op → Op := id) : State :=
  let (n, s) := (s.keepAll args).fresh
  let o : Op :=
    { id := n
      ctx := s.cur
      engine := eng
      instr := i
      args := args.map (fun a => (a.role, a.o))
      val := 0
      aux := 0
      regs := s.me.eng
      ranges := args.flatMap (·.ranges)
      pops := args.filterMap (·.pop)
      intv := s.me.race.interval
      entry := none
      chainIn := none
      chainOut := none
      copyId := 0
      recvs := []
      slot := none
      round := 0
      iter := 0
      data := none
      landed := 0
      started := false
      left := 0
      issued := s.time
      asked := s.cycles
      broken := false
      born := s.tick }
  { s with ops := s.ops ++ [f o] }

/-! Operations in flight. -/

/-- An operand of an operation. -/
def Op.arg (o : Op) (role : Nat) : Opnd := tblGet o.args role Opnd.none

/-- The scalar accesses that the context issued before an operation are performed (R250). -/
def State.accessesDone (s : State) (o : Op) : Bool :=
  !(s.loads.any (fun l => l.ctx == o.ctx && decide (l.id < o.id))) &&
  !(s.stores.any (fun w => w.ctx == o.ctx && decide (w.id < o.id)))

/-- No operation issued earlier to the same engine of the core is in flight (R40, R201). -/
def State.oldestOf (s : State) (o : Op) : Bool :=
  !(s.ops.any (fun p => p.engine == o.engine && p.core == o.core && decide (p.id < o.id)))

/-- The operation in flight with a number, of an engine, if it may complete now. -/
def State.ready? (s : State) (eng id : Nat) : Option Op :=
  (s.ops.find? (fun o => o.id == id && o.engine == eng)).filter (fun o => s.accessesDone o && s.oldestOf o)

/-- Change a stream binding. -/
def Ctx.modBind (x : Ctx) (n : Nat) (f : Binding → Binding) : Ctx :=
  { x with binds := Vector.ofFn (fun i : Fin 8 => if i.val = n then f (x.binds[i]) else x.binds[i]) }

/-- Pop a slot: HEAD, and HEADSEQ of a binding, move past it (R223, R225), unless an HSEQ has moved the
binding further (R87). -/
def State.popSlot (s : State) (c : Nat) (p : Pop) : State :=
  let put := fun (s : State) => s.poke ((leBytes 4 (p.seq + 1).toNat).zipIdx.map (fun b => (p.loc + b.2, 0xFF#8, b.1)))
  match p.binding with
  | none => put s
  | some n =>
    let b := (s.ctx c).binds.toList.getD n Binding.reset
    if seqDiff (p.seq + 1) b.headSeq ≤ 0 then s
    else (put s).modCtx c (fun x => x.modBind n (fun b => { b with headSeq := p.seq + 1 }))

/-- Count an ended operation for ESTAT (R102). -/
def State.countDone (s : State) (c eng : Nat) : State :=
  let up := fun (v : Vector Nat 6) => Vector.ofFn (fun i : Fin 6 => if i.val = eng then v[i] + 1 else v[i])
  s.modCtx c (fun x => { x with doneCnt := up x.doneCnt })

/-- An operation ends: it leaves, its ranges with it, its slots are popped, ESTAT counts it (R39, R102, R223). A
stream-bound source pops its slot also where the operation reads no element of it (the model's choice, log 66). -/
def State.retire (s : State) (o : Op) : State :=
  let t := { s with ops := s.ops.filter (fun p => p.id != o.id) }
  let t := o.pops.foldl (fun (s : State) p => s.popSlot o.ctx p) t
  if o.silent then t else t.countDone o.ctx o.engine

/-- An asynchronous event becomes pending for a context; it wakes a context asleep (R294, R297). -/
def State.raise (s : State) (c : Nat) (t : Trap) : State :=
  s.modCtx c (fun x => { x.awake s.cycles with asyncs := x.asyncs ++ [{ t with async := true }] })

/-- An engine fault reported after issue: recorded for ESTAT and raised as a trap (R102, R148). -/
def State.engineFault (s : State) (c eng : Nat) (cause fcode : BitVec 8) (a : Word) (link : Option Nat) : State :=
  (s.modCtx c (fun x => { x with faults := x.faults ++ [⟨eng, cause, fcode, 0, 0, link⟩] })).raise c
    { cause := cause, fcode := fcode, engine := BitVec.ofNat 5 (if eng < 6 then eng else 31), addr := a }

/-- An operation meets an uncorrectable error: it ends, writes nothing, and its context takes MCHECK (R148,
R202, R387). -/
def State.opError (s : State) (o : Op) (a : Word) (link : Option Nat := none) : State :=
  ((s.retire o).engineFault o.ctx o.engine cMcheck 0 a link).logError 2 (s.physical o.ctx a) (o.engine + 1) (coreOf o.ctx) (o.ctx % 4) 0

/-- One 64-byte sector of an engine access to a checked page: whether it is reported without a log, and the
state with the log record and the shadow written (R274 to R277). -/
def State.raceSector (s : State) (o : Op) (p : Opnd) (wr : Bool) (a : Word) : Bool × State :=
  match s.walk (s.asidOf o.ctx) a with
  | none => (false, s)
  | some l =>
    if !s.checks l then (false, s)
    else
      let loc := p.loc a
      let hit := s.races o.ctx loc false
      let s := match tblFind s.raceShadow (loc / 64) with
        | some h => if hit && l.rl then s.raceLog o.ctx a h wr else s
        | none => s
      let h : Shadow := ⟨s.agent o.ctx, homeScope o.ctx loc, o.intv, false⟩
      (hit && !l.rl, if wr then { s with raceShadow := tblSet s.raceShadow (loc / 64) h } else s)

/-- The race check of an engine's global operand with X = 1 (R274, R277). -/
def State.raceOpnd (s : State) (o : Op) (p : Opnd) (wr : Bool) : State :=
  if !(s.part.race && hX p.h && !isLocal p.base) then s
  else
    let as := (p.ends.map (fun a => a.toNat / 64 * 64)).eraseDups
    let (bad, s) := as.foldl (fun (b, s) a =>
      let (hit, s) := s.raceSector o p wr (BitVec.ofNat 64 a)
      (if hit && b == none then some a else b, s)) ((none : Option Nat), s)
    match bad with
    | some a => s.engineFault o.ctx o.engine cRace 0 (BitVec.ofNat 64 a) none
    | none => s

/-! Chain queues (R170 to R174): 0 vector to transpose, 1 vector to update, 2 transpose to update. -/

def Core.queue (k : Core) (q : Nat) : List ChainEntry := k.chain.toList.getD q []

/-- Change a chain queue of a core. -/
def State.modQueue (s : State) (k q : Nat) (f : List ChainEntry → List ChainEntry) : State :=
  let up := fun (v : Vector (List ChainEntry) 3) => Vector.ofFn (fun i : Fin 3 => if i.val = q then f v[i] else v[i])
  s.modCore k (fun x => { x with chain := up x.chain })

/-- A queue holds 8 entries, and 16 more for each spillway chunk (R170, R174). -/
def Core.capacity (k : Core) (q : Nat) : Nat := 8 + 16 * k.chunks.toList.getD q 0

/-- A queue has a place to reserve (R173). -/
def State.queueRoom (s : State) (q : Nat) : Bool :=
  let k := s.core (coreOf s.cur)
  decide ((k.queue q).length < k.capacity q)

/-- The oldest entry of the current context in a queue that no consumer has claimed (R172, R173). -/
def State.chainHead (s : State) (q : Nat) : Option ChainEntry :=
  ((s.core (coreOf s.cur)).queue q).find? (fun e => e.ctx == s.cur && !e.claimed)

def extents (h : Handle) : Nat × Nat × Nat × Nat := (hExt h 0, hExt h 1, hExt h 2, hExt h 3)

/-- Reserve an entry for an operation that issues (R173). -/
def State.reserveEntry (s : State) (q id : Nat) (h : Handle) : State :=
  s.modQueue (coreOf s.cur) q (fun l => l ++ [⟨id, s.cur, BitVec.ofNat 4 (hFmt h), extents h, [], false, false, false⟩])

/-- Claim an entry (R173). -/
def State.claimEntry (s : State) (q id : Nat) : State :=
  s.modQueue (coreOf s.cur) q (fun l => l.map (fun e => if e.id == id then { e with claimed := true } else e))

/-- The operation whose error an entry in error carries (R148). -/
def ChainEntry.origin (e : ChainEntry) : Nat := (e.data.headD 0).toNat

/-- Fill an entry of a core, or mark it in error (R148). -/
def State.fillEntry (s : State) (k q id : Nat) (data : List (BitVec 32)) (err : Bool) : State :=
  s.modQueue k q (fun l => l.map (fun e =>
    if e.id == id then { e with data := data, filled := true, err := err } else e))

/-- Take an entry out of a queue. -/
def State.dropEntry (s : State) (k q id : Nat) : State := s.modQueue k q (fun l => l.filter (fun e => e.id != id))

/-- An entry by its number. -/
def State.entry? (s : State) (k q id : Nat) : Option ChainEntry := ((s.core k).queue q).find? (fun e => e.id == id)

/-- A consumer of an entry in error ends with a fault of its own (R102, R148); where the producer's MCHECK has been taken
already it records none (the model's choice, log 66). -/
def State.chainError (s : State) (o : Op) (link : Nat) : State :=
  let s := s.retire o
  if (s.ctx o.ctx).faults.any (fun f => f.link == some link) then
    s.modCtx o.ctx (fun x => { x with faults := x.faults ++ [⟨o.engine, cMcheck, 0, 0, 0, some link⟩] })
  else s

end Sys2Proof.Machine
end

