-- ==== Sys2Proof/Machine/Clock.lean ====
section
/-! DEFINITION. The ceiling (spec 12 R340, spec 13 R355), blocked slots (R359), the start stagger (R362) and
drain slots (spec 06 R191). -/

namespace Sys2Proof.Machine

/-- The limit of a member; one that has told none has the highest (R340). -/
def State.limitOf (s : State) (n : Nat) : Nat := tblGet s.fabric.limits n Config.maxMHz

/-- The group ceiling, which is every region's set frequency (R340, R342, R355). -/
def State.ceiling (s : State) : Nat :=
  if s.fabric.floor then Config.groupFloorMHz
  else (s.fabric.members.map s.limitOf).foldl min (s.limitOf s.fabric.node)

/-- The largest number of column starts of a cube in 64 cycles; 0 is no limit (R362). -/
def State.startLimit (s : State) (q : Nat) : Nat :=
  let x := s.cube q
  if x.didtLimit = 0#16 then 0
  else max 1 (x.didtLimit.toNat * 64 * 16 / (s.ceiling * x.istep.toNat))

/-- The clock region of a core (R355). -/
def regionOf (k : Nat) : Nat := k / 96 * 24 + k % 96 / 4

/-- The array of a core may form terms now: no blocked slot, no droop alarm of its region (R356, R359). -/
def State.arrayOpen (s : State) (k : Nat) : Bool :=
  decide (s.cycles % 1024 / 64 + (s.cube (cubeOfCore k)).govStep < 16) && !(s.region (regionOf k)).droop

/-- The array of a core has formed no term during the last 64 cycles (R362). -/
def State.columnIdle (s : State) (k : Nat) : Bool :=
  decide ((s.core k).idleFrom ≤ s.cycles) &&
  !(s.ops.any (fun o => o.engine == 0 && o.core == k && o.started))

/-- Column starts that a cube has admitted in the present window of 64 cycles. -/
def Cube.startsNow (x : Cube) (cycles : Nat) : Nat :=
  (x.starts.filter (fun e => e.1 == cycles / 64)).length

/-- An operation asked for its start before another: in an earlier cycle, or in the same one on a lower logical core
(R362). -/
def State.askedFirst (s : State) (p o : Op) : Bool :=
  decide (p.asked < o.asked) || (p.asked == o.asked && decide (s.coreName p.ctx < s.coreName o.ctx))

/-- Another core of the cube asked for a column start before this operation, and still waits (R362). -/
def State.startBehind (s : State) (o : Op) : Bool :=
  s.ops.any (fun p => p.engine == 0 && !p.started && p.core != o.core &&
    cubeOfCore p.core == cubeOfCore o.core && s.askedFirst p o && s.accessesDone p && s.oldestOf p &&
    s.columnIdle p.core)

/-- The stagger admits an operation (R362). -/
def State.admits (s : State) (o : Op) : Bool :=
  let q := cubeOfCore o.core
  let lim := s.startLimit q
  !s.columnIdle o.core || lim == 0 || (decide ((s.cube q).startsNow s.cycles < lim) && !s.startBehind o)

/-- Enter a column start (R362). -/
def State.countStart (s : State) (k : Nat) : State :=
  if s.columnIdle k then
    s.modCube (cubeOfCore k) (fun x =>
      { x with starts := x.starts.filter (fun e => e.1 == s.cycles / 64) ++ [(s.cycles / 64, k)] })
  else s

/-! The test of the vertical buses (R348, R349). -/

/-- Add 1 to a 16-bit count that saturates. -/
def satInc (n : BitVec 16) : BitVec 16 := if n = 0xFFFF#16 then n else n + 1

/-- The n-th bus of a cube's rotation: column, interface, bus number. -/
def busOf (n : Nat) : Nat × Nat × Nat := (n / 81, n / 9 % 9, n % 9)

/-- A partial-sum bundle of an interface has been retired. -/
def Column.bundleGone (c : Column) (iface bus : Nat) : Bool := (tblGet c.bundles iface 0).testBit bus

/-- The physical die of a logical layer (R346). -/
def Cube.dieOf (x : Cube) (layer : Nat) : Nat :=
  ((List.range 9).filter (fun d => !x.failedDies.contains d)).getD layer layer

/-- A demand access or a guard refresh needs buses of a column: a test of one of them, an interface and a bus number, is
aborted and its run dropped (R349). -/
def State.demandBus (s : State) (k : Nat) (needs : Nat → Nat → Bool) : State :=
  match (s.cube (cubeOfCore k)).busRun with
  | none => s
  | some (n, _) =>
    let (col, iface, bus) := busOf n
    if col = k % 96 ∧ needs iface bus then
      s.modCube (cubeOfCore k) (fun x => { x with busRun := none, testAborts := satInc x.testAborts })
    else s

/-- A bank of a column is accessed over its bus of every interface below its layer (R348, R349). -/
def State.demandBank (s : State) (k layer bank : Nat) : State :=
  s.demandBus k (fun iface bus =>
    bus == 4 + bank / 4 && decide (iface ≤ (s.cube (cubeOfCore k)).dieOf layer))

/-- Chunk sums fold down over two bundles of every interface below the highest layer; the spare carries where one has
been retired (R348 to R350). -/
def State.foldUses (s : State) (k top iface bus : Nat) : Bool :=
  decide (iface ≤ (s.cube (cubeOfCore k)).dieOf top) && !(s.column k).bundleGone iface bus &&
  (decide (bus < 2) || (bus == 2 && tblGet (s.column k).bundles iface 0 != 0))

/-- A product needs the bundles it folds over (R349). -/
def State.demandFold (s : State) (k top : Nat) : State := s.demandBus k (s.foldUses k top)

/-- Insert a drain slot into the cube of a core (R191). -/
def State.drainSlot (s : State) (k : Nat) : State :=
  s.modCore k (fun x => { x with drained := true, drains := x.drains + 1 })

end Sys2Proof.Machine
end

