-- ==== Sys2Proof/Machine/Sync.lean ====
section
/-! DEFINITION. Binding, locks and fences (spec 03 R93 to R96; spec 08 R251 to R255). -/

namespace Sys2Proof.Machine

/-! The bind table (R254). -/

/-- An entry of the bind table: object, highest and lowest byte, binder. -/
structure BindEntry where
  obj : Word
  hi : Word
  lo : Word
  binder : Nat
  deriving DecidableEq, Repr

def BindEntry.bits (e : BindEntry) : Nat :=
  e.obj.toNat * 2 ^ 192 + e.hi.toNat * 2 ^ 128 + e.lo.toNat * 2 ^ 64 + e.binder % 2 ^ 16 * 2 ^ 16 + 1

def bindEntry (n : Nat) : Option BindEntry :=
  if n % 2 = 1 then
    some ⟨BitVec.ofNat 64 (n / 2 ^ 192), BitVec.ofNat 64 (n / 2 ^ 128), BitVec.ofNat 64 (n / 2 ^ 64),
      bitsOf n 31 16⟩
  else none

/-- The base and capacity of a context's bind table (R254, R278). -/
def State.bindTable (s : State) (c : Nat) : Nat × Nat :=
  (s.effField 7 (s.polderOf c) 40 8, s.effField 7 (s.polderOf c) 48 2)

/-- Entries 1 to n of the table, highest first, each with its location; a fault in translation or permission
stops; read permission is checked for every entry (R254). -/
def State.bindEntries (s : State) (g : Agent) (base : Nat) : Nat → Chk (List (Nat × Option BindEntry))
  | 0 => .ok []
  | n + 1 =>
    match s.bindEntries g base n with
    | .error e => .error e
    | .ok r =>
      match s.globalAt g .read (BitVec.ofNat 64 (base + 32 * (n + 1))) with
      | .error e => .error e
      | .ok p => .ok (r ++ [(p.loc, bindEntry (memRead s.mem p.loc 32))])

/-- Two regions share a byte: both global, or both local as named from one cluster (R254). -/
def regionsMeet (a b : BindEntry) : Bool :=
  decide (a.lo.toNat ≤ b.hi.toNat) && decide (b.lo.toNat ≤ a.hi.toNat) &&
  (!isLocal a.lo || scopeCovers 2 a.binder b.binder)

/-- Write an entry into the lowest free row; none where no row is free. -/
def bindInsert (e : BindEntry) : List (Nat × Option BindEntry) → Option (List (Nat × Option BindEntry))
  | [] => none
  | (l, none) :: r => some ((l, some e) :: r)
  | (l, some x) :: r => (bindInsert e r).map (fun t => (l, some x) :: t)

/-- Remove the overlap of one entry with a new region: what is left of it, in its row and, where it is split,
in a further one (R254). -/
def bindCut (e x : BindEntry) : Option BindEntry × Option BindEntry :=
  if !regionsMeet x e then (some x, none)
  else
    let left := if x.lo.toNat < e.lo.toNat then some { x with hi := e.lo - 1#64 } else none
    let right := if e.hi.toNat < x.hi.toNat then some { x with lo := e.hi + 1#64 } else none
    match left with
    | some l => (some l, right)
    | none => (right, none)

/-- Remove the overlap from every row; the second parts of split entries are collected. -/
def bindCutAll (e : BindEntry) :
    List (Nat × Option BindEntry) → List (Nat × Option BindEntry) × List BindEntry
  | [] => ([], [])
  | (l, none) :: r => let (t, m) := bindCutAll e r; ((l, none) :: t, m)
  | (l, some x) :: r =>
    let (t, m) := bindCutAll e r
    let (keep, more) := bindCut e x
    ((l, keep) :: t, more.toList ++ m)

/-- The table after a BIND; none where it cannot hold the result (R254). -/
def bindResult (e : BindEntry) (t : List (Nat × Option BindEntry)) : Option (List (Nat × Option BindEntry)) :=
  let (t, more) := bindCutAll e t
  (more ++ [e]).foldl (fun t x => t.bind (bindInsert x)) (some t)

/-- Write the rows of a table back. -/
def State.bindStore (s : State) (t : List (Nat × Option BindEntry)) : State :=
  t.foldl (fun s r => match r.2 with
    | some e => s.store r.1 32 e.bits
    | none => if memRead s.mem r.1 32 % 2 = 1 then s.store r.1 32 0 else s) s

/-- Write permission for the rows that a BIND changes, lowest first, counted from n + 1 (R254). -/
def State.bindWrites (s : State) (g : Agent) (base : Nat) :
    Nat → List (Nat × Option BindEntry) → List (Nat × Option BindEntry) → Chk Unit
  | n, a :: r, b :: q =>
    if a = b then s.bindWrites g base (n + 1) r q
    else match s.globalAt g .write (BitVec.ofNat 64 (base + 32 * (n + 1))) with
      | .error e => .error e
      | .ok _ => s.bindWrites g base (n + 1) r q
  | _, _, _ => .ok ()

/-- The row number, from 1, of an entry. -/
def bindIndex (e : BindEntry) (t : List (Nat × Option BindEntry)) : Nat :=
  (t.findIdx (fun r => r.2 == some e)) + 1

/-- The index goes into the BIND field of a gauge that is the object: a 16-byte-aligned local address whose bytes have
the form of a gauge. Bytes of that form with INIT = 0 may be a gauge or not: whether the field is written is then a
free value (R212, R254; log 12). -/
def State.bindGauge (s : State) (c : Nat) (a : Word) (n : Nat) : State :=
  let l := spadLoc (clusterCore (coreOf c) (ccoreOf a)) a.toNat
  let g := memRead s.mem l 16
  if isLocal a && localOk a && a.toNat % 16 == 0 && bitsOf g 125 112 == 0 && decide (g % 2 ^ 32 < 2 ^ 30) &&
      (if g.testBit 127 then decide (1 ≤ g % 2 ^ 32) else (s.draw 1).getLsbD 0) then
    s.store (l + 12) 2 n
  else s

def execBind (a : BitVec 5) (b : BitVec 5) (s : State) : Host.Outcome State Fault Refusal :=
  let obj := s.sr a
  let h := s.hr b
  perform (do
    checkHandle 31#5 [kPlain] h
    if emptyHandle h then pure none
    else
      let lay ← s.layoutFor s.cur 31#5 h
      let n := spanOf h (lay.map (·.1))
      need (spanFits (hBase h) n) (trapA cXlate (hBase h))
      let e : BindEntry := ⟨obj, hBase h + BitVec.ofNat 64 (n - 1), hBase h, s.agent s.cur⟩
      let (base, cap) := s.bindTable s.cur
      let t ← s.bindEntries (s.tableAgent s.cur) base cap
      match bindResult e t with
      | none => trapC cProt
      | some u =>
        s.bindWrites (s.tableAgent s.cur) base 0 t u
        pure (some (e, u))) (fun r =>
    match r with
    | none => s
    | some (e, t) => (s.bindStore t).bindGauge s.cur obj (bindIndex e t)) s

/-! Release and acquire. -/

/-- Regions bound to an object by its address (R253, R254); a table that cannot be read binds nothing. -/
def State.boundTo (s : State) (c : Nat) (obj : Word) : List BindEntry :=
  let (base, cap) := s.bindTable c
  match s.bindEntries (s.tableAgent c) base cap with
  | .error _ => []
  | .ok t => t.filterMap (fun r => match r.2 with
      | some e => if e.obj == obj then some e else none
      | none => none)

/-- An address lies in a bound region. -/
def BindEntry.holds (e : BindEntry) (a : Word) (n : Nat) : Bool :=
  decide (e.lo.toNat ≤ a.toNat + n - 1) && decide (a.toNat ≤ e.hi.toNat)

/-- A store is a context's own, or one that it has read (R251). -/
def PendStore.known (w : PendStore) (c : Nat) : Bool := w.ctx == c || w.seen.contains c

/-- Every global store of the context or that it has read, and every global atomic, issued so far is performed at a
scope (R96, R251). At context scope a store is performed as it issues: the context's own agents read it (R247,
R250). -/
def State.storesDone (s : State) (c scope : Nat) : Bool :=
  !(s.stores.any (fun w => w.known c && decide (w.level < scope))) &&
  !(s.loads.any (fun l => l.ctx == c && l.kind.isAtomic))

/-- Every load and atomic of the context has returned (R96). -/
def State.loadsDone (s : State) (c : Nat) : Bool := !(s.loads.any (fun l => l.ctx == c))

/-- A WLD: its landing is counted in steps and is no engine work to wait for (R237). -/
def Op.exposed (o : Op) : Bool :=
  match o.instr with
  | .wld _ _ => true
  | _ => false

/-- Every engine operation the context issued has completed, iterations that a schedule replays apart (R111). -/
def State.opsDone (s : State) (c : Nat) : Bool :=
  !(s.ops.any (fun o => o.ctx == c && o.entry.isNone && !o.exposed && !o.silent)) && !(s.colls.any (fun o => o.ctx == c && !o.done))

/-- The destination bytes of an operation, by the address its handles give (R251, R253); a WLD is no engine work to
wait for. -/
def Op.dests (o : Op) : List (Word × Nat) :=
  if o.exposed then []
  else (o.args.filter (fun p => p.1 == 0 || p.1 == 3 || p.1 == 4 || decide (16 ≤ p.1))).map
    (fun p => (p.2.base, spanOf p.2.h p.2.lay))

/-- The writes to some regions that a context has made or observed are performed at a scope: scalar ones, and those of
the operations and collectives that `of` selects by number (R251, R253). -/
def State.regionsDone (s : State) (c : Nat) (es : List BindEntry) (scope : Nat) (of : Nat → Bool) : Bool :=
  let hit := fun (a : Word) (n : Nat) => n != 0 && es.any (fun e => e.holds a n)
  !(s.stores.any (fun w => w.known c && decide (w.level < scope) && of w.id && hit w.addr w.size)) &&
  !(s.loads.any (fun l => l.ctx == c && l.kind.isAtomic && of l.id && hit l.addr 8)) &&
  !(s.ops.any (fun o => o.ctx == c && of o.id && o.dests.any (fun d => hit d.1 d.2))) &&
  !(s.colls.any (fun o => o.ctx == c && !o.done && of o.id && o.dests.any (fun d => hit d.1 d.2)))

/-- The writes that a release through an object covers are performed at a scope: those to the regions bound to it
(R251, R253). -/
def State.coveredDone (s : State) (c : Nat) (obj : Word) (scope : Nat) : Bool :=
  s.regionsDone c (s.boundTo c obj) scope (fun _ => true)

/-- The owner value of a context in a lock word (R94). -/
def State.ownerValue (s : State) (c : Nat) : Nat :=
  2 ^ 63 + (if s.part.fabric then s.fabric.node % 2 ^ 16 else 0) * 2 ^ 32 + s.agent c

/-- The place of a lock word and what it holds as the context sees it, once the context's earlier loads and atomics of it
have returned (R83, R94, R95). -/
def State.lockAt (s : State) (a : Word) : Chk (Target × Nat) :=
  match s.scalarAt .write true a 8 with
  | .error e => .error e
  | .ok t => if s.olderLoad s.cur s.seq t.loc 8 then .error .wait else .ok (t, s.view s.cur s.seq t.loc 8)

/-- The context's own accesses to a lock word have taken effect. -/
def State.lockReady (s : State) (t : Target) (a : Word) : Chk Unit :=
  if s.olderStore s.cur s.seq t.loc 8 || s.layered s.cur t.loc 8 then .error .wait
  else s.localReady t true a 8

/-- What an acquire by the current context does to the detector: it learns from the lock's sector (R275, R276). -/
def State.learnLock (s : State) (t : Target) (scope : Nat) : State :=
  match t with
  | .near _ => s
  | .far p =>
    match tblFind s.raceShadow (p.loc / 64) with
    | some h => s.modMe (fun x => { x with race := x.race.learn h.writer h.intv scope })
    | none => s

/-- The access to a far lock word is logged where its page logs, as an atomic (R274, R277). -/
def State.logLock (s : State) (t : Target) (va : Word) : State :=
  match t with
  | .near _ => s
  | .far p => (s.raceNote s.cur p va true true).observe s.cur p.loc 8

/-- A far lock word's write leaves its shadow (R275, R276). -/
def State.noteLock (s : State) (t : Target) : State :=
  match t with
  | .near _ => s
  | .far p => if s.checks p.leaf then s.shade s.cur p.loc s.me.race.interval true else s

def execAcq (a : BitVec 5) (c : BitVec 3) (s : State) : Host.Outcome State Fault Refusal :=
  let va := s.sr a
  perform (do
    let (t, v) ← s.lockAt va
    need (v != s.ownerValue s.cur) (trapA cProt va)
    s.lockReady t va
    await (v == 0)
    pure t) (fun t =>
      (((((s.logLock t va).acquired s.cur c.toNat).newInterval s.cur).learnLock t c.toNat).store t.loc 8 (s.ownerValue s.cur)).noteLock t) s

def execRel (a : BitVec 5) (c : BitVec 3) (s : State) : Host.Outcome State Fault Refusal :=
  let va := s.sr a
  perform (do
    let (t, v) ← s.lockAt va
    need (v == s.ownerValue s.cur) (trapA cProt va)
    s.lockReady t va
    await (s.coveredDone s.cur va c.toNat)
    pure t) (fun t => (((s.logLock t va).newInterval s.cur).store t.loc 8 0).noteLock t) s

/-! Fences (R96). -/

/-- What the fences do: fence.acq and fence acquire (R251), and the detector follows (R275, R276). -/
def State.fenced (s : State) (acq : Bool) (scope : Nat) : State :=
  let s := s.newInterval s.cur
  if acq then (s.acquired s.cur scope).modMe (fun x => { x with race := x.race.flush scope }) else s

def execFenceAcq (c : BitVec 3) (s : State) : Host.Outcome State Fault Refusal :=
  perform (await (s.loadsDone s.cur)) (fun _ => s.fenced true c.toNat) s

def execFenceRel (c : BitVec 3) (s : State) : Host.Outcome State Fault Refusal :=
  perform (await (s.storesDone s.cur c.toNat && s.opsDone s.cur)) (fun _ => s.fenced false c.toNat) s

def execFence (c : BitVec 3) (s : State) : Host.Outcome State Fault Refusal :=
  perform (await (s.loadsDone s.cur && s.storesDone s.cur c.toNat && s.opsDone s.cur))
    (fun _ => s.fenced true c.toNat) s

/-- LFENCE: the core's record cache is invalidated once the context's stores are performed (R96, R266). -/
def execLfence (s : State) : Host.Outcome State Fault Refusal :=
  perform (await (s.storesDone s.cur 5)) (fun _ =>
    s.modCore (coreOf s.cur) (fun k => { k with recCache := [] })) s

/-- IFENCE: once the context's stores are performed at core scope, the core's fetch buffers are discarded; the buffers
of active loop bodies stay (R96, R273). -/
def execIfence (s : State) : Host.Outcome State Fault Refusal :=
  perform (await (s.storesDone s.cur 1)) (fun _ => s.modCore (coreOf s.cur) (fun k => { k with fetched := [] })) s

end Sys2Proof.Machine
end

