-- ==== Sys2Proof/Machine/EngineConfig.lean ====
section
/-! DEFINITION. Engine registers (spec 01 R21, R22; spec 03 R110, R111; spec 05 R151; spec 06 R175 to R181;
spec 07 R205; spec 12 R333): EWR, ERD, EDRAIN and EFENCE. -/

namespace Sys2Proof.Machine

/-- The index names a register of the engine (R110). -/
def engineReg (e i : Nat) : Bool :=
  match e with
  | 0 => decide (i ≤ 6) || decide (16 ≤ i)
  | 1 => i == 0
  | 2 => i == 0
  | 3 => decide (i ≤ 1)
  | 4 => decide (i ≤ 5) || (decide (8 ≤ i) && decide (i ≤ 23))
  | 5 => decide (i ≤ 1)
  | _ => false

/-- A two-bit field of a value with its illegal code 3 stored as 0. -/
def noThree (v : Word) (lo : Nat) : Word := if bitsOf v.toNat (lo + 1) lo = 3 then v &&& ~~~(3#64 <<< lo) else v

/-- `cube.latch` (R181). -/
def Latch.word (l : Latch) : Word :=
  BitVec.ofNat 64 (l.lmask.toNat * 2 ^ 16 + l.grp.toNat * 2 ^ 12 + l.bfmt.toNat * 2 ^ 8 +
    (if l.hold then 2 else 0) + (if l.valid then 1 else 0))

/-- `copy.crctl` (R205). -/
def CopyRegs.crctl (c : CopyRegs) : Word :=
  BitVec.ofNat 64 (c.lost.toNat * 2 ^ 48 + c.size.toNat * 2 ^ 32 + c.widx.toNat * 2 ^ 16 + c.ridx.toNat)

/-- `copy.sstat` (R205). -/
def CopyRegs.sstat (c : CopyRegs) : Word :=
  BitVec.ofNat 64 ((if c.halt then 2 ^ 31 else 0) + c.hentry.toNat * 2 ^ 16 + c.fcode.toNat * 2 ^ 8 +
    c.sched.length)

/-- The low half of a stream binding (R21); one that is not live reads 0 (R205). -/
def Binding.lo (b : Binding) : Word :=
  if b.bound then BitVec.ofNat 64 (b.sched.toNat * 2 ^ 48 + b.hreg.toNat * 2 ^ 8 + 1) else 0#64

/-- The high half. -/
def Binding.hi (b : Binding) : Word := if b.bound then b.headSeq ++ b.fillSeq else 0#64

/-- Collectives of a context in flight (R333). -/
def State.collsOf (s : State) (c : Nat) : List Coll := s.colls.filter (fun o => o.ctx == c && !o.done)

/-- The fault not consumed of the oldest collective of a context that has faulted: identifiers count up (R333). -/
def Ctx.oldestColl (x : Ctx) : Option EngFault :=
  let age := fun (f : EngFault) => (x.eng.collLast - f.coll).toNat
  (x.faults.filter (fun f => f.engine == 5)).foldl (fun (b : Option EngFault) f => match b with
    | none => some f
    | some g => if age g < age f then some f else some g) none

/-- `collective.stat` (R333). -/
def State.collStat (s : State) (c : Nat) : Word :=
  let (id, code) := match (s.ctx c).oldestColl with
    | some f => (f.coll.toNat, f.fcode.toNat)
    | none => (0, 0)
  BitVec.ofNat 64 (id * 2 ^ 32 + code * 2 ^ 8 + (s.collsOf c).length)

/-- What an engine register of the current context reads; a register of an absent unit reads 0 (R7, R389). -/
def State.engineRead (s : State) (e i : Nat) : Word :=
  let r := s.me.eng
  let q := r.cube
  let bind := fun (n : Nat) => s.me.binds.toList.getD n Binding.reset
  match e with
  | 0 =>
    match i with
    | 0 => q.shape
    | 1 => q.lmask
    | 2 => q.mode
    | 3 => q.dir
    | 4 => q.acc
    | 5 => q.fsel
    | 6 => r.latch.word
    | _ => q.fmt.toList.getD (i - 16) 0
  | 1 => r.vcfg
  | 2 => r.tcfg
  | 3 => if i = 0 then r.ucfg else r.uwver
  | 4 =>
    match i with
    | 0 => r.copy.cfg
    | 1 => r.copy.crbase
    | 2 => r.copy.crctl
    | 3 => r.copy.lastid.setWidth 64
    | 4 => r.copy.stage.setWidth 64
    | 5 => r.copy.sstat
    | _ => if i < 16 then (bind (i - 8)).lo else (bind (i - 16)).hi
  | _ => if !s.part.fabric then 0 else if i = 0 then r.collLast.setWidth 64 else s.collStat s.cur

/-- Write an engine register under its access codes: a read-only one ignores it, reserved bits are forced to 0
(R10, R110). -/
def EngRegs.write (r : EngRegs) (e i : Nat) (v : Word) : EngRegs :=
  match e with
  | 0 =>
    match i with
    | 0 => { r with cube.shape := v &&& 0x1FFF3F3F#64 }
    | 1 => { r with cube.lmask := v &&& 0xFF#64 }
    | 2 => { r with cube.mode := v &&& 3#64 }
    | 3 => { r with cube.dir := v &&& 1#64 }
    | 4 => { r with cube.acc := v &&& 1#64 }
    | 5 => { r with cube.fsel := v &&& 0xFF#64 }
    | 6 => r
    | _ =>
      { r with cube.fmt := Vector.ofFn (fun k : Fin 16 => if k.val + 16 = i then v &&& 0x3FF#64 else r.cube.fmt[k]) }
  | 1 => { r with vcfg := noThree (v &&& 0x37#64) 4 }
  | 2 => { r with tcfg := if v.getLsbD 1 then v &&& 0x1C#64 else v &&& 0x1F#64 }
  | 3 => if i = 0 then { r with ucfg := noThree (v &&& 3#64) 0 } else { r with uwver := v &&& 0xFFFF#64 }
  | 4 =>
    match i with
    | 0 => { r with copy.cfg := noThree (v &&& 0x1FFFF#64) 2 }
    | 1 => { r with copy.crbase := v &&& ~~~0x3F#64 }
    | 2 => { r with copy.ridx := v.setWidth 16, copy.size := v.extractLsb' 32 4 }
    | _ => r
  | _ => r

/-- EWR: the engine words of later bundles see it (R110). -/
def execEwr (c : BitVec 5) (a : BitVec 5) (b : BitVec 5) (s : State) : Host.Outcome State Fault Refusal :=
  performOn (if a.toNat < 6 then a else 31#5) (need (engineReg a.toNat b.toNat) (trapC cIllegalOp)) (fun _ =>
    s.modMe (fun x => { x with eng := x.eng.write a.toNat b.toNat (s.sr c) })) s

/-- ERD: latency 2 (R47, R110). -/
def execErd (c : BitVec 5) (a : BitVec 5) (b : BitVec 5) (s : State) : Host.Outcome State Fault Refusal :=
  performOn (if a.toNat < 6 then a else 31#5) (need (engineReg a.toNat b.toNat) (trapC cIllegalOp)) (fun _ =>
    s.put c (s.engineRead a.toNat b.toNat) 2) s

/-- EDRAIN: a drain slot after the cube operations issued before it (R111, R191). -/
def execEdrain (s : State) : Host.Outcome State Fault Refusal := always (fun s => s.issueOp 0 .edrain []) s

/-- EFENCE waits for every engine operation the context issued, iterations of a schedule apart (R111); it is a
collective wait (R337). -/
def execEfence (s : State) : Host.Outcome State Fault Refusal :=
  perform (do s.collectiveWait (fun _ => true); await (s.opsDone s.cur)) (fun _ => s) s

end Sys2Proof.Machine
end

