-- ==== Sys2Proof/Machine/Copies.lean ====
section
/-! DEFINITION. Gauges, completion records, copies and rings of the copy engine (spec 07 R204 to R223). -/

namespace Sys2Proof.Machine

def eCopy : BitVec 5 := 4#5

/-- Perform a word of the copy engine that is complete as it issues; ESTAT counts it (R102). -/
def atOnce {α : Type} (chk : Chk α) (eff : α → State) (s : State) : Host.Outcome State Fault Refusal :=
  performOn eCopy chk (fun a => (eff a).countDone s.cur 4) s

/-! Gauges (R212 to R216). -/

/-- A gauge as its 16 bytes hold it (R212). -/
structure Gauge where
  init : Bool
  ovr : Bool
  rest : Nat
  gen : BitVec 32
  arr : Nat
  tgt : Nat
  deriving DecidableEq, Repr

def gaugeOf (n : Nat) : Gauge :=
  ⟨n.testBit 127, n.testBit 126, bitsOf n 125 96, BitVec.ofNat 32 (n / 2 ^ 64), bitsOf n 63 32, n % 2 ^ 32⟩

def Gauge.bits (g : Gauge) : Nat :=
  (if g.init then 2 ^ 127 else 0) + (if g.ovr then 2 ^ 126 else 0) + g.rest * 2 ^ 96 + g.gen.toNat * 2 ^ 64 +
    g.arr * 2 ^ 32 + g.tgt

def State.gaugeAt (s : State) (loc : Nat) : Gauge := gaugeOf (memRead s.mem loc 16)

/-- One counted arrival of n bytes, and whether the gauge overran (R213). -/
def Gauge.count (g : Gauge) (n : Nat) : Gauge × Bool :=
  if !g.init || g.ovr then ({ g with ovr := true }, true)
  else
    let a := g.arr + n
    if a = g.tgt then ({ g with gen := g.gen + 1, arr := 0 }, false)
    else ({ g with arr := a % 2 ^ 32, ovr := decide (g.tgt < a) }, decide (g.tgt < a))

/-- A gauge handle has the right form (R212). -/
def gaugeForm (h : Handle) : Bool := hKind h == kGauge && isLocal (hBase h) && !hD h && !hW h && !hQ h

/-- The places of a gauge on some cores, once its form has been checked (R20, R29, R212). -/
def State.gaugePlaces (s : State) (h : Handle) (cores : List Nat) : Chk (List Nat) := do
  need (handleAligned h) (trapA cAlign (hBase h))
  cores.mapM (fun k => s.localAt s.cur k (hBase h) 16)

/-- A gauge of the issuing core; it waits while another engine holds its bytes busy (R40). -/
def State.ownGauge (s : State) (h : Handle) (ok : Bool) : Chk Nat := do
  need (gaugeForm h && ok) (trapE eCopy fHandleForm)
  let _ ← s.gaugePlaces h [coreOf s.cur]
  let l := spadLoc (coreOf s.cur) (hBase h).toNat
  await (!s.rangeBusy (coreOf s.cur) (some 4) l 16)
  pure l

/-- GINIT (R214). -/
def execGinit (c : BitVec 5) (a : BitVec 5) (s : State) : Host.Outcome State Fault Refusal :=
  let v := (s.sr a).toNat
  atOnce (s.ownGauge (s.hr c) (decide (1 ≤ v) && decide (v < 2 ^ 30))) (fun l =>
    let g := s.gaugeAt l
    { s.store l 16 { g with init := true, ovr := false, rest := g.rest % 2 ^ 16, arr := 0, tgt := v }.bits with
      gaugeScopes := tblDel s.gaugeScopes l }) s

/-- A GWAIT for generation a, of a gauge, may issue, traps, or waits (R215). -/
def State.gaugeReady (s : State) (c : Nat) (h : Handle) (l : Nat) (a b : Word) : Chk Unit :=
  let g := s.gaugeAt l
  if g.ovr then trapA cGaugeOverrun (hBase h)
  else if 0 ≤ seqDiff g.gen (a.setWidth 32) then .ok ()
  else match (s.ctx c).waitFrom with
    | some t => if b ≠ 0#64 ∧ t + b.toNat ≤ s.time then trapA cGaugeTimeout (hBase h) else .error .wait
    | none => .error .wait

/-- GWAIT: a collective wait, and an acquire at the widest scope of the copies that have counted since the gauge's
GINIT (R215, R337, R255, R276). -/
def execGwait (c : BitVec 5) (a : BitVec 5) (b : BitVec 5) (s : State) : Host.Outcome State Fault Refusal :=
  atOnce (do
    let l ← s.ownGauge (s.hr c) true
    s.collectiveWait (fun f => f.gauge == BitVec.ofNat 64 l)
    s.gaugeReady s.cur (s.hr c) l (s.sr a) (s.sr b)
    pure l) (fun l => (s.newInterval s.cur).setFloor s.cur (tblGet s.gaugeScopes l 0)) s

/-- What GREAD answers (R216). -/
def Gauge.snapshot (g : Gauge) : Word :=
  BitVec.ofNat 64 (g.gen.toNat * 2 ^ 32 + (if g.ovr then 2 ^ 31 else 0) + (if g.init then 2 ^ 30 else 0) +
    min g.arr (2 ^ 30 - 1))

/-- GREAD (R216). -/
def execGread (c : BitVec 5) (a : BitVec 5) (s : State) : Host.Outcome State Fault Refusal :=
  atOnce (s.ownGauge (s.hr a) true) (fun l =>
    s.pendLoad .scalar c (.value ((s.gaugeAt l).snapshot.setWidth 256)) 0) s

/-! The barrier of a group (R217). -/

/-- The contexts that run tasks of the group of context c. -/
def State.groupOf (s : State) (c : Nat) : List Nat :=
  match (s.ctx c).task with
  | none => []
  | some t => s.ctxs.filterMap (fun p => match p.2.task with
    | some u => if u.launch == t.launch && u.group == t.group then some p.1 else none
    | none => none)

/-- How many tasks the group of context c has (R281, R284). -/
def State.groupSizeOf (s : State) (c : Nat) : Nat :=
  match (s.ctx c).task, s.launchOf c with
  | some t, some l => min (max l.group 1) (l.tasks - t.group * max l.group 1)
  | _, _ => 1

/-- The writes of a context that a barrier covers are performed at cluster scope: its scalar writes, those it has
observed, and those of its engine operations to global memory; an earlier GINIT is complete at its step (R217,
R251, R255). -/
def State.barrierDone (s : State) (c : Nat) : Bool :=
  s.storesDone c 2 && !(s.ops.any (fun o => o.ctx == c && o.entry.isNone && o.dests.any (fun d => d.2 != 0)))

/-- Every task of the group stands at, or is past, its barrier number n, its writes performed. -/
def State.allReached (s : State) (c n : Nat) : Bool :=
  let g := s.groupOf c
  decide (s.groupSizeOf c ≤ max g.length 1) &&
  (c :: g).all (fun d =>
    (d == c || decide (n ≤ (s.ctx d).gbars) || ((s.ctx d).atBar && decide (n ≤ (s.ctx d).gbars + 1))) && s.barrierDone d)

/-- GBAR: the first participant to pass opens the barrier to the others. -/
def execGbar (s : State) : Host.Outcome State Fault Refusal :=
  let n := s.me.gbars + 1
  atOnce (await (decide (n ≤ s.me.barOpen) || s.allReached s.cur n)) (fun _ =>
    let t := (s.groupOf s.cur).foldl (fun (s : State) d =>
      s.modCtx d (fun x => { x with barOpen := max x.barOpen n })) s
    ((t.modMe (fun x => { x with gbars := n, atBar := false })).newInterval s.cur).setFloor s.cur 2) s

/-! Completion records (R218, R220). The scope of a row of R255: cluster for bytes in a scratchpad, package for global
ones, fabric for those of a peer. -/

/-- The scope of an operation's destinations. -/
def Op.scope (o : Op) : Nat :=
  (o.args.filter (fun p => p.1 == 0 || decide (16 ≤ p.1))).foldl (fun m p =>
    max m (if isLocal p.2.base then 2 else if p.2.loc p.2.base / 2 ^ 50 = 3 then 5 else 4)) 0

/-- Change the copy engine registers of a context. -/
def State.modCopyRegs (s : State) (c : Nat) (f : CopyRegs → CopyRegs) : State :=
  s.modCtx c (fun x => { x with eng.copy := f x.eng.copy })

def stDone : Nat := 1
def stFault : Nat := 2
def stCancelled : Nat := 3
def stOverrun : Nat := 4
def stSchedHalt : Nat := 5

/-- A record is dropped (R218). -/
def State.loseRecord (s : State) (c : Nat) : State :=
  s.modCopyRegs c (fun r => { r with lost := if r.lost = 0xFFFF#16 then r.lost else r.lost + 1 })

/-- Write a completion record into a context's ring, whose base and size are those of some registers: of the copy's
issue (R22); it wakes a context asleep (R218, R297). Writing a DONE record is a release at a scope (R255, R275). -/
def State.record (s : State) (c : Nat) (g : CopyRegs) (status scope : Nat) (id : BitVec 32) (bytes : Nat)
    (cause fcode : BitVec 8) (addr : Word) : State :=
  let r := (s.ctx c).eng.copy
  let slot := r.widx.toNat % 2 ^ g.size.toNat
  if g.size = 0#4 ∨ 2 ^ g.size.toNat ≤ (r.widx - r.ridx).toNat then s.loseRecord c
  else
    let a := g.crbase + BitVec.ofNat 64 (32 * slot)
    match s.dataAt c (coreOf c) (s.agentOf c) .write a 32 with
    | .error _ => s.loseRecord c
    | .ok loc =>
      if s.poisoned loc 32 then (s.loseRecord c).logError 2 (s.physical c a) 5 (coreOf c) (c % 4) 0
      else
        let v := addr.toNat * 2 ^ 192 + s.time % 2 ^ 64 * 2 ^ 128 + bytes % 2 ^ 64 * 2 ^ 64 + id.toNat * 2 ^ 32 +
          fcode.toNat * 2 ^ 16 + cause.toNat * 2 ^ 8 + status
        let s := if status = stDone then s.tickInterval else s
        ((s.store loc 32 v).modCopyRegs c (fun r =>
          { r with widx := r.widx + 1, scopes := tblSet r.scopes slot (if status = stDone then scope else 0) })).modCtx c
          (fun x => x.awake s.cycles)

/-- WAITC (R220, R255, R276). -/
def execWaitc (c : BitVec 5) (s : State) : Host.Outcome State Fault Refusal :=
  let r := s.me.eng.copy
  atOnce (do
    need (r.size != 0#4) (trapE eCopy fCopyRing)
    await (r.widx != r.ridx)) (fun _ =>
      let a := r.crbase + BitVec.ofNat 64 (32 * (r.ridx.toNat % 2 ^ r.size.toNat))
      let slot := r.ridx.toNat % 2 ^ r.size.toNat
      (((s.pendLoad .scalar c (.value (a.setWidth 256)) 0).modCopyRegs s.cur
        (fun r => { r with ridx := r.ridx + 1, scopes := tblDel r.scopes slot })).newInterval s.cur).setFloor s.cur
          (tblGet r.scopes slot 0)) s

/-- Count n bytes into the gauge at an address of core k for context c, whose record tells of an overrun; a
release at a scope (R213, R218, R255, R275). -/
def State.countGauge (s : State) (c k : Nat) (regs : CopyRegs) (scope : Nat) (a : Word) (id : BitVec 32) (n landed : Nat) :
    State :=
  let loc := spadLoc k a.toNat
  let (g, spill) := (s.gaugeAt loc).count n
  let t := { s.store loc 16 g.bits with
    intervals := s.intervals + 1
    gaugeScopes := tblSet s.gaugeScopes loc (max scope (tblGet s.gaugeScopes loc 0)) }
  if spill then t.record c regs stOverrun 0 id landed 0 0 ((hput (a.setWidth 256) 30 2 (k % 4)).setWidth 64) else t

/-! Rings as destinations (R222, R223). -/

/-- A ring that a producer claims from: where it lies, and its next slot (R222, R223). -/
structure RingSlot where
  loc : Nat
  seq : BitVec 32
  free : Bool
  deriving DecidableEq, Repr

/-- The slot an operation would claim: the ring's control bytes and slots must be writable (R208, R223). A ring
lies in the scratchpad of core k or in global memory. -/
def State.claimable (s : State) (eng : BitVec 5) (h : Handle) (k : Nat) : Chk (RingSlot × Option (Layout × Nat × BitVec 512)) := do
  let b := hBase h
  need (b.toNat % 64 == 0) (trapA cAlign b)
  let lay ← s.layoutFor s.cur eng h
  let loc ← if isLocal b then s.localAt s.cur k b (ringSpan h (lay.map (·.1)))
    else s.byteAt (s.agentOf s.cur) .write b
  let q := s.ringClaim loc
  pure (⟨loc, q, (q - s.ringHead loc).toNat != hDepth h⟩, lay)

/-- Claim a slot (R223); a faulted copy that had claimed it before, in a ring set up afresh since, holds it no longer. -/
def State.claimSlot (s : State) (r : RingSlot) : State :=
  { s.store (r.loc + 8) 4 (r.seq + 1).toNat with
    unfilled := s.unfilled.filter (fun u =>
      !(u.loc == r.loc && u.seq == r.seq && (!isSpad r.loc || u.team == s.teamOf s.cur))) }

/-- The slot of an operation that has ended is filled. -/
def State.fillSlot (s : State) (o : Op) : State :=
  match o.slot with
  | some (loc, _) => s.advanceTail (s.teamOf o.ctx) loc
  | none => s

/-- The slot of a copy that has faulted is never filled (the model's choice, log 29). -/
def State.loseSlot (s : State) (o : Op) : State := { s with unfilled := s.unfilled ++ o.claimed (s.teamOf o.ctx) }

/-! Copies at issue (R205 to R211). -/

def CopyRegs.layerMode (r : CopyRegs) : Nat := bitsOf r.cfg.toNat 3 2
def CopyRegs.layers (r : CopyRegs) : List Nat := layersOf (bitsOf r.cfg.toNat 15 8)
def CopyRegs.noGauge (r : CopyRegs) : Bool := r.cfg.getLsbD 0
def CopyRegs.records (r : CopyRegs) : Bool := r.cfg.getLsbD 1

/-- The three forms of R207. -/
inductive CopyForm where
  | one
  | many
  | rotate
  deriving DecidableEq, Repr

/-- The receivers of a copy: cores; the issuing core for a global destination, a layout record's among them (R207, R212,
R268). -/
def State.copyCores (s : State) (f : CopyForm) (dst : Handle) : List Nat :=
  let k := coreOf s.cur
  let cfg := s.me.eng.copy.cfg
  match f with
  | .one => if isLocal (hBase dst) && hKind dst != kLayout then [clusterCore k (ccoreOf (hBase dst))] else [k]
  | .many => ((List.range 4).filter (fun p => cfg.getLsbD (4 + p))).map (clusterCore k)
  | .rotate => [clusterCore k ((k % 4 + (if cfg.getLsbD 16 then 3 else 1)) % 4)]

/-- A layout-record destination (R268). -/
def layoutDest (dst src : Handle) (mode : Nat) : Bool :=
  hFmt dst == 9 && hExt dst 0 == 64 && hExt dst 1 == 1 && hExt dst 2 == 1 && hExt dst 3 == 1 &&
  !hQ dst && !hD dst && hLrec dst != 0 && hFmt src == 9 && mode == 0

/-- The form rules of R207, R208 and R222. -/
def State.copyForm (s : State) (f : CopyForm) (dst src g : Handle) (b : BitVec 5) : Bool :=
  let r := s.me.eng.copy
  let mode := r.layerMode
  let longest := ((chunksOf (hExt src 0) r.layers).map (fun c => c.2.2)).foldl max 0
  let shapes := if mode = 2 then hExt dst 1 == hExt src 1 && hExt dst 2 == hExt src 2 && hExt dst 3 == hExt src 3 &&
      decide (longest ≤ hExt dst 0)
    else sameExt dst src
  handleOk src && hKind src == kPlain && !hW src && handleOk dst && !hW dst &&
  (hKind dst == kPlain || (f == .one && (hKind dst == kRing || (hKind dst == kLayout && layoutDest dst src mode)))) &&
  hFmt dst == hFmt src && shapes && (hFmt src != 5 || (hExt src 0 % 2 == 0 && hExt dst 0 % 2 == 0)) &&
  (f == .one || (isLocal (hBase src) && isLocal (hBase dst))) &&
  (f != .many || bitsOf r.cfg.toNat 7 4 != 0) && (f != .rotate || mode == 0) &&
  (mode == 0 || (isLocal (hBase dst) && (areaOf (hBase dst) == 1 || areaOf (hBase dst) == 2) &&
    layerOf (hBase dst) == 0 && r.layers.length != 0)) &&
  (hKind dst != kRing || hExt dst 3 == 1) &&
  (if r.noGauge then b == 0#5 else gaugeForm g)
where
  sameExt (g h : Handle) : Bool := extents g == extents h

/-- The destination of a copy at one receiver, core k: its operand and the slot it claims. -/
def State.copyDest (s : State) (role : Nat) (h : Handle) (k : Nat) : Chk (Arg × Option RingSlot) := do
  let r := s.me.eng.copy
  let ag := s.agentOf s.cur
  let wide := fun (a : Arg) =>
    if r.layerMode = 0 then a else { a with ranges := a.ranges.map (stretch r.layers) }
  if hKind h = kLayout then
    let a := s.layoutAddr s.cur (hLrec h)
    let loc ← s.byteAt ag .write a
    let o : Opnd := ⟨hput h 208 8 0, a, k, none, [(a.toNat / 2 ^ 18, loc - a.toNat % 2 ^ 18)]⟩
    pure (⟨role, o, [], [], none, true⟩, none)
  else if hKind h = kRing then
    let (slot, lay) ← s.claimable eCopy h k
    let l := lay.map (·.1)
    let base := slotBase h slot.seq
    let o : Opnd := ⟨h, base, k, l, []⟩
    let pages ← if isLocal base then pure [] else pagesBy (s.byteAt ag .write) o.ends []
    let ranges := if isLocal base then [(spadLoc k base.toNat, spanOf h l)] else []
    pure (wide ⟨role, { o with pages := pages }, ranges, lay.toList.map (·.2), none, slot.free⟩, some slot)
  else
    let a ← s.anyArg eCopy role .write k h
    pure (wide a, none)

/-- What issue of a copy settles: its operands, the slot it claims, its receivers. -/
structure CopyPlan where
  args : List Arg
  slot : Option RingSlot
  cores : List Nat

/-- The group of context c holds tasks on all four cores of its cluster (R211). -/
def State.fullCluster (s : State) (c : Nat) : Bool :=
  (List.range 4).all (fun p => (s.groupOf c).any (fun d => coreOf d == clusterCore (coreOf c) p))

/-- The destination operand takes one busy range, whatever the number of its receivers: that of the issuing core's own bytes
where it is one of them, else that of the first (R39, R210). -/
def oneRange (own : Nat) (as : List Arg) : List Arg :=
  let at_ := if as.any (fun a => a.o.core == own) then own else (as.head?.map (·.o.core)).getD own
  as.map (fun a => if a.o.core = at_ then a else { a with ranges := [] })

/-- The role of the n-th receiver's destination. -/
def destRole (n : Nat) : Nat := if n = 0 then 0 else 15 + n

/-- The checks and waits of a copy (R208, R211, R223). -/
def State.copyCheck (s : State) (f : CopyForm) (c a b : BitVec 5) : Chk CopyPlan := do
  let r := s.me.eng.copy
  let dst := s.hr c
  let src := s.hr a
  let g := s.hr b
  let cores := s.copyCores f dst
  need (s.copyForm f dst src g b) (trapE eCopy fHandleForm)
  need (handleAligned dst || hKind dst == kLayout) (trapA cAlign (hBase dst))
  need (handleAligned src) (trapA cAlign (hBase src))
  let ds ← cores.zipIdx.mapM (fun p => s.copyDest (destRole p.2) dst p.1)
  let x ← s.anyArg eCopy 1 .read (coreOf s.cur) src
  let _ ← if r.noGauge then pure [] else s.gaugePlaces g cores
  s.scaleForm eCopy dst
  s.scaleForm eCopy src
  s.noneDropped [c, a]
  need (r.layerMode != 2 || !hQ src || (chunksOf (hExt src 0) r.layers).all (fun p =>
    p.2.1 % groupSize (hDepth src) == 0 && p.2.2 % groupSize (hDepth src) == 0)) (trapC cFmtGroup)
  need (f != .rotate || s.fullCluster s.cur) (trapE eCopy fRotGroup)
  let args := oneRange (coreOf s.cur) (ds.map (·.1)) ++ [x]
  s.canIssue 4 args
  await (r.noGauge || !s.rangeBusy (coreOf s.cur) (some 4) (spadLoc (coreOf s.cur) (hBase g).toNat) 16 ||
    !cores.contains (coreOf s.cur))
  pure ⟨args, (ds.filterMap (·.2)).head?, cores⟩

/-- The identifier after one (R206). -/
def nextCopyId (n : BitVec 32) : BitVec 32 := if n = 0x7FFFFFFF#32 then 1 else n + 1

/-- Issue of a copy (R206 to R211): `val` is the gauge's address, `aux` tells whether it counts. -/
def State.copyWord (s : State) (f : CopyForm) (i : Instr) (c a b : BitVec 5) : Host.Outcome State Fault Refusal :=
  let k := coreOf s.cur
  performOn eCopy (s.copyCheck f c a b) (fun p =>
    let id := nextCopyId s.me.eng.copy.lastid
    let t := s.issueOp 4 i p.args (fun o =>
      { o with
        val := hBase (s.hr b)
        aux := if s.me.eng.copy.noGauge then 0 else 1
        copyId := id
        recvs := p.cores
        slot := p.slot.map (fun r => (r.loc, r.seq))
        round := if f == .rotate then (s.core k).rots + 1 else 0 })
    let t := match p.slot with
      | some r => t.claimSlot r
      | none => t
    let t := if f == .rotate then t.modCore k (fun x => { x with rots := x.rots + 1 }) else t
    t.modCopyRegs s.cur (fun r => { r with lastid := id })) s

def execCpy (c : BitVec 5) (a : BitVec 5) (b : BitVec 5) (s : State) : Host.Outcome State Fault Refusal :=
  s.copyWord .one (.cpy c a b) c a b

def execCpym (c : BitVec 5) (a : BitVec 5) (b : BitVec 5) (s : State) : Host.Outcome State Fault Refusal :=
  s.copyWord .many (.cpym c a b) c a b

def execRrot (c : BitVec 5) (a : BitVec 5) (b : BitVec 5) (s : State) : Host.Outcome State Fault Refusal :=
  s.copyWord .rotate (.rrot c a b) c a b

/-! Copies in flight. -/

/-- The destination operands of an operation. -/
def Op.dests' (o : Op) : List Opnd := (o.args.filter (fun p => p.1 == 0 || decide (16 ≤ p.1))).map (·.2)

/-- The destination at receiver k. -/
def Op.destAt (o : Op) (k : Nat) : Opnd := (o.dests'.find? (fun d => d.core == k)).getD (o.arg 0)

/-- The runs of locations that an operand covers: of scratchpad, or of each of its pages. -/
def Opnd.runs (o : Opnd) (ls : List Nat) : List (Nat × Nat) :=
  let n := spanOf o.h o.lay
  if n = 0 then []
  else if isLocal o.base then [stretch ls (spadLoc o.core o.base.toNat, n)]
  else o.pages.map (fun p =>
    let lo := max o.base.toNat (p.1 * 2 ^ 18)
    let hi := min (o.base.toNat + n) ((p.1 + 1) * 2 ^ 18)
    (p.2 + (lo - p.1 * 2 ^ 18), hi - lo))

/-- The layers a copy writes (R209). -/
def Op.copyLayers (o : Op) : List Nat := if o.regs.copy.layerMode = 0 || o.entry.isSome then [0] else o.regs.copy.layers

def Op.writesAt (o : Op) : List (Nat × Nat) := o.dests'.flatMap (fun d => d.runs o.copyLayers)
def Op.readsAt (o : Op) : List (Nat × Nat) := (o.arg 1).runs [0]

/-- Two lists of runs share a byte. -/
def runsMeet (a b : List (Nat × Nat)) : Bool := a.any (fun x => b.any (fun y => overlaps x.1 x.2 y.1 y.2))

/-- An earlier copy of the core that one depends on is still in flight (R40, R210, R250). -/
def State.copyBehind (s : State) (o : Op) : Bool :=
  s.ops.any (fun p => p.engine == 4 && p.core == o.core && decide (p.id < o.id) &&
    (runsMeet p.writesAt o.writesAt || runsMeet p.writesAt o.readsAt || runsMeet p.readsAt o.writesAt))

/-- The operations of a rotation round of a cluster (R211). -/
def State.roundOf (s : State) (o : Op) : List Op :=
  s.ops.filter (fun p => p.engine == 4 && p.round == o.round && clusterBase p.core == clusterBase o.core)

/-- A copy may move its data: its context's earlier accesses are performed, no earlier copy is in its way, and
a rotation has its whole round issued (R210, R211, R250). -/
def State.copyFree (s : State) (o : Op) : Bool :=
  (o.entry.isSome || s.accessesDone o) && !s.copyBehind o &&
  (o.round == 0 || (List.range 4).all (fun p => decide (o.round ≤ (s.core (clusterCore o.core p)).rots)))

/-- The same, of a whole rotation round: every source is read before any write lands (R211). -/
def State.copyMoves (s : State) (o : Op) : Bool :=
  s.copyFree o && (o.data.isSome || o.round == 0 || (s.roundOf o).all (fun p => p.data.isSome || s.copyFree p))

/-- A copy in flight by its number. -/
def State.copy? (s : State) (id : Nat) : Option Op :=
  s.ops.find? (fun o => o.id == id && o.engine == 4 && o.entry.isNone)

/-- The first source byte of a copy not yet read that meets an uncorrectable error (R219). -/
def State.badSource (s : State) (o : Op) : Option Word :=
  if o.data.isSome then none else s.badElement (o.arg 1) (indices (o.arg 1).h)

/-- The source elements of a copy. -/
def State.copyData (s : State) (o : Op) : List (Idx × Nat) :=
  let is := indices (o.arg 1).h
  is.zip (o.data.getD (is.map (s.element (o.arg 1))))

/-- What a copy of some source elements writes at one receiver: elements by operand (R209). -/
def Op.copyTo (o : Op) (k : Nat) (vs : List (Idx × Nat)) : List (Opnd × List (Idx × Nat)) :=
  let d := o.destAt k
  let src := (o.arg 1).h
  if o.entry.isSome then [(d, vs)]
  else match o.regs.copy.layerMode with
    | 0 => [(d, vs)]
    | 1 => o.copyLayers.map (fun l => (d.onLayer l, vs))
    | _ => (chunksOf (hExt src 0) o.copyLayers).map (fun c =>
        (d.onLayer c.1, (vs.filter (fun v => decide (c.2.1 ≤ v.1.i0) && decide (v.1.i0 < c.2.1 + c.2.2))).map
          (fun v => ({ v.1 with i0 := v.1.i0 - c.2.1 }, v.2))))

/-- The bytes of some elements of a FMT. -/
def bytesOf (fmt n : Nat) : Nat := n * (fmtBits fmt).getD 0 / 8

/-- Bytes a copy writes for one receiver (R209). -/
def Op.copyBytes (o : Op) (k : Nat) (vs : List (Idx × Nat)) : Nat :=
  bytesOf (hFmt (o.arg 1).h) ((o.copyTo k vs).map (fun p => p.2.length)).sum

/-- Read the sources of a rotation round, whose ranges are released (R39, R211). -/
def State.readRound (s : State) (o : Op) : State :=
  if o.round == 0 then s
  else
    let ids := (s.roundOf o).map (·.id)
    { s with ops := s.ops.map (fun p =>
      if ids.contains p.id && p.data.isNone then
        { p with data := some ((s.copyData p).map (·.2)), ranges := p.readsAt.foldl List.erase p.ranges } else p) }

/-- Change an operation in flight. -/
def State.modOp (s : State) (id : Nat) (f : Op → Op) : State :=
  { s with ops := s.ops.map (fun p => if p.id == id then f p else p) }

/-- A copy whose receivers have all been served ends: its slot counts as filled, its DONE record is written
(R209, R218, R223). -/
def State.finishCopy (s : State) (o : Op) : State :=
  let t := (s.retire o).fillSlot o
  if o.regs.copy.records then t.record o.ctx o.regs.copy stDone o.scope o.copyId o.landed 0 0 0 else t

/-- An in-field test of a core is running: copies into its scratchpad are held back (R390). -/
def State.underTest (s : State) (k : Nat) : Bool :=
  ((s.cube (cubeOfCore k)).fieldTest).any (fun t => t.core == k && t.running.isSome)

/-- The deadline D in nanoseconds (R289). -/
def State.deadline (s : State) : Nat := max 1000 s.pdl.toNat

/-- D has passed for a request. -/
def State.passed (s : State) (t : Nat) : Bool := decide (t + s.deadline ≤ s.time)

/-- A context has stopped and D has passed, so that its copies only wait to be cancelled (R288, R289, R321). -/
def State.cancelling (s : State) (c : Nat) : Bool :=
  match (s.ctx c).preempt with
  | .stopped t _ _ => s.passed t
  | _ => false

/-- The regions bound to a gauge of core k, for a copy of context c: by the gauge's address as a binder of the cluster gave
it (R253, R254). -/
def State.boundGauge (s : State) (c k : Nat) (a : Word) : List BindEntry :=
  (s.boundTo c ((hput (a.setWidth 256) 30 2 (k % 4)).setWidth 64)).filter (fun e => scopeCovers 2 e.binder (s.agent c))

/-- The writes that the release of a copy's count at core k covers beside its own bytes: those of its context to the regions
bound to the gauge before it issued (R253, R255). -/
def State.countCovered (s : State) (o : Op) (k : Nat) : Bool :=
  o.aux != 1#64 || s.regionsDone o.ctx (s.boundGauge o.ctx k o.val) o.scope (fun i => decide (i < o.id))

/-- COPY_LANDING: every byte of a copy for one receiver lands, in one go, and is counted (R209, R213, R255, R268). -/
def execCopyLanding (id : Nat) (recv : Nat) (s : State) : Host.Outcome State Fault Refusal :=
  happen (match s.copy? id with
    | none => s
    | some o =>
      if !(o.recvs.contains recv && s.copyMoves o && s.countCovered o recv) || s.underTest recv || s.cancelling o.ctx || (s.badSource o).isSome ||
          (s.roundOf o).any (fun p => o.round != 0 && (s.badSource p).isSome) then s
      else
        let s := (s.raceOpnd o (o.arg 1) false).raceOpnd o (o.destAt recv) true
        let s := s.readRound o
        let data := match s.copy? id with | some p => s.copyData p | none => []
        let n := o.copyBytes recv data
        let s := (o.copyTo recv data).foldl (fun (s : State) p => s.putElements p.1 p.2) s
        let s := if hKind (o.destAt recv).h = kLayout then s.dropRecord ((o.destAt recv).loc (o.destAt recv).base) else s
        let s := s.modOp id (fun p => { p with recvs := p.recvs.filter (fun k => k != recv), landed := p.landed + n })
        let s := if o.aux = 1#64 then s.countGauge o.ctx recv o.regs.copy o.scope o.val o.copyId n (o.landed + n) else s
        match s.copy? id with
        | some p => if p.recvs.isEmpty then s.finishCopy p else s
        | none => s)

/-- What of a copy's data for receiver k lands although the copy stops: whole elements, each or none of them, and a
layout record as one write (R245, R268). -/
def Op.early (o : Op) (k : Nat) (data : List (Idx × Nat)) : List (Opnd × (Idx × Nat)) :=
  let vs := ((o.copyTo k data).flatMap (fun p => p.2.map (fun v => (p.1, v)))).zipIdx
  let record := hKind (o.destAt k).h == kLayout
  if record && decide (vs.length < 64) then []
  else (vs.filter (fun p => Config.landsEarly o.id k (if record then 0 else p.2))).map (·.1)

/-- Whichever elements of a copy that stops had landed are written (R219, R221); their bytes. -/
def State.landSome (s : State) (o : Op) (cores : List Nat) : Nat × State :=
  if !s.copyMoves o then (0, s)
  else
    let data := (s.copyData o).filter (fun v => o.data.isSome || (s.badElement (o.arg 1) [v.1]).isNone)
    cores.foldl (fun (n, s) k =>
      let vs := o.early k data
      let d := o.destAt k
      let s := vs.foldl (fun (s : State) p => s.putElements p.1 [p.2]) s
      let s := if hKind d.h = kLayout ∧ vs.length ≠ 0 then s.dropRecord (d.loc d.base) else s
      (n + bytesOf (hFmt (o.arg 1).h) vs.length, s)) (0, s)

/-- A copy stops for good: a slot it had claimed counts as filled (R221, R223). -/
def State.cancelCopy (s : State) (o : Op) (tell : Bool) : State :=
  let (n, t) := s.landSome o o.recvs
  let t := (t.retire o).fillSlot o
  if tell then t.record o.ctx o.regs.copy stCancelled 0 o.copyId (o.landed + n) 0 0 0 else t

/-- CCAN (R221). -/
def execCcan (a : BitVec 5) (s : State) : Host.Outcome State Fault Refusal :=
  let v := s.sr a
  atOnce (need (!v.getLsbD 31) (trapE eCopy fCopyId)) (fun _ =>
    match s.ops.find? (fun o => o.engine == 4 && o.entry.isNone && o.ctx == s.cur && o.copyId == v.setWidth 32) with
    | some o => s.cancelCopy o true
    | none => s) s

/-- A copy ends with an uncorrectable error that names an address (R218, R219). The slot of a ring that it had claimed stays
unfilled. -/
def State.failCopy (s : State) (o : Op) (a : Word) : State :=
  let (n, t) := s.landSome o o.recvs
  ((t.loseSlot o).record o.ctx o.regs.copy stFault 0 o.copyId (o.landed + n) cMcheck 0 a).opError o a

/-- COPY_FAULT: a copy meets an uncorrectable error in its source (R219). -/
def execCopyFault (id : Nat) (s : State) : Host.Outcome State Fault Refusal :=
  happen (match s.copy? id with
    | none => s
    | some o =>
      match s.badSource o with
      | none => s
      | some a => if s.copyMoves o then s.failCopy o a else s)

end Sys2Proof.Machine
end

