-- ==== Sys2Proof/Machine/Streams.lean ====
section
/-! DEFINITION. Streams and static copy schedules (spec 03 R87; spec 07 R224 to R230). -/

namespace Sys2Proof.Machine

/-- Write HEAD, or TAIL, or CLAIM of a stream's ring: the words that mirror a binding (R225). -/
def State.putRing (s : State) (loc off : Nat) (v : BitVec 32) : State := s.store (loc + off) 4 v.toNat

/-- The ring that a live binding of a context fills: its handle and where its control word lies. -/
def State.streamRing (s : State) (c : Nat) (b : Binding) : Handle × Nat :=
  let h := (s.ctx c).hreg b.hreg
  (h, spadLoc (coreOf c) (hBase h).toNat)

/-- HSEQ (R87). -/
def execHseq (d : BitVec 5) (b : BitVec 5) (s : State) : Host.Outcome State Fault Refusal :=
  let v : BitVec 32 := (s.sr b).setWidth 32
  perform (match s.me.boundBy d with
    | none => trapE 31#5 fHandleForm
    | some n =>
      let q := s.me.binds.toList.getD n Binding.reset
      if seqDiff v q.headSeq < 0 then trapE 31#5 fHandleForm else .ok (n, q)) (fun (n, q) =>
        (s.putRing (s.streamRing s.cur q).2 0 v).modMe (fun x => x.modBind n (fun b => { b with headSeq := v }))) s

/-- Change an entry of the loaded schedule of a context. -/
def State.modEntry (s : State) (c k : Nat) (f : SchedEntry → SchedEntry) : State :=
  s.modCopyRegs c (fun r => { r with sched := r.sched.mapIdx (fun i e => if i = k then f e else e) })

/-- The iterations of an entry in flight. -/
def State.iterations (s : State) (c k : Nat) : List Op :=
  s.ops.filter (fun o => o.engine == 4 && o.ctx == c && o.entry == some k)

/-- The live binding that an entry of a context feeds. -/
def Ctx.fedBy (x : Ctx) (k : Nat) : Option Binding := x.binds.toList.find? (fun b => b.bound && b.sched.toNat == k)

/-- CLAIM of the ring that an entry fills mirrors its next iteration number (R225). -/
def State.mirrorClaim (s : State) (c k : Nat) : State :=
  match (s.ctx c).fedBy k, (s.ctx c).eng.copy.sched[k]? with
  | some b, some e => s.putRing (s.streamRing c b).2 8 (BitVec.ofNat 32 e.next)
  | _, _ => s

/-- Iterations of an entry in flight, from number i on, are cancelled: the entry goes back to number i (R229, R230);
with it the bytes of iteration i that had landed. -/
def State.cancelFrom (s : State) (c k i : Nat) : Nat × State :=
  let late := (s.iterations c k).filter (fun o => decide (i ≤ o.iter))
  let (n, t) := late.foldl (fun (r : Nat × State) o =>
    let (m, s) := r.2.landSome o [coreOf c]
    (if o.iter = i then m else r.1, s)) (0, s)
  (n, ({ t with ops := t.ops.filter (fun o => !(late.any (fun p => p.id == o.id))) }.modEntry c k
    (fun e => { e with next := min e.next i })).mirrorClaim c k)

def State.cancelIterations (s : State) (c k i : Nat) : State := (s.cancelFrom c k i).2

/-- A handle register is written by a word, or at once in the image of a context that leaves (R224, R205). -/
def Ctx.putOrLand (x : Ctx) (now : Bool) (r : BitVec 5) (h : Handle) : Ctx := if now then x.landH r h else x.putH r h 1

/-- Reads in flight through a binding that ends pop the ring's own slots; those that HSEQ has moved past pop none (R87, R223,
R225). -/
def State.unbindPops (s : State) (c n : Nat) (head : BitVec 32) : State :=
  let mine := fun (p : Pop) => p.binding == some n
  { s with ops := s.ops.map (fun o =>
      if o.ctx == c then
        { o with pops := (o.pops.filter (fun p => !(mine p && decide (seqDiff (p.seq + 1) head ≤ 0)))).map (fun p =>
            if mine p then { p with binding := none } else p) }
      else o) }

/-- Reads in flight of a ring that is bound afresh pop nothing of it any more, for its words are set anew (R224; the model's
choice, log 66). -/
def State.dropPops (s : State) (loc : Nat) : State :=
  { s with ops := s.ops.map (fun o => { o with pops := o.pops.filter (fun p => p.loc != loc) }) }

/-- End a live binding of a context: its handle returns to kind ring, its entry stops filling (R224). -/
def State.endBinding (s : State) (c n : Nat) (now : Bool) : State :=
  let b := (s.ctx c).binds.toList.getD n Binding.reset
  if !b.bound then s
  else
    let s := s.unbindPops c n b.headSeq
    let first := ((s.iterations c b.sched.toNat).map (·.iter)).foldl min (2 ^ 64)
    (s.cancelIterations c b.sched.toNat first).modCtx c (fun x =>
      (x.modBind n (fun _ => Binding.reset)).putOrLand now b.hreg (hput (x.hreg b.hreg) 204 4 kRing))

/-- SBIND (R224). -/
def execSbind (c : BitVec 5) (q : BitVec 5) (b : BitVec 5) (s : State) : Host.Outcome State Fault Refusal :=
  let v := s.sr b
  let h := s.hr c
  let n := q.toNat
  let r := s.me.eng.copy
  let live := fun (m : Nat) => (s.me.binds.toList.getD m Binding.reset).bound
  if v = 1#64 <<< 63 then
    atOnce (need (decide (n < 8)) (trapE eCopy fSchedState)) (fun _ => s.endBinding s.cur n false) s
  else
    atOnce (do
      need (handleOk h && hKind h == kRing && isLocal (hBase h) && !hW h && hExt h 3 == 1) (trapE eCopy fHandleForm)
      let e := if v.toNat < 64 then r.sched[v.toNat]? else none
      need (match e with
        | some e => hFmt h == hFmt e.pat && hExt h 0 == hExt e.pat 0 && hExt h 1 == hExt e.pat 1 &&
            hExt h 2 == hExt e.pat 2 && hExt e.pat 3 == 1
        | none => true) (trapE eCopy fHandleForm)
      need ((hBase h).toNat % 64 == 0) (trapA cAlign (hBase h))
      let lay ← s.layoutFor s.cur eCopy h
      let loc ← s.localAt s.cur (coreOf s.cur) (hBase h) (ringSpan h (lay.map (·.1)))
      checkDropped c h
      need (decide (n < 8) && !live n && e.isSome &&
        !(s.me.binds.toList.any (fun x => x.bound && x.sched.toNat == v.toNat))) (trapE eCopy fSchedState)
      await (!s.rangeBusy (coreOf s.cur) (some 4) loc 16)
      pure loc) (fun loc =>
        let i : BitVec 32 := BitVec.ofNat 32 (((r.sched[v.toNat]?).map (·.next)).getD 0)
        let t := (((s.dropPops loc).putRing loc 0 i).putRing loc 4 i).putRing loc 8 i
        t.modMe (fun x =>
          (x.modBind n (fun _ => ⟨i, i, v.setWidth 16, c, true⟩)).putH c (hput h 204 4 kStream) 1)) s

/-! Schedules (R226, R228). -/

/-- An entry from its 64 bytes. -/
def schedEntry (n : Nat) : SchedEntry :=
  ⟨BitVec.ofNat 256 n, BitVec.ofNat 64 (n / 2 ^ 256), BitVec.ofNat 32 (n / 2 ^ 320), BitVec.ofNat 16 (n / 2 ^ 352),
    BitVec.ofNat 64 (n / 2 ^ 384), 0⟩

/-- The bytes of a schedule are read in one page's pieces: where 64 bytes at an address lie, for an agent. -/
def State.schedLine (s : State) (c : Nat) (g : Agent) (a : Word) : Chk Nat :=
  match s.dataAt c (coreOf c) g .read a 64 with
  | .error e => .error e
  | .ok l =>
    if s.poisoned l 64 then trapA cMcheck a
    else .ok (if isLocal a then memRead s.mem l 64 else s.view c s.seq l 64)

/-- The schedule at an address (R226, R228). -/
def State.readSchedule (s : State) (c : Nat) (g : Agent) (a : Word) : Chk (List SchedEntry) := do
  need (a.toNat % 64 == 0) (trapA cAlign a)
  let head ← s.schedLine c g a
  let n := head % 2 ^ 32
  need (decide (1 ≤ n) && decide (n ≤ 64) && !((s.ctx c).binds.toList.any (·.bound))) (trapE eCopy fSchedState)
  (List.range n).mapM (fun k => do
    let e ← s.schedLine c g (a + BitVec.ofNat 64 (64 + 64 * k))
    pure (schedEntry e))

/-- Load a schedule into the copy engine registers of a context (R228). -/
def State.loadSchedule (s : State) (c : Nat) (es : List SchedEntry) : State :=
  s.modCopyRegs c (fun r => { r with sched := es, stage := 0, halt := false })

/-- An earlier copy of the core still has to write some bytes: the copy engine honours its dependences in issue order (R40,
R250). -/
def State.copyWrites (s : State) (loc n : Nat) : Bool :=
  s.ops.any (fun p => p.engine == 4 && p.core == coreOf s.cur && !s.ofBundle p.ctx p.id && runsMeet p.writesAt [(loc, n)])

/-- The bytes of a schedule of n entries may be read: no other engine holds those in the scratchpad busy (R40), no earlier
copy writes them, and the context's earlier loads and atomics of the global ones have returned (R83, R246, R250). -/
def State.schedReady (s : State) (a : Word) (n : Nat) : Chk Unit :=
  if isLocal a then
    let l := spadLoc (coreOf s.cur) a.toNat
    await (!s.rangeBusy (coreOf s.cur) (some 4) l (64 + 64 * n) && !s.copyWrites l (64 + 64 * n))
  else
    await ((List.range (n + 1)).all (fun k =>
      match s.globalAt (s.agentOf s.cur) .read (a + BitVec.ofNat 64 (64 * k)) with
      | .ok p => !s.offGroup p.loc && !s.olderLoad s.cur s.seq p.loc 64 && !s.copyWrites p.loc 64
      | .error _ => true))

/-- SSCH: it reads the schedule once its bytes may be read, the first line before the others. -/
def execSsch (a : BitVec 5) (s : State) : Host.Outcome State Fault Refusal :=
  atOnce (do
    need ((s.sr a).toNat % 64 == 0) (trapA cAlign (s.sr a))
    s.schedReady (s.sr a) 0
    let es ← s.readSchedule s.cur (s.agentOf s.cur) (s.sr a)
    s.schedReady (s.sr a) es.length
    pure es) (fun es => s.loadSchedule s.cur es) s

/-- SADV. -/
def execSadv (s : State) : Host.Outcome State Fault Refusal :=
  atOnce (.ok ()) (fun _ => s.modCopyRegs s.cur (fun r =>
    { r with stage := if r.stage = 0xFFFF#16 then r.stage else r.stage + 1 })) s

/-- SRES: the halted iteration starts afresh once HALT is clear (R229). -/
def execSres (a : BitVec 5) (s : State) : Host.Outcome State Fault Refusal :=
  let r := s.me.eng.copy
  atOnce (need (r.halt && (s.sr a).toNat % 64 == r.hentry.toNat) (trapE eCopy fSchedState)) (fun _ =>
    s.modCopyRegs s.cur (fun r => { r with halt := false })) s

/-- The agent as which the hardware reads for a context's code outside any handler. -/
def State.ownAgent (s : State) (c : Nat) : Agent :=
  let x := s.ctx c
  { s.agentOf c with super := (if x.inh then x.trp.pmode else x.mode) == .supervisor }

/-- The identifier of an iteration (R206). -/
def iterationId (k i : Nat) : BitVec 32 := BitVec.ofNat 32 (2 ^ 31 + k % 128 * 2 ^ 24 + i % 2 ^ 24)

/-- An iteration faults: the schedule halts and the context takes SCHED_HALT (R229). -/
def State.haltSchedule (s : State) (c k i : Nat) (cause fcode : BitVec 8) (a : Word) : State :=
  let (n, t) := s.cancelFrom c k i
  let t := t.record c (t.ctx c).eng.copy stSchedHalt 0 (iterationId k i) n cause fcode a
  (t.modCopyRegs c (fun r => { r with halt := true, hentry := BitVec.ofNat 8 k, fcode := cause })).engineFault c 4
    cEngineFault fSchedHalt a none

/-- An iteration in flight ends with an uncorrectable error (R229, R387). -/
def State.failIteration (s : State) (o : Op) (a : Word) : State :=
  (s.haltSchedule o.ctx (o.entry.getD 0) o.iter cMcheck 0 a).logError 2 (s.physical o.ctx a) 5 o.core (o.ctx % 4) 0

/-- The binding that entry k of a context feeds, where its next iteration may start (R227): the stream has a free
slot beyond the iterations in flight. -/
def State.eligible (s : State) (c k : Nat) : Option (SchedEntry × Binding) :=
  let x := s.ctx c
  let r := x.eng.copy
  match r.sched[k]?, x.binds.toList.find? (fun b => b.bound && b.sched.toNat == k) with
  | some e, some b =>
    let free := decide (seqDiff b.fillSeq b.headSeq < hDepth (x.hreg b.hreg)) &&
      decide (seqDiff (BitVec.ofNat 32 e.next) b.headSeq < hDepth (x.hreg b.hreg))
    if x.task.isSome && !r.halt && e.stage.toNat ≤ r.stage.toNat && decide (e.next < e.iters.toNat) && free then
      some (e, b)
    else none
  | _, _ => none

/-- The operands of iteration i: the slot it fills, its source, its gauge (R227). -/
def State.iterationArgs (s : State) (c : Nat) (e : SchedEntry) (b : Binding) : Chk (List Arg × Nat) := do
  let ag := s.ownAgent c
  let k := coreOf c
  let (h, loc) := s.streamRing c b
  let base := hBase e.pat + BitVec.ofNat 64 e.next * e.step
  let src := hput e.pat 0 64 base.toNat
  need (handleOk src && hKind src == kPlain && !hW src && (hFmt src != 5 || hExt src 0 % 2 == 0) &&
    hFmt src == hFmt h) (trapE eCopy fHandleForm)
  need (handleAligned src) (trapA cAlign base)
  need (!hD src) (trapC cRecompute)
  let lay ← s.layoutFor c eCopy h
  let l := lay.map (·.1)
  let at_ := slotBase h (BitVec.ofNat 32 e.next)
  let _ ← s.localAt c k (hBase h) (ringSpan h l)
  let lay2 ← s.layoutFor c eCopy src
  let l2 := lay2.map (·.1)
  let o2 : Opnd := ⟨src, base, k, l2, []⟩
  let x ← if isLocal base then do
      let n := spanOf src l2
      let p ← if n = 0 then .ok 0 else s.localAt c k base n
      pure (⟨1, o2, if n = 0 then [] else [(p, n)], lay2.toList.map (·.2), none, true⟩ : Arg)
    else do
      let t ← pagesBy (s.byteAt ag .read) o2.ends []
      pure ⟨1, { o2 with pages := t }, [], lay2.toList.map (·.2), none, true⟩
  need (e.gauge == 0#64 || (isLocal e.gauge && e.gauge.toNat % 16 == 0)) (trapA cAlign e.gauge)
  let _ ← if e.gauge = 0#64 then .ok 0 else s.localAt c k e.gauge 16
  pure ([⟨0, ⟨h, at_, k, l, []⟩, [(spadLoc k at_.toNat, spanOf h l)], lay.toList.map (·.2), none, true⟩, x], loc)

/-- The context that owns an entry issues an iteration of it. -/
def State.startIteration (s : State) (c k : Nat) (e : SchedEntry) (args : List Arg) (loc : Nat) : State :=
  let was := s.cur
  let t := { s with cur := c }.issueOp 4 .sadv args (fun o =>
    { o with
      val := e.gauge
      aux := if e.gauge = 0#64 then 0 else 1
      copyId := iterationId k e.next
      entry := some k
      recvs := [coreOf c]
      slot := some (loc, BitVec.ofNat 32 e.next)
      iter := e.next })
  let t := { t with cur := was }.modEntry c k (fun x => { x with next := x.next + 1 })
  t.putRing loc 8 (BitVec.ofNat 32 (e.next + 1))

/-- SCHEDULE_ITERATION_START (R227, R229): it waits while another engine holds bytes it moves. -/
def execScheduleIterationStart (c : Nat) (entry : Nat) (s : State) : Host.Outcome State Fault Refusal :=
  happen (match s.eligible c entry with
    | none => s
    | some (e, b) =>
      match s.iterationArgs c e b with
      | .error (.trap t) =>
        let u := s.haltSchedule c entry e.next t.cause t.fcode t.addr
        if t.cause = cMcheck then u.logError 2 (s.physical c t.addr) 5 (coreOf c) (c % 4) 0 else u
      | .error .wait => s
      | .ok (args, loc) =>
        let rs := args.flatMap (·.ranges)
        if rs.any (fun r => s.rangeHeld (coreOf c) (some 4) r.1 r.2) || decide (64 < s.rangesUsed (coreOf c) + rs.length)
        then s else s.startIteration c entry e args loc)

/-- The binding that an iteration in flight fills, where that binding is still live. -/
def State.feeds (s : State) (o : Op) : Option Nat :=
  match o.entry with
  | none => none
  | some k => (List.range 8).find? (fun n => match (s.ctx o.ctx).binds[n]? with
    | some b => b.bound && b.sched.toNat == k
    | none => false)

/-- SCHEDULE_ITERATION_LANDING: iterations of an entry land in their order; an uncorrectable error halts the
schedule (R225, R227, R229). -/
def execScheduleIterationLanding (id : Nat) (s : State) : Host.Outcome State Fault Refusal :=
  happen (match s.ops.find? (fun o => o.id == id && o.engine == 4 && o.entry.isSome) with
    | none => s
    | some o =>
      let k := o.entry.getD 0
      if s.copyBehind o || (s.iterations o.ctx k).any (fun p => decide (p.iter < o.iter)) then s
      else match s.badSource o with
        | some a => s.failIteration o a
        | none =>
          let s := s.raceOpnd o (o.arg 1) false
          let data := s.copyData o
          let n := o.copyBytes o.core data
          let s := (o.copyTo o.core data).foldl (fun (s : State) p => s.putElements p.1 p.2) s
          let s := { s with ops := s.ops.filter (fun p => p.id != id) }
          let s := if o.aux = 1#64 then s.countGauge o.ctx o.core o.regs.copy o.scope o.val o.copyId n n else s
          let next : BitVec 32 := BitVec.ofNat 32 (o.iter + 1)
          match s.feeds o, o.slot with
          | some b, some (loc, _) =>
            (s.putRing loc 4 next).modCtx o.ctx (fun x => x.modBind b (fun q => { q with fillSeq := next }))
          | _, _ => s)

end Sys2Proof.Machine
end

