-- ==== Sys2Proof/Machine/Weights.lean ====
section
/-! DEFINITION. The weight store (spec 07 R231 to R239; spec 13 R346, R351, R352). -/

namespace Sys2Proof.Machine

/-! Columns and banks. -/

/-- Banks of a layer that some retired buses have removed: bus 4 + b of an interface below the layer's die takes
banks 4b to 4b + 3 (R348, R351). -/
def State.lostBanks (s : State) (k layer : Nat) (buses : List (Nat × Nat)) : List Nat :=
  let die := (s.cube (cubeOfCore k)).dieOf layer
  (List.range 16).filter (fun b => buses.any (fun p => decide (p.1 ≤ die) && p.2 == 4 + b / 4))

/-- The banks that logical banks 0, 1, … of a layer reach under the map in force (R351). -/
def State.liveBanks (s : State) (k layer : Nat) : List Nat :=
  let gone := s.lostBanks k layer (s.column k).applied
  (List.range 16).filter (fun b => !gone.contains b)

/-- A physical bank has vanished: a bus that serves it is retired (R351). -/
def State.vanished (s : State) (k layer bank : Nat) : Bool :=
  (s.lostBanks k layer ((s.column k).wsBuses ++ (s.column k).applied)).contains bank

/-- The number of a bank's row in State.banks. -/
def bankKey (k layer bank : Nat) : Nat := k * 128 + layer * 16 + bank

/-- Change a bank. -/
def State.modBank (s : State) (key : Nat) (f : Bank → Bank) : State := s.setBank key (f (s.bank key))

/-- LEFT of a bank: cycles of 2.1 GHz until its guard refresh (R232, R238). -/
def State.bankLeft (s : State) (key : Nat) : Nat := 9600 - (s.time * 21 - (s.bank key).refreshed) / 10

/-- Refresh the bank's next 16 rows (R234, R238). -/
def State.refreshBank (s : State) (key : Nat) : State :=
  s.modBank key (fun b => { b with refreshed := s.time * 21, nextRow := (b.nextRow + 16) % 256 })

/-! Regions (R232, R233). -/

/-- A weight-store region as its two registers describe it. -/
structure WsRegion where
  rows : Nat
  rowb : Nat × Nat
  ver : Nat × Nat
  polder : Nat
  col : Nat
  ilvn : Nat
  ilv : Nat
  deriving DecidableEq, Repr

def Cube.wsRegion (x : Cube) (n : Nat) : WsRegion :=
  let a := (x.rga.toList.getD n 0).toNat
  let b := (x.rgb.toList.getD n 0).toNat
  { rows := bitsOf a 31 24, rowb := (bitsOf a 15 8, bitsOf a 23 16), ver := (bitsOf a 47 32, bitsOf a 63 48)
    polder := bitsOf b 63 52, col := bitsOf b 14 8, ilvn := bitsOf b 6 4, ilv := bitsOf b 1 0 }

/-- The columns of a region. -/
def WsRegion.columns (g : WsRegion) : Nat := if g.ilv = 0 then 1 else if g.ilv = 1 then 2 ^ g.ilvn else 96
/-- A region without rows, or one whose columns pass the last, is disabled; one that keeps to a single column names that
column, whether there is such a one or not (R233; log 34). -/
def WsRegion.disabled (g : WsRegion) : Bool :=
  g.rows == 0 || (g.ilv != 0 && g.ilv != 2 && decide (96 < g.col + g.columns))
def WsRegion.has (g : WsRegion) (col : Nat) : Bool :=
  g.ilv == 2 || (decide (g.col ≤ col) && decide (col < g.col + g.columns))

/-- Where offset o of a half lies: column, layer, logical bank, row, byte (R233). -/
def WsRegion.locate (g : WsRegion) (o : Nat) : Nat × Nat × Nat × Nat × Nat :=
  let blk := o / 512
  let (col, u) :=
    if g.ilv = 0 then (g.col, blk)
    else if g.ilv = 1 then (g.col + blk % 2 ^ g.ilvn, blk / 2 ^ g.ilvn)
    else
      let x := blk / 96
      ((blk % 96 + (x ^^^ (x >>> 5)) % 96) % 96, x)
  (col, u / 8 % 8, u / 64 % 16, u / 1024, u % 8 * 512 + o % 512)

/-- The half of a version: 0, 1, or none (R231). -/
def WsRegion.halfOf (g : WsRegion) (v : Nat) : Option Nat :=
  if g.ver.1 = v then some 0 else if g.ver.2 = v then some 1 else none

def WsRegion.base (g : WsRegion) (half : Nat) : Nat := if half = 0 then g.rowb.1 else g.rowb.2
def WsRegion.tag (g : WsRegion) (half : Nat) : Nat := if half = 0 then g.ver.1 else g.ver.2

/-- A polder is another one or a descendant of it (R278). -/
def State.under (s : State) (p anc : Nat) : Bool := (s.polChain 8 p).contains anc

/-- A polder reads a region that a column belongs to whose map is pending: its new launches are held back (R351). -/
def State.remapping (s : State) (p : Nat) : Bool :=
  s.columns.any (fun c => c.2.pend && (List.range 16).any (fun n =>
    let g := (s.cube (cubeOfCore c.1)).wsRegion n
    n != 0 && !g.disabled && g.has (c.1 % 96) && s.under p g.polder))

/-! The exposed operations (R231, R234). -/

/-- A weight-store operand (R231). -/
structure WsOpnd where
  region : Nat
  layer : Nat
  bank : Nat
  row : Nat
  off : Nat
  deriving DecidableEq, Repr

def wsOpnd (a : Word) : WsOpnd :=
  let n := a.toNat
  ⟨bitsOf n 31 28, bitsOf n 27 25, bitsOf n 23 20, bitsOf n 19 12, bitsOf n 11 0⟩

/-- The layout of R231; a WLD takes an offset. -/
def wsLayout (a : Word) (wld : Bool) : Bool :=
  bitsOf a.toNat 63 32 == 0 && !a.getLsbD 24 && (if wld then bitsOf a.toNat 11 0 % 512 == 0 else bitsOf a.toNat 11 0 == 0)

/-- The physical row of an operand of WACT or WLD (R231). -/
def State.wsRow (s : State) (o : WsOpnd) : Chk Nat :=
  if o.region = 0 then (if s.me.mode = .user then trapC cProt else .ok o.row)
  else do
    let g := (s.cube (cubeOf s.cur)).wsRegion o.region
    need (!g.disabled && decide (o.row < g.rows)) (trapC cXlate)
    need (g.has (coreOf s.cur % 96) && s.under (s.polderOf s.cur) g.polder) (trapC cProt)
    match g.halfOf (s.verOf s.cur).toNat with
    | none => trapC cVersionAbsent
    | some h =>
      need (decide (g.base h + o.row ≤ 255)) (trapC cXlate)
      pure (g.base h + o.row)

/-- The physical bank of an operand: a bank number under REGION = 0 is physical (R351). -/
def State.wsBank (s : State) (o : WsOpnd) : Chk Nat :=
  let k := coreOf s.cur
  let live := s.liveBanks k o.layer
  let b := if o.region = 0 then (if live.contains o.bank then some o.bank else none) else live[o.bank]?
  match b with
  | none => trapC cXlate
  | some b => if s.vanished k o.layer b then trapC cMcheck else .ok b

/-- The bank is open, by this context, at a row. -/
def State.openHere (s : State) (key row : Nat) : Bool := (s.bank key).open_ == some (row, s.cur)

def fOpen : Chk Unit := trapE 31#5 fWsOpen
def fTiming : Chk Unit := trapE 31#5 fWsTiming

/-- WACT (R234). -/
def execWact (a : BitVec 5) (s : State) : Host.Outcome State Fault Refusal :=
  let o := wsOpnd (s.sr a)
  perform (do
    need (wsLayout (s.sr a) false) (trapC cXlate)
    let row ← s.wsRow o
    let b ← s.wsBank o
    let key := bankKey (coreOf s.cur) o.layer b
    need (s.bank key).open_.isNone fOpen
    need (tblFind s.me.wsPre (o.layer * 16 + b)).isNone fTiming
    pure (row, b)) (fun (row, b) =>
      ((s.demandBank (coreOf s.cur) o.layer b).modBank (bankKey (coreOf s.cur) o.layer b)
        (fun x => { x with open_ := some (row, s.cur) })).modMe
        (fun x => { x with wsAct := tblSet x.wsAct (o.layer * 16 + b) 6 })) s

/-- WPRE (R234). -/
def execWpre (a : BitVec 5) (s : State) : Host.Outcome State Fault Refusal :=
  let o := wsOpnd (s.sr a)
  perform (do
    need (wsLayout (s.sr a) false) (trapC cXlate)
    let b ← s.wsBank o
    need ((s.bank (bankKey (coreOf s.cur) o.layer b)).open_.all (fun p => p.2 == s.cur)) fOpen
    pure b) (fun b =>
      (s.modBank (bankKey (coreOf s.cur) o.layer b) (fun x => { x with open_ := none })).modMe
        (fun x => { x with wsPre := tblSet x.wsPre (o.layer * 16 + b) 4 })) s

/-- WREF (R234). -/
def execWref (a : BitVec 5) (s : State) : Host.Outcome State Fault Refusal :=
  let o := wsOpnd (s.sr a)
  perform (do
    need (wsLayout (s.sr a) false && o.region == 0 && o.row == 0) (trapC cXlate)
    s.wsBank o) (fun b =>
      ((s.demandBank (coreOf s.cur) o.layer b).refreshBank (bankKey (coreOf s.cur) o.layer b)).modMe
        (fun x => { x with wsAct := tblSet x.wsAct (o.layer * 16 + b) 6 })) s

/-- Where a byte of the issuing core's column lies. -/
def State.rowLoc (s : State) (layer bank row off : Nat) : Nat := wsLoc (coreOf s.cur) layer bank row off

/-- WLD: it waits while another engine holds the bytes of the face busy (R40); the bytes of the row are read at its step
and land 12 steps later (R234, R237). `aux` is the row's location. -/
def execWld (c : BitVec 5) (a : BitVec 5) (s : State) : Host.Outcome State Fault Refusal :=
  let o := wsOpnd (s.sr a)
  let h := s.hr c
  let b := hBase h
  perform (do
    need (wsLayout (s.sr a) true) (trapC cXlate)
    need (handleOk h && hKind h == kPlain && isLocal b && areaOf b == 2 && layerOf b == o.layer &&
      offsetOf b % 64 == 0 && decide (offsetOf b + 512 ≤ 2 ^ 17)) (trapE 31#5 fHandleForm)
    need (handleAligned h) (trapA cAlign b)
    s.scaleForm 31#5 h
    checkDropped c h
    let _ ← s.localAt s.cur (coreOf s.cur) b 512
    let row ← s.wsRow o
    let k ← s.wsBank o
    need (s.openHere (bankKey (coreOf s.cur) o.layer k) row) fOpen
    need (tblFind s.me.wsAct (o.layer * 16 + k)).isNone fTiming
    await (!s.rangeBusy (coreOf s.cur) (some 6) (spadLoc (coreOf s.cur) b.toNat) 512)
    pure (k, s.rowLoc o.layer k row o.off)) (fun (k, l) =>
      (s.demandBank (coreOf s.cur) o.layer k).issueOp 6 (.wld c a) [⟨0, ⟨h, b, coreOf s.cur, none, []⟩, [], [], none, true⟩] (fun p =>
        { p with
          left := 12
          started := s.me.inh
          aux := BitVec.ofNat 64 l
          data := some ((memBytes s.mem l 512).map BitVec.toNat)
          recvs := if s.poisoned l 512 then [l] else [] })) s

/-- A step of a context brings its pending WLDs nearer; while a handler runs, only those it issued (R237). -/
def State.countWld (s : State) (c : Nat) : State :=
  let inh := (s.ctx c).inh
  { s with ops := s.ops.map (fun o =>
      if o.ctx == c && o.exposed && (!inh || o.started) then { o with left := o.left - 1 } else o) }

/-- A WLD of the context is due and its bytes are not in the face yet: the context may not take its next step (R237). -/
def State.wldDue (s : State) (c : Nat) : Bool :=
  s.ops.any (fun o => o.ctx == c && o.exposed && o.left == 0 && (!(s.ctx c).inh || o.started))

/-- A weight-store operation meets an uncorrectable error: it ends and leaves a FAULT record, and its context takes MCHECK
(R219, R237, R239). -/
def State.weightError (s : State) (o : Op) (a : Word) : State :=
  let t := s.record o.ctx o.regs.copy stFault 0 0 0 cMcheck 0 a
  if o.exposed then
    ({ t with ops := t.ops.filter (fun p => p.id != o.id) }.raise o.ctx { cause := cMcheck, addr := a }).logError 2
      (t.physical o.ctx a) 7 o.core (o.ctx % 4) 0
  else t.opError o a

/-- WLD_LANDING: it waits for engine operations that hold the bytes (R237); an uncorrectable error met in the row
lets nothing land and leaves a FAULT record, which names where the bytes were to land (R219). -/
def execWldLanding (id : Nat) (s : State) : Host.Outcome State Fault Refusal :=
  happen (match s.ops.find? (fun o => o.id == id && o.exposed) with
    | none => s
    | some o =>
      let l := spadLoc o.core (o.arg 0).base.toNat
      if o.left != 0 || ((s.ctx o.ctx).inh && !o.started) || s.rangeHeld o.core none l 512 then s
      else
        if o.recvs.isEmpty then
          { s with ops := s.ops.filter (fun p => p.id != id) }.poke
            ((o.data.getD []).zipIdx.map (fun (v : Nat × Nat) => ((l + v.2, 0xFF#8, BitVec.ofNat 8 v.1) : Poke)))
        else s.weightError o (o.arg 0).base)

/-- GUARD_REFRESH of a bank whose LEFT has reached 0; its open row stays open (R238). -/
def execGuardRefresh (bank : Nat) (s : State) : Host.Outcome State Fault Refusal :=
  let k := bank / 128
  happen (if s.bankLeft bank != 0 || decide (s.part.cubes * 96 ≤ k) ||
      s.vanished k (bank / 16 % 8) (bank % 16) then s
    else ((s.demandBank k (bank / 16 % 8) (bank % 16)).refreshBank bank).modColumn k (fun c =>
      { c with guard := if c.guard = BitVec.allOnes 32 then c.guard else c.guard + 1 }))

/-- Close every row a context holds open; the banks and rows it held (R235). -/
def State.closeRows (s : State) (c : Nat) : List (Nat × Nat) × State :=
  let held := s.banks.filterMap (fun p => match p.2.open_ with
    | some (row, owner) => if owner == c then some (p.1, row) else none
    | none => none)
  (held, held.foldl (fun (s : State) p => s.modBank p.1 (fun b => { b with open_ := none })) s)

/-! Writing a region (R239). -/

/-- The byte offset within the half of each byte of an element, with its nibble. -/
def wsOffset (h : Handle) (lay : Option Layout) (i : Idx) : Nat × Nat :=
  let (o, nib) := elemOff h lay i
  (bitsOf h.toNat 35 0 + o, nib)

/-- The half a WST writes, and whether its tag changes (R239). -/
def State.wstHalf (s : State) (g : WsRegion) : Chk (Nat × Bool) :=
  let v := s.me.wsWver.toNat
  match g.halfOf (s.currentVer g.polder) with
  | none => trapC cVersionAbsent
  | some h =>
    if g.tag h = v then
      if s.launches.any (fun l => l.polder == g.polder && decide (0 < l.begun)) then trapC cProt else .ok (h, false)
    else
      let o := 1 - h
      if s.launches.any (fun l => decide (0 < l.begun) && l.version.toNat == g.tag o) then trapC cProt
      else .ok (o, true)

/-- Every byte of the destination lies in the half, in a row that exists, in a bank the column has (R239, R351). -/
def State.wstFits (s : State) (g : WsRegion) (half : Nat) (h : Handle) (lay : Option Layout) : Bool :=
  (indices h).all (fun i =>
    let o := (wsOffset h lay i).1
    [o, o + fmtBytes (hFmt h) - 1].all (fun o =>
      let (col, layer, bank, row, _) := g.locate o
      decide (col < 96) && decide (row < g.rows) && decide (g.base half + row ≤ 255) &&
      decide (bank < (s.liveBanks (cubeOf s.cur * 96 + col) layer).length)))

/-- Change the version tag of a half of a region of a cube. -/
def State.retag (s : State) (q n half : Nat) (v : BitVec 16) : State :=
  s.modCube q (fun x => { x with rga := Vector.ofFn (fun i : Fin 16 =>
    let w := x.rga[i]
    if i.val != n then w
    else if half = 0 then (w &&& ~~~(0xFFFF#64 <<< 32)) ||| (v.setWidth 64 <<< 32)
    else (w &&& ~~~(0xFFFF#64 <<< 48)) ||| (v.setWidth 64 <<< 48)) })

/-- WST: `val` is the region, `aux` the first row of the half (R239). -/
def execWst (c : BitVec 5) (a : BitVec 5) (s : State) : Host.Outcome State Fault Refusal :=
  let h := s.hr c
  let src := s.hr a
  let n := bitsOf h.toNat 39 36
  let q := cubeOf s.cur
  let g := (s.cube q).wsRegion n
  perform (do
    need (handleOk h && hKind h == kWeightStore && !hW h && !hQ h && !hD h && bitsOf h.toNat 63 40 == 0 &&
      handleOk src && hKind src == kPlain && hFmt src == hFmt h && extents src == extents h) (trapE 31#5 fHandleForm)
    need (handleAligned h) (trapA cAlign (hBase h))
    need (handleAligned src) (trapA cAlign (hBase src))
    let lay ← s.layoutFor s.cur 31#5 h
    let x ← s.anyArg 31#5 1 .read (coreOf s.cur) src
    checkDropped a src
    need (n != 0 && !g.disabled) (trapC cXlate)
    need (s.wstFits g 0 h (lay.map (·.1)) || s.wstFits g 1 h (lay.map (·.1))) (trapC cXlate)
    need (s.writerOf (s.polderOf s.cur) (s.effField 4 g.polder 10 1)) (trapC cProt)
    let (half, new) ← s.wstHalf g
    need (s.wstFits g half h (lay.map (·.1))) (trapC cXlate)
    s.canIssue 6 [x]
    pure (half, new, [⟨0, ⟨h, hBase h, coreOf s.cur, lay.map (·.1), []⟩, [], lay.toList.map (·.2), none, true⟩, x]))
    (fun (half, new, args) =>
      let t := s.issueOp 6 (.wst c a) args (fun o =>
        { o with val := BitVec.ofNat 64 n, aux := BitVec.ofNat 64 (g.base half) })
      if new then t.retag q n half s.me.wsWver else t) s

/-- Where byte `off` of the half that a WST writes lies: core, layer, physical bank, row in the half, byte; none for a bank
that the column does not have (R233, R351). -/
def State.wstAt (s : State) (o : Op) (off : Nat) : Option (Nat × Nat × Nat × Nat × Nat) :=
  let q := cubeOf o.ctx
  let (col, layer, bank, row, byte) := ((s.cube q).wsRegion o.val.toNat).locate off
  let k := q * 96 + col
  ((s.liveBanks k layer)[bank]?).map (fun b => (k, layer, b, row, byte))

/-- The banks that a WST writes: core, layer, bank. -/
def State.wstBanks (s : State) (o : Op) : List (Nat × Nat × Nat) :=
  let h := (o.arg 0).h
  ((indices h).flatMap (fun i =>
    let off := (wsOffset h (o.arg 0).lay i).1
    ((s.wstAt o off).toList ++ (s.wstAt o (off + fmtBytes (hFmt h) - 1)).toList).map (fun p => (p.1, p.2.1, p.2.2.1)))).eraseDups

/-- What a WST stores: none where it meets a vanished bank (R239, R351). -/
def State.wstPokes (s : State) (o : Op) : Option (List Poke) :=
  let h := (o.arg 0).h
  let one := fun (i : Idx) =>
    let (off, nib) := wsOffset h (o.arg 0).lay i
    let v := s.element (o.arg 1) i
    (List.range (fmtBytes (hFmt h))).map (fun j =>
      match s.wstAt o (off + j) with
      | none => none
      | some (k, layer, b, row, byte) =>
        if s.vanished k layer b then none
        else
          let l := wsLoc k layer b (o.aux.toNat + row) byte
          if hFmt h = 5 then
            some (l, if nib = 0 then 0x0F#8 else 0xF0#8, BitVec.ofNat 8 (v % 16 * 16 ^ nib))
          else some (l, 0xFF#8, BitVec.ofNat 8 (v / 256 ^ j)))
  let ps := (indices h).flatMap one
  if ps.all (·.isSome) then some (ps.filterMap (fun p => p)) else none

/-- WST_COMPLETION (R219, R239); a test of a bus that it needs is aborted (R349). -/
def execWstCompletion (id : Nat) (s : State) : Host.Outcome State Fault Refusal :=
  happen (match s.ops.find? (fun o => o.id == id && o.engine == 6 && !o.exposed) with
    | none => s
    | some o =>
      if !s.accessesDone o || s.ops.any (fun p => p.engine == 6 && !p.exposed && p.core == o.core && decide (p.id < o.id)) then s
      else match s.badElement (o.arg 1) (indices (o.arg 1).h) with
        | some a => s.weightError o a
        | none =>
          let t := (s.wstBanks o).foldl (fun (s : State) b => s.demandBank b.1 b.2.1 b.2.2) (s.raceOpnd o (o.arg 1) false)
          match t.wstPokes o with
          | some ps => (t.poke ps).retire o
          | none => s.weightError o (hBase (o.arg 0).h))

end Sys2Proof.Machine
end

