-- ==== Sys2Proof/Machine/Tasks.lean ====
section
/-! DEFINITION. The beginning and the end of a task (spec 01 R14; spec 09 R282, R283, R296, R304) and the
accesses that the hardware makes for a launch. -/

namespace Sys2Proof.Machine

/-! Runs of bytes in an address space. -/

/-- The first byte of a run and the first bytes of the further 256 KiB pages it meets. -/
def pageStarts (a : Word) (n : Nat) : List Word :=
  if n = 0 then []
  else a :: ((List.range (n / 2 ^ 18 + 1)).filterMap (fun j =>
    let p := (a.toNat / 2 ^ 18 + 1 + j) * 2 ^ 18
    if p < a.toNat + n then some (BitVec.ofNat 64 p) else none))

/-- Where the pages of a run lie, for an agent. -/
def State.spanPages (s : State) (g : Agent) (acc : Acc) (a : Word) (n : Nat) : Chk (Tbl Nat) :=
  pagesBy (s.byteAt g acc) (pageStarts a n) []

/-- The location of a byte of a run. -/
def pageLoc (t : Tbl Nat) (a : Word) : Nat := tblGet t (a.toNat / 2 ^ 18) 0 + a.toNat % 2 ^ 18

/-- The bytes of a run. -/
def State.pageBytes (s : State) (t : Tbl Nat) (a : Word) (n : Nat) : List Byte :=
  (List.range n).map (fun i => memGet s.mem (pageLoc t (a + BitVec.ofNat 64 i)))

/-- The first byte of a run that meets an uncorrectable error. -/
def State.badByte (s : State) (t : Tbl Nat) (a : Word) (n : Nat) : Option Word :=
  if s.poison.isEmpty then none
  else ((List.range n).map (fun i => a + BitVec.ofNat 64 i)).find? (fun b => s.poisoned (pageLoc t b) 1)

/-- Read a run: its bytes, or the trap. -/
def State.readRun (s : State) (g : Agent) (a : Word) (n : Nat) : Chk (List Byte) :=
  match s.spanPages g .read a n with
  | .error e => .error e
  | .ok t => match s.badByte t a n with
    | some b => trapA cMcheck b
    | none => .ok (s.pageBytes t a n)

/-- Write a run whose pages are known. -/
def State.writeRun (s : State) (t : Tbl Nat) (a : Word) (bs : List Byte) : State :=
  s.poke (bs.zipIdx.map (fun b => (pageLoc t (a + BitVec.ofNat 64 b.2), 0xFF#8, b.1)))

/-- The agent as which the hardware reads and writes for a launch: with supervisor permission (R271, R278). -/
def Launch.agent (l : Launch) : Agent := ⟨l.asid, true, l.version, l.polder⟩

/-! Completion (R283, R374). -/

/-- Add 1 to DONE; a write that cannot be made is skipped and recorded (R283). -/
def State.addDone (s : State) (l : Launch) : State :=
  match l.done with
  | none => s
  | some a =>
    match s.spanPages l.agent .write a 8 with
    | .error _ => s.logError 2 a 8 0 0 0
    | .ok t =>
      match s.badByte t a 8 with
      | some _ => s.logError 2 (BitVec.ofNat 64 (pageLoc t a)) 8 0 0 0
      | none =>
        let v := leNat (s.pageBytes t a 8)
        (s.writeRun t a (leBytes 8 (v + 1))).toPeer 1 (pageLoc t a) 8 (v + 1) 0

/-- A launch whose last task has ended completes and leaves; a failed one leaves with its last running task. A
producer stays until its consumers have been served (R298). -/
def State.settleLaunch (s : State) (id : Nat) : State :=
  match s.launches.find? (fun l => l.id == id) with
  | none => s
  | some l =>
    let gone := fun (s : State) =>
      { s with launches := s.launches.filter (fun m => m.id != id), waiting := s.waiting.filter (fun i => i != id) }
    if l.consumer.isSome then s
    else if l.failed then (if (s.runners id).isEmpty then gone s else s)
    else if l.ended = l.tasks then gone (s.reportLaunch l 3)
    else s

/-- A task has ended; one that a fault-domain stop ended does not count (R283, R296). -/
def State.countTask (s : State) (id : Nat) (stopped : Bool) : State :=
  match s.launches.find? (fun l => l.id == id) with
  | none => s
  | some l =>
    let s := if stopped then s else (s.addDone l).modLaunch id (fun l => { l with ended := l.ended + 1 })
    s.settleLaunch id

/-! The end of a task. -/

/-- Drop what a context leaves in its core: chain entries, exposed loads, iterations (R172, R229, R237). -/
def State.clearCtx (s : State) (c : Nat) : State :=
  let s := (List.range 8).foldl (fun (s : State) n => s.endBinding c n true) s
  let s := { s with
    ops := s.ops.filter (fun o => !(o.ctx == c && (o.exposed || o.entry.isSome)))
    colls := s.colls.filter (fun o => o.ctx != c) }
  let s := [0, 1, 2].foldl (fun (s : State) q => s.modQueue (coreOf c) q (fun l => l.filter (fun e => e.ctx != c))) s
  (s.closeRows c).2

/-- A context becomes free. The status of its last STEST goes with the task (the model's choice, log 66). -/
def State.freeCtx (s : State) (c : Nat) : State :=
  ((s.clearCtx c).setCtx c Ctx.reset).modCore (coreOf c) (fun k =>
    if k.holder = some c then { k with holder := none } else k)

/-- Copies in flight of a context that is killed or stopped are cancelled; they leave no record (R296, R304). -/
def State.dropCopies (s : State) (c : Nat) : State :=
  (s.ops.filter (fun o => o.ctx == c && o.engine == 4 && o.entry.isNone)).foldl
    (fun (s : State) o => s.cancelCopy o false) s

/-- A context stands at a bundle boundary: it owes no stall step. -/
def Ctx.atBoundary (x : Ctx) : Bool := x.owed == 0

/-- TASK_END: a task that is ending waits, as EFENCE does, and releases (R259, R283); copies are cancelled
first for a kill or a stop, which a stop does not follow with a release (R296). -/
def execTaskEnd (c : Nat) (s : State) : Host.Outcome State Fault Refusal :=
  let x := s.ctx c
  happen (match x.task with
    | none => s
    | some t =>
      if x.ending = .none || !x.atBoundary then s
      else
        let s := if x.ending = .finished then s else s.dropCopies c
        let stopped := decide (x.ending = .stopped)
        if !(s.opsDone c && s.loadsDone c && (stopped || s.storesDone c 4)) then s
        else
          let s := if stopped then s else s.newInterval c
          (s.freeCtx c).countTask t.launch stopped)

/-! The beginning of a task. -/

/-- A context at the first instruction of a task (R14). The status of an earlier STEST reads 0 (the model's choice, log
66). -/
def taskCtx (l : Launch) (index : Nat) (addr : Word) (core : Nat) : Ctx :=
  { Ctx.reset with
    pc := l.code
    mode := if l.super then .supervisor else .user
    regs := ((Ctx.reset.regs.set 1 addr).set 2 (BitVec.ofNat 64 index)).set 3 (BitVec.ofNat 64 l.tasks)
    task := some ⟨l.id, index, index / max l.group 1, core⟩ }

/-- Execute one image-table entry on a core: the bytes of an entry that faults are unpredictable (R282). -/
def State.copyImage (s : State) (l : Launch) (k : Nat) (e : Word × Word × Nat) : Chk State × State :=
  let (dest, src, n) := e
  let put := fun (bs : List Byte) => s.poke (bs.zipIdx.map (fun b => (spadLoc k (dest.toNat + b.2), 0xFF#8, b.1)))
  match s.readRun l.agent src n with
  | .ok bs => (.ok (put bs), s)
  | .error t => (.error t, put ((List.range n).map (fun i => Config.freeByte s.tick (spadLoc k (dest.toNat + i)))))

/-- The image copies of a task, up to the first that faults. -/
def State.copyImages (s : State) (l : Launch) (k : Nat) : List (Word × Word × Nat) → Option Trap × State
  | [] => (none, s)
  | e :: r =>
    match s.copyImage l k e with
    | (.ok s, _) => s.copyImages l k r
    | (.error (.trap t), s) => (some t, s)
    | (.error .wait, s) => (none, s)

/-- The entry bytes of the image table, as the launch lists them (R281). -/
def imageEntry (b : List Byte) : Word × Word × Nat :=
  let n := leNat b
  (BitVec.ofNat 64 n, BitVec.ofNat 64 (n / 2 ^ 64), bitsOf n 159 128)

/-- The image table of a launch, read for a task (R282 step 4). -/
def State.imageTable (s : State) (l : Launch) (img : Word) (n : Nat) : Chk (List (Word × Word × Nat)) :=
  (List.range n).mapM (fun i => do
    let b ← s.readRun l.agent (img + BitVec.ofNat 64 (24 * i)) 24
    pure (imageEntry b))

/-- A task starts on a context (R282 step 4): image copies, the schedule, the initial state; the core's
record cache and its fetch buffers are discarded (R259, R273). A fault of these is a trap of the task at its first bundle. -/
def State.startTask (s : State) (l : Launch) (c index : Nat) (addr : Word) : State :=
  let k := coreOf c
  let (bad, s) := match s.imageTable l l.img l.imgn with
    | .error (.trap t) => (some t, s)
    | .error .wait => (none, s)
    | .ok es => s.copyImages l k es
  let s := s.setCtx c (taskCtx l index addr (s.logical k))
  let s := s.modCore k (fun x => { x with recCache := [], fetched := [] })
  let s := (s.newInterval c).setFloor c 4
  let (bad, s) := if bad.isSome || l.sched == 0#64 then (bad, s)
    else match s.readSchedule c l.agent l.sched with
      | .ok es => (none, s.loadSchedule c es)
      | .error (.trap t) => (some t, s)
      | .error .wait => (none, s)
  let s := s.modCtx c (fun x => { x with readyAt := s.cycles, lastIssue := s.cycles })
  match bad with
  | none => s
  | some t =>
    let s := if t.cause = cMcheck then s.logError 2 (s.physical c t.addr) 8 k (c % 4) 0 else s
    s.takeTrap c t

end Sys2Proof.Machine
end

