-- ==== Sys2Proof/Machine/Joins.lean ====
section
/-! DEFINITION. Quorum joins (spec 09 R299 to R304). -/

namespace Sys2Proof.Machine

/-! Join records (R299). -/

/-- A join record. -/
structure Join where
  n : Nat
  q : Nat
  rule : Nat
  state : Nat
  arrn : Nat
  first : Nat
  wtab : Word
  sub : Word
  stage : Word
  target : Handle
  map : BitVec 256
  enr : BitVec 256
  reltime : Nat
  deriving DecidableEq, Repr

def joinOf (v : Nat) : Join where
  n := bitsOf v 15 0
  q := bitsOf v 31 16
  rule := bitsOf v 39 32
  state := bitsOf v 47 40
  arrn := bitsOf v 63 48
  first := bitsOf v 95 64
  wtab := BitVec.ofNat 64 (bitsOf v 191 128)
  sub := BitVec.ofNat 64 (bitsOf v 255 192)
  stage := BitVec.ofNat 64 (bitsOf v 319 256)
  target := BitVec.ofNat 256 (bitsOf v 639 384)
  map := BitVec.ofNat 256 (bitsOf v 895 640)
  enr := BitVec.ofNat 256 (bitsOf v 1151 896)
  reltime := bitsOf v 1215 1152

def jOpen : Nat := 1
def jReleasing : Nat := 2
def jReleased : Nat := 3

/-- Elements of the target, and the size S of a slot. -/
def Join.count (r : Join) : Nat := countOf r.target
def Join.size (r : Join) : Nat := 4 * r.count
/-- The contributors that have arrived. -/
def Join.arrivals (r : Join) : List Nat := (List.range r.n).filter (fun i => r.map.getLsbD i)
/-- The address of slot i of an area. -/
def Join.slot (r : Join) (area : Word) (i : Nat) : Word := area + BitVec.ofNat 64 (i * r.size)

/-- What the three lines of a record hold. -/
def State.joinBits (s : State) (lines : List Nat) : Nat :=
  lines.foldr (fun l v => memRead s.mem l 64 + 2 ^ 512 * v) 0

def State.joinAt (s : State) (lines : List Nat) : Join := joinOf (s.joinBits lines)

/-- Write n bytes of a record from an offset. -/
def State.joinPut (s : State) (lines : List Nat) (off n v : Nat) : State :=
  s.poke ((leBytes n v).zipIdx.map (fun b =>
    (lines.getD ((off + b.2) / 64) 0 + (off + b.2) % 64, 0xFF#8, b.1)))

/-- Reset a record at the beginning of a launch that lists it (R282). -/
def State.resetJoin (s : State) (lines : List Nat) : State :=
  ((((s.joinPut lines 5 1 jOpen).joinPut lines 6 2 0).joinPut lines 80 32 0).joinPut lines 112 32 0)

/-! Handles and the open join. -/

/-- The record a join handle names (R299, R301). -/
def joinHandle (h : Handle) : Chk Word := do
  need (hKind h == kJoin && !isLocal (hBase h)) (trapE 31#5 fHandleForm)
  need (handleAligned h) (trapA cAlign (hBase h))
  pure (hBase h)

/-- The join a context has open. -/
def Ctx.openJoin (x : Ctx) : Option OpenJoin := x.join.filter (fun j => j.shut.isNone)

/-- The join that a handle names is the one this context has open, and it has not arrived where that matters. -/
def State.joined (s : State) (h : Handle) (arriving : Bool) : Chk OpenJoin := do
  let a ← joinHandle h
  match s.me.openJoin with
  | none => trapE 31#5 fJoinState
  | some j =>
    need (j.record == a && !(arriving && j.arrived)) (trapE 31#5 fJoinState)
    if j.lines.isEmpty then
      let l ← s.joinLines (s.agentOf s.cur) a
      pure { j with lines := l }
    else pure j

/-! JOPEN (R301). -/

/-- What JOPEN finds: the task is killed at this bundle, or it enrols as contributor i. -/
inductive Enrol where
  | late
  | go (lines : List Nat) (r : Join) (i : Nat) (pages : Tbl Nat)

/-- The checks of JOPEN. -/
def State.enrolCheck (s : State) (h : Handle) : Chk Enrol := do
  let a ← joinHandle h
  let ag := s.agentOf s.cur
  let lines ← s.joinLines ag a
  let r := s.joinAt lines
  let index := (s.me.task.map (·.index)).getD 0
  let i := index - r.first
  if r.state = jReleasing ∨ r.state = jReleased then pure .late
  else do
    need (s.me.openJoin.isNone && r.state == jOpen && decide (1 ≤ r.n) && decide (r.n ≤ 256) &&
      decide (1 ≤ r.q) && decide (r.q ≤ r.n) && decide (r.rule ≤ 2) && decide (r.first ≤ index) &&
      decide (i < r.n) && !r.enr.getLsbD i) (trapE 31#5 fJoinState)
    let pages ← s.spanPages ag .write (r.slot r.stage i) r.size
    pure (.go lines r i pages)

/-- JOPEN: where the record is released already the task is killed at this bundle, which does not issue. -/
def execJopen (a : BitVec 5) (s : State) : Host.Outcome State Fault Refusal :=
  let h := s.hr a
  match s.enrolCheck h with
  | .ok .late => .next { s.modMe (fun x => x.endBy .killed) with mark := .waits }
  | c => perform c (fun e =>
    match e with
    | .late => s
    | .go lines r i pages =>
      let t := s.joinPut lines 112 32 (r.enr ||| (1#256 <<< i)).toNat
      (t.writeRun pages (r.slot r.stage i) (List.replicate r.size 0)).modMe (fun x =>
        { x with join := some ⟨hBase h, lines, i, false, x.join.bind (·.kill), none⟩ })) s

/-! JACC (R301). -/

/-- The contribution has the target's extents and is plain FP32. -/
def contributes (h : Handle) (r : Join) : Bool :=
  handleOk h && hKind h == kPlain && hFmt h == 0 && !hQ h && extents h == extents r.target

/-- The open join that a handle names, where this context has not arrived, has been released: a contribution to it has
no effect and takes no trap (R301). -/
def State.released (s : State) (h : Handle) : Bool :=
  s.me.openJoin.any (fun j => hKind h == kJoin && j.record == hBase h && !j.arrived &&
    ((s.joinAt j.lines).state == jReleasing || (s.joinAt j.lines).state == jReleased))

/-- JACC: `val` is the slot's address, `recvs` the record's lines. -/
def execJacc (c : BitVec 5) (a : BitVec 5) (s : State) : Host.Outcome State Fault Refusal :=
  let src := s.hr a
  if s.released (s.hr c) then always (fun s => s) s
  else perform (do
    let _ ← joinHandle (s.hr c)
    need (handleOk src && hKind src == kPlain) (trapE 31#5 fHandleForm)
    need (handleAligned src) (trapA cAlign (hBase src))
    let j ← s.joined (s.hr c) true
    let r := s.joinAt j.lines
    need (contributes src r) (trapE 31#5 fHandleForm)
    let x ← s.anyArg 31#5 1 .read (coreOf s.cur) src
    let slot := r.slot r.stage j.idx
    let pages ← s.spanPages (s.agentOf s.cur) .write slot r.size
    checkDropped a src
    s.canIssue 8 [x]
    pure (j, x, slot, pages)) (fun (j, x, slot, pages) =>
      s.issueOp 8 (.jacc c a) [⟨0, ⟨0, slot, 0, none, pages⟩, [], [], none, true⟩, x] (fun o =>
        { o with val := slot, recvs := j.lines })) s

/-! Arrival and release (R301, R302). -/

/-- The bytes at an address as the join unit reads them for a context: a byte that cannot be read there is a
free value (log 4). -/
def State.joinWord (s : State) (c : Nat) (a : Word) : Num :=
  fp32.value (leNat ((List.range 4).map (fun i =>
    let b := a + BitVec.ofNat 64 i
    match s.byteAt (s.ownAgent c) .read b with
    | .ok l => memGet s.mem l
    | .error _ => Config.freeByte s.tick b.toNat)))

/-- A running sum in FP32. -/
def sum32 (xs : List Num) : Num := xs.foldl (fun t x => (t.add x).r32) .zero

/-- One element of the release: the arrived terms in ascending order, then the fill rule (R302). -/
def releaseElement (rule : Nat) (arrived missing : List Num) (f : Num) : Nat :=
  let t := sum32 arrived
  let t := match rule with
    | 1 => (t.mul f).r32
    | 2 => missing.foldl (fun t x => (t.add x).r32) t
    | _ => t
  t.bits fp32 .rne

/-- The factor of RESCALE. -/
def rescale (all arrived : List Num) : Num := ((sum32 all).div (sum32 arrived)).r32

/-- The values of the target's elements (R302). -/
def State.releaseValues (s : State) (c : Nat) (r : Join) : List Nat :=
  let w := fun (i : Nat) => s.joinWord c (r.wtab + BitVec.ofNat 64 (4 * i))
  let at_ := fun (area : Word) (i e : Nat) => s.joinWord c (r.slot area i + BitVec.ofNat 64 (4 * e))
  let arr := r.arrivals
  let out := (List.range r.n).filter (fun i => !r.map.getLsbD i)
  let f := rescale ((List.range r.n).map w) (arr.map w)
  (List.range r.count).map (fun e =>
    releaseElement r.rule (arr.map (fun i => ((w i).mul (at_ r.stage i e)).r32))
      (if r.rule = 2 then out.map (fun i => ((w i).mul (at_ r.sub i e)).r32) else []) f)

/-- The target's elements as they are written: its handle taken as plain FP32; a byte that cannot be written
is left (R299, R302). -/
def State.writeTarget (s : State) (c : Nat) (r : Join) (vs : List Nat) : State :=
  let h := hput r.target 200 4 0
  let lay := match s.layoutFor c 31#5 h with
    | .ok (some (l, _, _)) => some l
    | _ => none
  let o : Opnd := ⟨h, hBase h, coreOf c, lay, []⟩
  if isLocal o.base then s
  else
    let ps : List Poke := ((indices h).zip vs).flatMap (fun p =>
      (o.bytesAt p.1).zipIdx.filterMap (fun b =>
        match s.byteAt (s.ownAgent c) .write b.1 with
        | .ok l => some (l, 0xFF#8, BitVec.ofNat 8 (p.2 / 256 ^ b.2))
        | .error _ => none))
    ps.foldl (fun (s : State) (p : Poke) => s.toPeer 1 p.1 1 p.2.2.toNat 0) (s.poke ps)

/-- A join that a context has open, closed or not, is this record. -/
def Ctx.holdsJoin (x : Ctx) (lines : List Nat) (launch : Nat) : Option OpenJoin :=
  if (x.task.map (·.launch)) == some launch then x.join.filter (fun j => j.lines == lines && j.shut.isNone)
  else none

/-- The contexts of a launch that are stragglers of a record have a kill pending (R303). -/
def Ctx.straggle (x : Ctx) (lines : List Nat) (launch : Nat) (late : BitVec 256) (time : Nat) : Ctx :=
  match x.holdsJoin lines launch with
  | some j => if late.getLsbD j.idx then { x with join := some { j with kill := some time } } else x
  | none => x

/-- A kill is pending for a context. -/
def Ctx.dying (x : Ctx) : Bool := (x.join.bind (·.kill)).isSome

/-- A saved straggler is killed without being restored: it ends and counts (R303). -/
def State.killSaved (s : State) : State :=
  let split := s.saved.map (fun g => (g, g.ctxs.partition (·.image.dying)))
  let keep := split.map (fun p =>
    { p.1 with ctxs := p.2.2, rings := p.1.rings ++ (ringsOf (p.2.1.flatMap (·.copies))).filter isSpad })
  let s := { s with saved := keep.filter (fun g => !g.ctxs.isEmpty) }
  split.foldl (fun (s : State) p =>
    let s := s.fillSaved [{ p.1 with ctxs := p.2.1 }]
    p.2.1.foldl (fun (s : State) _ => s.countTask p.1.launch false) s) s

/-- The release (R302, R303). -/
def State.release (s : State) (c launch : Nat) (lines : List Nat) : State :=
  let r := s.joinAt lines
  let s := s.writeTarget c r (s.releaseValues c r)
  let s := (s.joinPut lines 144 8 s.time).joinPut lines 5 1 jReleased
  let late := r.enr &&& ~~~r.map
  let mark := fun (x : Ctx) => x.straggle lines launch late s.time
  let saved := s.saved.map (fun g =>
    { g with ctxs := g.ctxs.map (fun x => { x with image := mark x.image }) })
  { s with ctxs := s.ctxs.map (fun p : Nat × Ctx => (p.1, mark p.2)), saved := saved }.killSaved

/-- An arrival of a context at its join, indivisible (R301): the status it receives. -/
def State.arrive (s : State) (c : Nat) (j : OpenJoin) : Nat × State :=
  let r := s.joinAt j.lines
  if r.state != jOpen then (3, s)
  else
    let t := (s.joinPut j.lines 80 32 (r.map ||| (1#256 <<< j.idx)).toNat).joinPut j.lines 6 2 (r.arrn + 1)
    if r.arrn + 1 = r.q then (2, t.release c (((s.ctx c).task.map (·.launch)).getD 0) j.lines) else (1, t)

/-- JACCs of a context in flight. -/
def State.contributing (s : State) (c : Nat) : Bool := s.ops.any (fun o => o.ctx == c && o.engine == 8)

/-- A collective names this join (R255). -/
def State.collNames (s : State) (lines : List Nat) : Bool := s.colls.any (fun o => o.join.any (fun j => j.lines == lines))

/-- JARR: the arrival commits once the context's contributions have written the slot. A release: it waits for the
context's writes to the regions bound to the join (R253, R255, R301). -/
def execJarr (c : BitVec 5) (a : BitVec 5) (s : State) : Host.Outcome State Fault Refusal :=
  perform (do
    let j ← s.joined (s.hr a) true
    await (s.coveredDone s.cur j.record (if s.collNames j.lines then 5 else 4))
    pure j) (fun j =>
    let t := s.newInterval s.cur
    let t := t.modMe (fun x => { x with join := some { j with arrived := true } })
    if s.contributing s.cur then t.pendLoad .scalar c .arrival 0
    else
      let (st, t) := t.arrive s.cur j
      t.pendLoad .scalar c (.value (BitVec.ofNat 256 st)) 0) s

/-- A JARR that waited for the last contribution of its context arrives now. -/
def State.arriveWaiting (s : State) (c : Nat) : State :=
  if s.contributing c then s
  else match s.loads.find? (fun l => l.ctx == c && l.kind == .arrival), (s.ctx c).openJoin with
    | some l, some j =>
      let (st, t) := s.arrive c j
      { t with loads := t.loads.map (fun m => if m.id == l.id then { m with kind := .value (BitVec.ofNat 256 st) } else m) }
    | _, _ => s

/-- JACC_COMPLETION: the contribution's bits go into the slot unless the join has been released (R301). -/
def execJaccCompletion (id : Nat) (s : State) : Host.Outcome State Fault Refusal :=
  happen (match s.ready? 8 id with
    | none => s
    | some o =>
      match s.badElement (o.arg 1) (indices (o.arg 1).h) with
      | some a => (s.opError o a).arriveWaiting o.ctx
      | none =>
        let s := s.raceOpnd o (o.arg 1) false
        let bs := ((indices (o.arg 1).h).map (s.element (o.arg 1))).flatMap (leBytes 4)
        let s := if (s.joinAt o.recvs).state = jOpen then s.writeRun (o.arg 0).pages o.val bs else s
        (s.retire o).arriveWaiting o.ctx)

/-- An arrival of a context that still waits for its contributions when the join has been released is late (R301). -/
def State.comeLate (s : State) (c : Nat) : State :=
  { s with loads := s.loads.map (fun (l : PendLoad) =>
      if l.ctx == c && l.kind == .arrival then { l with kind := .value 3 } else l) }

/-- JWAIT: an engine wait until the release, then an acquire (R255, R276, R301). -/
def execJwait (a : BitVec 5) (s : State) : Host.Outcome State Fault Refusal :=
  perform (do
    let j ← s.joined (s.hr a) false
    await ((s.joinAt j.lines).state == jReleased)
    pure j) (fun j =>
      (((s.newInterval s.cur).setFloor s.cur (if s.collNames j.lines then 5 else 4)).comeLate s.cur).modMe (fun x =>
        { x with join := some { j with shut := some (s.joinBits j.lines) } })) s

/-- KPT: a kill point and nothing else. -/
def execKpt (s : State) : Host.Outcome State Fault Refusal :=
  always (fun s => s.modMe (fun x => { x with killPoint := true })) s

/-! Kills (R303, R304). -/

/-- A straggler stands where it is killed: asleep in IDLE, or at a boundary that is a kill point, that comes 20 µs after
the release, or at which it is blocked (R303); rows still to be reopened block it too (R235). -/
def State.killDue (s : State) (c : Nat) : Bool :=
  let x := s.ctx c
  match x.join with
  | none => false
  | some j => match j.kill with
    | none => false
    | some t => x.task.isSome && decide (x.ending = .none) &&
      (x.asleep || (x.atBoundary && (x.killPoint || x.safe.isSome || decide (t + 20000 ≤ s.time) ||
        (x.blocked && x.recompute.isNone) || !x.rowsOwed.isEmpty)))

/-- STRAGGLER_KILL. -/
def execStragglerKill (c : Nat) (s : State) : Host.Outcome State Fault Refusal :=
  happen (if s.killDue c then (s.modCtx c (fun x => x.endBy .killed)).dropCopies c else s)

end Sys2Proof.Machine
end

