-- ==== Sys2Proof/Machine/Versions.lean ====
section
/-! DEFINITION. Versions and tokens (spec 07 R240 to R243; spec 12 R338). -/

namespace Sys2Proof.Machine

/-- The latest published version of a region in this package, if any has been published (R240). -/
def State.published (s : State) (region : Nat) : Option (BitVec 16) := tblFind s.pubs region

/-- a − b of versions, read signed (R241). -/
def verDiff (a b : BitVec 16) : Int := (a - b).toInt

/-- PUB := ver, VALID := 1 (R241). -/
def State.publish (s : State) (region : Nat) (ver : BitVec 16) : State := { s with pubs := tblSet s.pubs region ver }

/-- VPUB: a release at fabric scope, then the publication, which travels to every package of the group (R241). -/
def execVpub (a : BitVec 5) (b : BitVec 5) (s : State) : Host.Outcome State Fault Refusal :=
  let x := (s.sr a).toNat
  let v := (s.sr b).toNat
  perform (do
    need (decide (x < 256) && decide (v < 2 ^ 16)) (trapC cProt)
    need (s.writerOf (s.polderOf s.cur) x) (trapC cProt)
    need ((s.published x).all (fun p => decide (0 < verDiff (BitVec.ofNat 16 v) p))) (trapC cProt)
    await (s.storesDone s.cur 5 && s.opsDone s.cur)) (fun _ =>
      let t := (s.newInterval s.cur).publish x (BitVec.ofNat 16 v)
      if 1 < s.fabric.members.length then t.emit (.publication (BitVec.ofNat 8 x) (BitVec.ofNat 16 v)) else t) s

/-- Where a polder's record lies. -/
def polderAt (p : Nat) : Nat := Config.polderBase + 128 * p

/-- PEND of the polder that supplies a polder's version, and whether a switch is pending (R240, R279). -/
def State.pending (s : State) (p : Nat) : Nat × Bool :=
  let e := s.effPolder 3 p
  (s.polField e 14 2, (s.polField e 2 2).testBit 2)

/-- Set PEND, or clear PVAL, in the record that supplies a polder's version. -/
def State.setPending (s : State) (p : Nat) (v : Option (BitVec 16)) : State :=
  let a := polderAt (s.effPolder 3 p)
  let flags := memRead s.mem (a + 2) 2
  match v with
  | some v => (s.store (a + 14) 2 v.toNat).store (a + 2) 2 (flags ||| 4)
  | none => s.store (a + 2) 2 (flags &&& 0xFFFB)

/-- VSWT (R242). -/
def execVswt (a : BitVec 5) (s : State) : Host.Outcome State Fault Refusal :=
  let x := (s.sr a).toNat
  let p := s.polderOf s.cur
  perform (do
    need (decide (x < 2 ^ 16)) (trapC cProt)
    need ((s.published (s.effField 4 p 10 1)).any (fun q => decide (0 ≤ verDiff q (BitVec.ofNat 16 x))))
      (trapC cVersionAbsent)) (fun _ => s.setPending p (some (BitVec.ofNat 16 x))) s

/-- The sluice: the beginning of a launch of a polder that is a token boundary (R242). -/
def State.sluice (s : State) (p : Nat) : State :=
  let (v, on) := s.pending p
  if on then (s.store (polderAt (s.effPolder 3 p) + 12) 2 v).setPending p none else s

/-- A token record (R243). -/
def State.tokenRecord (s : State) (a b : Word) : Nat :=
  let task := (s.me.task.map (·.index)).getD 0
  a.toNat + b.toNat % 2 ^ 32 * 2 ^ 64 + (s.verOf s.cur).toNat * 2 ^ 96 + s.polderOf s.cur % 2 ^ 12 * 2 ^ 128 +
    task % 2 ^ 16 * 2 ^ 144 + s.me.tokSeq.toNat * 2 ^ 160 + s.time % 2 ^ 64 * 2 ^ 192

/-- The form of a TEMIT's ring (R243). -/
def tokenRing (h : Handle) : Bool :=
  handleOk h && hKind h == kRing && !hW h && hFmt h == 9 && extents h == (32, 1, 1, 1) && hStride h 3 % 32 == 0

/-- TEMIT: the record's bytes are performed as the word issues, in one go (R243). -/
def execTemit (c : BitVec 5) (a : BitVec 5) (b : BitVec 5) (s : State) : Host.Outcome State Fault Refusal :=
  let h := s.hr c
  let k := coreOf s.cur
  perform (do
    need (tokenRing h) (trapE 31#5 fHandleForm)
    let (slot, lay) ← s.claimable 31#5 h k
    let l := lay.map (·.1)
    let o : Opnd := ⟨h, slotBase h slot.seq, k, l, []⟩
    let t ← if isLocal o.base then pure [] else pagesBy (s.byteAt (s.agentOf s.cur) .write) o.ends []
    checkDropped c h
    await slot.free
    await (!(isLocal o.base && (s.rangeBusy k none (spadLoc k (hBase h).toNat) 64 ||
      s.rangeBusy k none (spadLoc k o.base.toNat) (spanOf h l))))
    pure (slot, { o with pages := t }, lay.toList.map (·.2))) (fun (slot, o, keep) =>
      let t := keep.foldl (fun (s : State) p => s.cacheRecord k p.1 p.2) s
      let v := s.tokenRecord (s.sr a) (s.sr b)
      let t := (t.claimSlot slot).putElements o ((indices h).map (fun i => (i, v / 256 ^ i.i0 % 256)))
      (t.advanceTail (s.teamOf s.cur) slot.loc).modMe (fun x => { x with tokSeq := x.tokSeq + 1 })) s

/-- VERSION_PUBLICATION: a publication of another package of the group arrives, after the writes it covers
(R241, R338). -/
def execVersionPublication (region : BitVec 8) (ver : BitVec 16) (s : State) : Host.Outcome State Fault Refusal :=
  happen (s.publish region.toNat ver)

end Sys2Proof.Machine
end

