-- ==== Sys2Proof/Machine/Launch.lean ====
section
/-! DEFINITION. Launch queues, the beginning of launches, placement and the request to pre-empt (spec 09 R280
to R287; spec 14 R372 to R375). -/

namespace Sys2Proof.Machine

/-! Queues (R372 to R375). -/

/-- A write of Q.TAIL posts entries (R374), a release by the host (R255, R275). -/
def State.postEntries (s : State) (n : Nat) (tail : BitVec 16) : State :=
  { (s.setQueue n { s.queue n with tail := tail }).tickInterval with doorbells := s.doorbells ++ [(n, tail)] }

/-- DOORBELL. -/
def execDoorbell (q : BitVec 5) (tail : BitVec 16) (s : State) : Host.Outcome State Fault Refusal :=
  happen (s.postEntries q.toNat tail)

/-- Drop the doorbells whose entries have all been read. -/
def State.trimDoorbells (s : State) : State :=
  { s with doorbells := s.doorbells.filter (fun d => (s.queue d.1).head != d.2) }

/-- The queue whose entry is taken next: that of the oldest doorbell of an enabled queue with entries left. -/
def State.nextQueue (s : State) : Option Nat :=
  (s.doorbells.find? (fun d => (s.queue d.1).en && (s.queue d.1).head != d.2 &&
    (s.queue d.1).head != (s.queue d.1).tail)).map (·.1)

/-- Write the device's fields of a queue's entry at a location; a final state carries the time and raises the queue's message (R373 to
R376). -/
def State.reportEntry (s : State) (q a state reason : Nat) : State :=
  let s := s.store (a + 40) 24 0
  if state = 1 then (s.store (a + 24) 8 s.time).store (a + 16) 8 1
  else
    let s := (s.store (a + 32) 8 s.time).store (a + 16) 8 (state + 256 * reason)
    if (s.queue q).ien then s.emit (.msix (8 + q)) else s

/-! Launch records (R281). -/

/-- A launch record's header, as a number. -/
structure Header where
  bits : Nat
  deriving DecidableEq, Repr

def Header.code (h : Header) : Word := BitVec.ofNat 64 (bitsOf h.bits 63 0)
def Header.polder (h : Header) : Nat := bitsOf h.bits 79 64
def Header.flags (h : Header) : Nat := bitsOf h.bits 87 80
def Header.token (h : Header) : Bool := h.flags.testBit 0
def Header.pclass (h : Header) : Nat := bitsOf h.flags 2 1
def Header.super (h : Header) : Bool := h.flags.testBit 3
def Header.group (h : Header) : Nat := bitsOf h.bits 95 88
def Header.tasks (h : Header) : Nat := bitsOf h.bits 127 96
def Header.spad (h : Header) : Nat := bitsOf h.bits 159 128
def Header.sporg (h : Header) : Nat := bitsOf h.bits 191 160
def Header.sched (h : Header) : Word := BitVec.ofNat 64 (bitsOf h.bits 255 192)
def Header.join (h : Header) : Word := BitVec.ofNat 64 (bitsOf h.bits 319 256)
def Header.joinn (h : Header) : Nat := bitsOf h.bits 335 320
def Header.dmapn (h : Header) : Nat := bitsOf h.bits 351 336
def Header.imgn (h : Header) : Nat := bitsOf h.bits 367 352
def Header.dmap (h : Header) : Word := BitVec.ofNat 64 (bitsOf h.bits 447 384)
def Header.img (h : Header) : Word := BitVec.ofNat 64 (bitsOf h.bits 511 448)
def Header.done (h : Header) : Word := BitVec.ofNat 64 (bitsOf h.bits 575 512)
/-- The reserved bytes of the header are 0. -/
def Header.clear (h : Header) : Bool := bitsOf h.bits 383 368 == 0 && bitsOf h.bits 1023 576 == 0 && h.flags < 16

/-- The join records a launch lists. -/
def Header.joins (h : Header) : List Word :=
  if h.join = 0#64 then [] else (List.range h.joinn).map (fun j => h.join + BitVec.ofNat 64 (192 * j))

/-- Read a run that no weight leaf maps (R271). -/
def State.readPlain (s : State) (g : Agent) (a : Word) (n : Nat) : Chk (List Byte) :=
  if (pageStarts a n).any (fun p => ((s.walk g.asid p).map (·.weight)).getD false) then trapA cProt a
  else s.readRun g a n

/-- The header and the task addresses of the record at an address. -/
def State.readRecord (s : State) (g : Agent) (a : Word) : Chk (Header × List Word) := do
  let b ← s.readPlain g a 128
  let h : Header := ⟨leNat b⟩
  let l ← s.readPlain g (a + 128#64) (8 * h.tasks)
  pure (h, (List.range h.tasks).map (fun i => BitVec.ofNat 64 (leNat ((l.drop (8 * i)).take 8))))

/-- The version a launch of a polder would be bound to (R236, R242). -/
def State.bindVer (s : State) (p : Nat) (token : Bool) : BitVec 16 :=
  BitVec.ofNat 16 (if token && (s.pending p).2 then (s.pending p).1 else s.currentVer p)

/-- An image-table entry keeps the rules of R281: local destination, global source, multiples of 4; a
destination's bytes stay in its area. -/
def imageOk (b : List Byte) : Bool :=
  let (d, src, n) := imageEntry b
  isLocal d && localOk d && d.toNat % 4 == 0 && !isLocal src && src.toNat % 4 == 0 && n % 4 == 0 &&
    leNat (b.drop 20) == 0 && decide (offsetOf d + n ≤ areaSize d)

/-- How the image table fares: unreadable, badly formed. -/
def State.imagesBad (s : State) (g : Agent) (h : Header) : Bool × Bool :=
  if 256 < h.imgn then (false, false)
  else (List.range h.imgn).foldl (fun (bad : Bool × Bool) i =>
    match s.readRun g (h.img + BitVec.ofNat 64 (24 * i)) 24 with
    | .ok b => (bad.1, bad.2 || !imageOk b)
    | .error (.trap t) => (bad.1 || t.cause == cXlate || t.cause == cProt, bad.2)
    | .error .wait => bad) (false, false)

/-- A check answers. -/
def holds {α : Type} (c : Chk α) : Bool :=
  match c with
  | .ok _ => true
  | .error _ => false

/-- Address space and privilege of the source of a launch: its queue, or for a producer the launch that needs it, with that
launch's polder and bound version (R298). -/
structure Source where
  asid : Nat
  priv : Bool
  bound : Option (Nat × BitVec 16)

/-- The reason to reject a launch whose header could be read, 0 for none: the lowest that applies (R282, R374). -/
def State.rejectReason (s : State) (src : Source) (h : Header) : Nat :=
  let p := (src.bound.map (·.1)).getD h.polder
  let g : Agent := ⟨src.asid, true, (src.bound.map (·.2)).getD (s.bindVer p h.token), p⟩
  let (unread, badForm) := s.imagesBad g h
  let joinsBad := h.joinn ≤ 16 && h.joins.any (fun a => !(holds (s.spanPages g .read a 192) && holds (s.spanPages g .write a 192)))
  let doneBad := h.done != 0#64 && !(holds (s.spanPages g .read h.done 8) && holds (s.spanPages g .write h.done 8))
  if 4096 ≤ p || !(s.polField p 2 2).testBit 0 then 1
  else if h.code.toNat % 4 ≠ 0 then 2
  else if h.tasks = 0 || 16 < h.group then 3
  else if h.pclass = 3 || (h.pclass = 2 && s.effField 0 p 6 1 < 15 && !h.super) then 4
  else if h.super && !src.priv then 5
  else if !h.clear || 16 < h.joinn || 64 < h.dmapn || 256 < h.imgn || h.sporg % 64 ≠ 0 ||
      0x1B0000 < h.sporg + h.spad || h.done.toNat % 8 ≠ 0 || badForm then 6
  else if unread || joinsBad || doneBad then 7
  else if s.effField 2 p 8 2 ≠ src.asid then 8
  else 0

/-- A launch as its record gives it (R281). -/
def State.launchFrom (s : State) (id : Nat) (record : Word) (queue : Option (Nat × Nat)) (p : Nat) (h : Header)
    (addrs : List Word) : Launch where
  id := id
  record := record
  queue := queue
  polder := p
  asid := s.effField 2 p 8 2
  prio := s.effField 0 p 6 1
  fdom := s.effField 1 p 7 1
  version := s.bindVer p false
  code := h.code
  pclass := h.pclass
  super := h.super
  group := h.group
  tasks := h.tasks
  spad := h.spad
  sporg := h.sporg
  acc0 := s.effField 10 p 28 1
  accn := s.effField 10 p 29 1
  sched := h.sched
  img := h.img
  imgn := h.imgn
  dmap := h.dmap
  dmapn := h.dmapn
  addrs := addrs
  done := if h.done = 0#64 then none else some h.done
  nextGroup := 0
  ended := 0
  failed := false
  depth := 0
  consumer := none
  begun := 0

/-- How many launches have begun, plus 1. -/
def State.nextBegun (s : State) : Nat := s.launches.foldl (fun n l => max n l.begun) 0 + 1

/-- Reset the listed joins; a record that faults stays as it was (R282 step 2). -/
def State.resetJoins (s : State) (g : Agent) (as : List Word) : State :=
  as.foldl (fun (s : State) a =>
    match s.joinLines g a with
    | .error _ => s
    | .ok lines =>
      if lines.any (fun l => s.poisoned l 64) then s.logError 2 (BitVec.ofNat 64 (lines.headD 0)) 9 0 0 0
      else s.resetJoin lines) s

/-- Enter a launch into the order of placement: a producer goes ahead of waiting launches of equal or lower
priority (R298). -/
def State.enqueue (s : State) (l : Launch) : List Nat :=
  let above := fun (i : Nat) => match s.launches.find? (fun m => m.id == i) with
    | some m => decide (l.prio < m.prio)
    | none => false
  if l.consumer.isSome then
    s.waiting.takeWhile above ++ [l.id] ++ s.waiting.dropWhile above
  else s.waiting ++ [l.id]

/-- A launch begins (R282): the sluice, its version, its joins; its groups wait to be placed. -/
def State.begin_ (s : State) (record : Word) (queue : Option (Nat × Nat)) (p : Nat) (h : Header) (addrs : List Word) :
    State :=
  let (id, s) := s.fresh
  let s := match queue with
    | some (q, a) => s.reportEntry q a 1 0
    | none => s
  let s := if h.token then s.sluice p else s
  let l := { s.launchFrom id record queue p h addrs with begun := s.nextBegun }
  let s := s.resetJoins l.agent h.joins
  let s := { s with launches := s.launches ++ [l] }
  { s with waiting := s.enqueue l }

/-- A fault domain is stopped and not acknowledged (R296, R377). -/
def State.domainHeld (s : State) (d : Nat) : Bool := s.rontal.fdstat.getLsbD d

/-- Take an entry that a queue has handed over: reject it, hold it back, or begin it (R282, R374, R377). -/
def State.takeEntry (s : State) (e : HeldEntry) : State :=
  let record := BitVec.ofNat 64 (memRead s.mem e.at_ 8)
  let g : Agent := ⟨e.asid, true, 0, 0⟩
  match s.readRecord g record with
  | .error (.trap t) =>
    let s := if t.cause = cMcheck then s.logError 2 t.addr 8 0 0 0 else s
    s.reportEntry e.queue e.at_ 2 7
  | .error .wait => s
  | .ok (h, addrs) =>
    let reason := s.rejectReason ⟨e.asid, decide (e.queue < 4), none⟩ h
    if reason ≠ 0 then s.reportEntry e.queue e.at_ 2 reason
    else if s.domainHeld (s.effField 1 h.polder 7 1) || s.remapping h.polder then { s with heldLaunches := s.heldLaunches ++ [e] }
    else s.begin_ record (some (e.queue, e.at_)) h.polder h addrs

/-- The polder's domain of a held entry is free again, and its weight-store map applied (R351, R377). -/
def State.heldReady (s : State) (e : HeldEntry) : Bool :=
  let record := BitVec.ofNat 64 (memRead s.mem e.at_ 8)
  match s.readRecord ⟨e.asid, true, 0, 0⟩ record with
  | .ok (h, _) => !s.domainHeld (s.effField 1 h.polder 7 1) && !s.remapping h.polder
  | .error _ => true

/-- A producer launch that waits to begin; one in a stopped fault domain is held (R296, R298). -/
def State.nextProducer (s : State) : Option Launch :=
  s.launches.find? (fun l => l.consumer.isSome && l.begun == 0 && !l.failed && !s.domainHeld l.fdom && !s.remapping l.polder)

/-- Begin a producer launch in its consumer's polder, bound to the consumer's version; a rejected one fails (R298). -/
def State.beginProducer (s : State) (l : Launch) : State :=
  let fail := s.modLaunch l.id (fun l => { l with failed := true })
  match s.readRecord ⟨l.asid, true, 0, l.polder⟩ l.record with
  | .error (.trap t) => if t.cause = cMcheck then fail.logError 2 t.addr 8 0 0 0 else fail
  | .error .wait => s
  | .ok (h, addrs) =>
    if s.rejectReason ⟨l.asid, l.super, some (l.polder, l.version)⟩ h ≠ 0 then fail
    else
      let s := if h.token then s.sluice l.polder else s
      let m := { s.launchFrom l.id l.record none l.polder h addrs with
        version := l.version, depth := l.depth, consumer := l.consumer, begun := s.nextBegun }
      let s := s.resetJoins m.agent h.joins
      let s := s.modLaunch l.id (fun _ => m)
      { s with waiting := { s with waiting := s.waiting.filter (fun i => i != l.id) }.enqueue m }

/-- LAUNCH_BEGIN: a producer, a held launch whose domain has been acknowledged, or the next queue entry. In a
fatal state queues take no entry (R386). -/
def execLaunchBegin (s : State) : Host.Outcome State Fault Refusal :=
  happen (if s.rontal.state != 2#3 then s
    else match s.nextProducer with
    | some l => s.beginProducer l
    | none =>
      match s.heldLaunches.find? s.heldReady with
      | some e => { s with heldLaunches := s.heldLaunches.filter (fun x => x != e) }.takeEntry e
      | none =>
        match s.nextQueue with
        | none => s
        | some q =>
          let r := s.queue q
          (s.setQueue q { r with head := r.head + 1 }).trimDoorbells.takeEntry ⟨q, r.entryAt r.head.toNat, r.asid.toNat⟩)

/-! Placement (R280, R284). -/

/-- The polders whose budgets hold over a polder's tasks (R280). -/
def State.budgets (s : State) (p : Nat) : List Nat :=
  (s.polChain 8 p).filter (fun a => a == 0 || (s.polField a 4 2).testBit 5)

/-- The launches of the tasks that run on a core, certain contexts apart. -/
def State.tenants (s : State) (k : Nat) (gone : List Nat) : List Launch :=
  ([0, 1, 2, 3].filterMap (fun i => if gone.contains (4 * k + i) then none else s.launchOf (4 * k + i)))

/-- Two runs of units overlap. -/
def clash (a n b m : Nat) : Bool := n != 0 && m != 0 && overlaps a n b m

/-- The allotments of two launches on one core overlap (R29, R284). -/
def Launch.clashes (l m : Launch) : Bool := clash l.sporg l.spad m.sporg m.spad || clash l.acc0 l.accn m.acc0 m.accn

/-- Scratchpad a task of a launch holds on its core (R280). -/
def Launch.holding (l : Launch) : Nat := l.spad + 4096 * l.accn

/-- Free contexts of a core, those of a victim group among them. -/
def State.freeOn (s : State) (k : Nat) (gone : List Nat) : List Nat :=
  ([0, 1, 2, 3].map (fun i => 4 * k + i)).filter (fun c => gone.contains c || (s.ctx c).task.isNone)

/-- A task of a launch fits on a core beside its tenants and the tasks of its group put there already (R280, R284). -/
def State.fits (s : State) (l : Launch) (k : Nat) (tent : List Nat) (gone : List Nat) : Bool :=
  let here := (tent.filter (fun j => j == k)).length
  let ten := s.tenants k gone ++ List.replicate here l
  let under := fun (a : Nat) (m : Launch) => s.under m.polder a
  decide (here < (s.freeOn k gone).length) && ten.all (fun m => !l.clashes m) &&
  (s.budgets l.polder).all (fun a =>
    let spad := s.polField a 20 4
    let most := s.polField a 26 2
    let held := ((ten.filter (under a)).map Launch.holding).sum
    let run := (s.ctxs.filter (fun p => !gone.contains p.1 && match s.launchOf p.1 with
      | some m => under a m
      | none => false)).length
    (spad == 0 || decide (held + l.holding ≤ spad)) && (most == 0 || decide (run + tent.length + 1 ≤ most)))

/-- The logical number that the map holds for a physical core, if any (R118). -/
def State.logicalOf (s : State) (k : Nat) : Option Nat :=
  (List.range 96).find? (fun l => s.mapped (cubeOfCore k) l == some (k % 96))

/-- A core is known by the number that the map gives it once a task is placed on it (R24, R391). -/
def State.nameCore (s : State) (k : Nat) : State :=
  match s.logicalOf k with
  | some l => if s.logical k = l then s else s.modCube (cubeOfCore k) (fun x => { x with names := tblSet x.names (k % 96) l })
  | none => s

/-- No in-field test keeps tasks of a priority from a core; a running test gives way where `force` (R390). -/
def State.untested (s : State) (k prio : Nat) (force : Bool) : Bool :=
  !(s.cube (cubeOfCore k)).withdrawn &&
  match (s.cube (cubeOfCore k)).fieldTest with
  | some t => t.core != k || (decide (t.prio < prio) && (t.running.isNone || force))
  | none => true

/-- A task on core j of core k's cube was placed there, on another core, under the number l. -/
def misnamed (k l j : Nat) (t : Option Task) : Bool := cubeOfCore j == cubeOfCore k && j != k && t.any (fun t => t.core == l)

/-- A core may receive a task of a priority (R284, R390, R391): it is in the map, no task that has not ended, a saved
one among them, was placed on another core under its number, and no in-field test keeps it. -/
def State.usable (s : State) (k prio : Nat) (force : Bool) : Bool :=
  match s.logicalOf k with
  | none => false
  | some l =>
    !(s.ctxs.any (fun p => misnamed k l (coreOf p.1) p.2.task)) &&
    !(s.saved.any (fun g => g.ctxs.any (fun x => misnamed k l x.place x.image.task))) && s.untested k prio force

/-- The core and cluster that a task's address prefers within a cube (R284 step 2; log 8). -/
def State.preferred (s : State) (l : Launch) (q : Nat) (a : Word) : Option (Nat × Nat) :=
  match s.byteAt l.agent .read a with
  | .error _ => none
  | .ok pa =>
    if s.inHbm pa && homeCube pa == q then
      let p := Config.affinity pa
      some (p.1 % 24, p.2 % 4)
    else none

/-- The index of the first greatest element. -/
def argMax (f : Nat → Nat) : List Nat → Option Nat
  | [] => none
  | x :: r => match argMax f r with
    | none => some x
    | some y => if f x < f y then some y else some x

/-- The core of one task in a cluster (R284 step 3). -/
def State.chooseCore (s : State) (l : Launch) (q cl : Nat) (a : Word) (force : Bool) (tent gone : List Nat) : Option Nat :=
  let base := q * 96 + cl * 4
  let ok := fun (k : Nat) => s.usable k l.prio force && s.fits l k tent gone
  let free := fun (k : Nat) => (s.freeOn k gone).length - (tent.filter (fun j => j == k)).length
  let best := argMax free ([0, 1, 2, 3].map (fun p => base + p) |>.filter ok)
  match s.preferred l q a with
  | some (c, p) => if c = cl ∧ ok (base + p) then some (base + p) else best
  | none => best

/-- The cores of a group's tasks in a cluster, if it can take them all. -/
def State.tryCluster (s : State) (l : Launch) (q cl : Nat) (as : List Word) (force : Bool) (gone : List Nat) :
    Option (List Nat) :=
  as.foldl (fun (t : Option (List Nat)) a => match t with
    | none => none
    | some ks => (s.chooseCore l q cl a force ks gone).map (fun k => ks ++ [k])) (some [])

/-- The task addresses of a launch's group g. -/
def Launch.groupAddrs (l : Launch) (g : Nat) : List Word := (l.addrs.drop (g * max l.group 1)).take (max l.group 1)

/-- The cluster of a cube that takes a group (R284 step 2). -/
def State.pickCluster (s : State) (l : Launch) (q : Nat) (as : List Word) (force : Bool) : Option (List Nat) :=
  let votes := fun (cl : Nat) => (as.filter (fun a => (s.preferred l q a).map (·.1) == some cl)).length
  let can := (List.range 24).filter (fun cl => (s.tryCluster l q cl as force []).isSome)
  (argMax votes can).bind (fun cl => s.tryCluster l q cl as force [])

/-- Bytes of a range homed in a cube's HBM (R284 step 1). -/
def State.homed (s : State) (l : Launch) (q lo hi : Nat) : Nat :=
  if hi < lo then 0
  else ((List.range (hi / 2 ^ 18 - lo / 2 ^ 18 + 1)).map (fun j =>
    let a := max lo ((lo / 2 ^ 18 + j) * 2 ^ 18)
    let e := min (hi + 1) ((lo / 2 ^ 18 + j + 1) * 2 ^ 18)
    match s.walk l.asid (BitVec.ofNat 64 a) with
    | none => 0
    | some f => match f.backing l.agent with
      | none => 0
      | some pg =>
        let pa := pg + a % 2 ^ f.shift
        if a < 2 ^ 64 ∧ s.inHbm pa ∧ homeCube pa = q then e - a else 0)).sum

/-- The score of a cube for a group (R284 step 1). -/
def State.cubeScore (s : State) (l : Launch) (q : Nat) (as : List Word) : Nat :=
  ((List.range l.dmapn).map (fun i =>
    match s.readRun l.agent (l.dmap + BitVec.ofNat 64 (24 * i)) 24 with
    | .error _ => 0
    | .ok b =>
      let n := leNat b
      bitsOf n 159 128 * s.homed l q (n % 2 ^ 64) (bitsOf n 127 64))).sum +
  (as.map (fun a => if s.homed l q a.toNat a.toNat = 1 then 2 ^ 18 else 0)).sum

/-- Free contexts of a cube. -/
def State.cubeFree (s : State) (q : Nat) : Nat :=
  384 - (s.ctxs.filter (fun p => cubeOf p.1 == q && p.2.task.isSome)).length

/-- Where a group goes, if it can be placed now (R284). -/
def State.findPlace (s : State) (l : Launch) (g : Nat) (force : Bool) : Option (List Nat) :=
  let as := l.groupAddrs g
  let c0 := s.pickCluster l 0 as force
  let c1 := if s.part.cubes = 2 then s.pickCluster l 1 as force else none
  match c0, c1 with
  | some x, some y =>
    let s0 := s.cubeScore l 0 as
    let s1 := s.cubeScore l 1 as
    if s0 < s1 ∨ (s0 = s1 ∧ s.cubeFree 0 < s.cubeFree 1) then some y else some x
  | some x, none => some x
  | none, y => y

/-- A group's tasks start on their cores, each on the lowest free context. -/
def State.placeGroup (s : State) (l : Launch) (g : Nat) (cores : List Nat) : State :=
  let base := g * max l.group 1
  (cores.zip (l.groupAddrs g)).zipIdx.foldl (fun (s : State) p =>
    if s.launches.any (fun m => m.id == l.id && m.failed) then s
    else match s.freeOn p.1.1 [] with
      | c :: _ => (s.nameCore p.1.1).startTask l c (base + p.2) p.1.2
      | [] => s) s

/-! The request to pre-empt (R287). -/

/-- The groups that run, with the contexts of the tasks they still have: none asked to stop (R287). -/
def State.wholeGroups (s : State) (l : Launch) : List (List Nat) :=
  (List.range l.nextGroup).filterMap (fun g =>
    let cs := s.ctxs.filterMap (fun p => match p.2.task with
      | some t => if t.launch == l.id && t.group == g then some p.1 else none
      | none => none)
    if cs.all (fun c => (s.ctx c).preempt == .none) && cs.any (fun c => (s.ctx c).ending == .none) then some cs else none)

/-- The victim group for a launch that cannot be placed: lowest priority, then most recently begun (R287). -/
def State.victim (s : State) (l : Launch) : Option (List Nat) :=
  let as := l.groupAddrs l.nextGroup
  let cand := (s.launches.filter (fun m => decide (m.pclass ≤ 1) && decide (m.prio < l.prio) && !m.failed)).flatMap
    (fun m => (s.wholeGroups m).filterMap (fun cs =>
      let k := coreOf (cs.headD 0)
      if (s.tryCluster l (cubeOfCore k) (k % 96 / 4) as false cs).isSome then some (m, cs) else none))
  let better := fun (a b : Launch × List Nat) =>
    decide (a.1.prio < b.1.prio) || (a.1.prio == b.1.prio && decide (b.1.begun < a.1.begun))
  (cand.foldl (fun (best : Option (Launch × List Nat)) x => match best with
    | none => some x
    | some b => if better x b then some x else some b) none).map (·.2)

/-- A pre-emption already asked for and not finished. -/
def State.preempting (s : State) : Bool :=
  s.ctxs.any (fun p => p.2.preempt != .none) ||
  s.saved.any (fun g => s.ctxs.any (fun p => match p.2.task with
    | some t => t.launch == g.launch && t.group == g.group
    | none => false))

/-- A context that is asked to stop and stands after a safe point stops there (R288); its sleep ends (R297). -/
def Ctx.stopIfSafe (x : Ctx) : Ctx :=
  match x.preempt, x.safe with
  | .req t, some m => if x.atBoundary && x.ending == .none then { x with preempt := .stopped t false m } else x
  | _, _ => x

/-- Ask a group to stop (R288). -/
def State.requestStop (s : State) (cs : List Nat) : State :=
  cs.foldl (fun (s : State) c => s.modCtx c (fun x =>
    if x.ending = .none then { x.awake s.cycles with preempt := .req s.time }.stopIfSafe else x)) s

/-- A launch waits with groups to place; one in a stopped fault domain is held (R296). -/
def State.waits (s : State) (id : Nat) : Option Launch :=
  (s.launches.find? (fun l => l.id == id)).filter (fun l =>
    s.waiting.contains id && !l.failed && !s.domainHeld l.fdom && l.begun != 0 && decide (l.nextGroup * max l.group 1 < l.tasks))

/-- A launch that goes before another in the order of placement could place a group now. -/
def State.placedFirst (s : State) (id : Nat) : Bool :=
  (s.waiting.takeWhile (fun i => i != id)).any (fun i => match s.waits i with
    | some l => (s.findPlace l l.nextGroup false).isSome
    | none => false)

/-- GROUP_PLACEMENT: the launch's next group is placed, or a victim is asked to stop (R284, R287); a part in the fatal state
places nothing (R386). -/
def execGroupPlacement (l : Nat) (s : State) : Host.Outcome State Fault Refusal :=
  happen (match if s.rontal.state = 2#3 then s.waits l else none with
    | none => s
    | some l =>
      match s.findPlace l l.nextGroup false with
      | some cores =>
        if s.placedFirst l.id then s
        else
          let s := s.modLaunch l.id (fun l => { l with nextGroup := l.nextGroup + 1 })
          let s := if l.tasks ≤ (l.nextGroup + 1) * max l.group 1 then { s with waiting := s.waiting.filter (fun i => i != l.id) } else s
          s.placeGroup l l.nextGroup cores
      | none =>
        if s.preempting then s
        else match s.victim l with
          | some cs => s.requestStop cs
          | none => s)

end Sys2Proof.Machine
end

