-- ==== Sys2Proof/Machine/Collectives.lean ====
section
/-! DEFINITION. Collectives (spec 12 R329 to R339): the record and its nest, COLL and CSIG, sending, arrival,
folds, completion, the fallback schedule. -/

namespace Sys2Proof.Machine

/-! The record and its nest (R329, R330). -/

/-- A collective record, as a number. -/
structure CollRec where
  bits : Nat
  deriving DecidableEq, Repr

def CollRec.gsize (r : CollRec) : Nat := bitsOf r.bits 15 0
def CollRec.nlev (r : CollRec) : Nat := bitsOf r.bits 23 16
def CollRec.op (r : CollRec) : Nat := bitsOf r.bits 31 24
def CollRec.fmt (r : CollRec) : Nat := bitsOf r.bits 39 32
def CollRec.pmode (r : CollRec) : Nat := bitsOf r.bits 47 40
def CollRec.plev (r : CollRec) : Nat := bitsOf r.bits 55 48
def CollRec.pa (r : CollRec) : Nat := bitsOf r.bits 79 64
def CollRec.pb (r : CollRec) : Nat := bitsOf r.bits 95 80
def CollRec.pmask (r : CollRec) : Nat := bitsOf r.bits 111 96
def CollRec.ports (r : CollRec) : Nat := bitsOf r.bits 127 112
def CollRec.chunk (r : CollRec) : Nat := bitsOf r.bits 159 128
def CollRec.src (r : CollRec) : Word := BitVec.ofNat 64 (bitsOf r.bits 255 192)
def CollRec.dst (r : CollRec) : Word := BitVec.ofNat 64 (bitsOf r.bits 319 256)
def CollRec.gauge (r : CollRec) : Word := BitVec.ofNat 64 (bitsOf r.bits 383 320)
def CollRec.fallback (r : CollRec) : Word := BitVec.ofNat 64 (bitsOf r.bits 447 384)
/-- The 32 bytes of level k. -/
def CollRec.level (r : CollRec) (k : Nat) : Nat := bitsOf r.bits (512 + 256 * k + 255) (512 + 256 * k)
def CollRec.bound (r : CollRec) (k : Nat) : Nat := bitsOf (r.level k) 31 0
def CollRec.sstr (r : CollRec) (k : Nat) : Word := BitVec.ofNat 64 (bitsOf (r.level k) 127 64)
def CollRec.dstr (r : CollRec) (k : Nat) : Word := BitVec.ofNat 64 (bitsOf (r.level k) 191 128)

/-- The fields keep the limits of R329 and the reserved bytes are 0. -/
def CollRec.valid (r : CollRec) : Bool :=
  decide (1 ≤ r.gsize) && decide (r.gsize ≤ 256) && decide (1 ≤ r.nlev) && decide (r.nlev ≤ 4) && decide (r.op ≤ 3) &&
  decide (r.pmode ≤ 1) && decide (r.plev < r.nlev) && decide (64 ≤ r.chunk) && decide (r.chunk ≤ 4096) &&
  r.chunk % 64 == 0 && ([0, 1, 2, 8].contains r.fmt || (r.op == 3 && decide (r.fmt ≤ 9))) &&
  bitsOf r.bits 63 56 == 0 && bitsOf r.bits 191 160 == 0 && bitsOf r.bits 511 448 == 0 && bitsOf r.bits 2047 1536 == 0 &&
  [0, 1, 2, 3].all (fun k =>
    if k < r.nlev then r.bound k != 0 && bitsOf (r.level k) 63 32 == 0 && bitsOf (r.level k) 255 192 == 0
    else r.level k == 0)

/-- Size of an element in bytes. -/
def CollRec.elem (r : CollRec) : Nat := fmtBytes r.fmt

/-- Iterations of the nest from level k inward. -/
def CollRec.inner (r : CollRec) (k : Nat) : Nat :=
  ((List.range r.nlev).filter (fun j => decide (k ≤ j))).foldl (fun n j => n * r.bound j) 1

/-- Iterations of the whole nest. -/
def CollRec.total (r : CollRec) : Nat := r.inner 0

/-- Index i_k of iteration c. -/
def CollRec.index (r : CollRec) (c k : Nat) : Nat := c / r.inner (k + 1) % r.bound k

/-- Σ i_k × stride_k. -/
def CollRec.offset (r : CollRec) (stride : Nat → Word) (c : Nat) : Word :=
  (List.range r.nlev).foldl (fun a k => a + BitVec.ofNat 64 (r.index c k) * stride k) 0

def CollRec.srcAt (r : CollRec) (c : Nat) : Word := r.src + r.offset r.sstr c
def CollRec.dstAt (r : CollRec) (c : Nat) : Word := r.dst + r.offset r.dstr c

/-- The rank to which a rank sends in iteration c, if it sends. -/
def CollRec.peer (r : CollRec) (rank c : Nat) : Option Nat :=
  let j := r.index c r.plev
  let p := if r.pmode = 0 then (rank + r.pa * j + r.pb) % r.gsize else rank ^^^ (r.pmask <<< j)
  if r.gsize ≤ p then none else some p

/-- The transfers that a rank receives, (chunk, sender), in the order of their turns (R331). -/
def CollRec.turns (r : CollRec) (rank : Nat) : List (Nat × Nat) :=
  (List.range r.total).flatMap (fun c =>
    (List.range r.gsize).filterMap (fun s => if r.peer s c = some rank then some (c, s) else none))

/-- The iterations in which a rank sends. -/
def CollRec.sends (r : CollRec) (rank : Nat) : List Nat :=
  (List.range r.total).filter (fun c => (r.peer rank c).isSome)

/-- Lowest address and length of the chunks at some addresses, if there are any. -/
def CollRec.span (r : CollRec) (as : List Word) : Option (Word × Nat) :=
  match as with
  | [] => none
  | a :: _ =>
    let lo := as.foldl (fun m b => min m b.toNat) a.toNat
    let hi := as.foldl (fun m b => max m b.toNat) a.toNat
    some (BitVec.ofNat 64 lo, hi - lo + r.chunk)

/-- The destination span of a rank. -/
def CollRec.dstSpan (r : CollRec) (rank : Nat) : Option (Word × Nat) :=
  r.span ((r.turns rank).map (fun t => r.dstAt t.1))

/-- The source span of a rank. -/
def CollRec.srcSpan (r : CollRec) (rank : Nat) : Option (Word × Nat) := r.span ((r.sends rank).map r.srcAt)

/-- S: bytes from DST to the highest destination byte that the schedule sends to a rank, inclusive, which is not
positive where all of them lie below DST (R338). -/
def CollRec.reach (r : CollRec) (rank : Nat) : Int :=
  match (r.turns rank).map (fun t => (r.dstAt t.1 - r.dst).toInt + r.chunk) with
  | [] => 0
  | a :: l => l.foldl max a

/-- An area of a walk: a local one within the area and layer of its base, a global one within 57 bits (R20, R25). -/
def walkFits (base : Word) (o : Option (Word × Nat)) : Bool :=
  match o with
  | none => true
  | some (a, n) => spanFits a n && isLocal a == isLocal base &&
      (!isLocal base || (areaOf a == areaOf base && layerOf a == layerOf base))

/-- SRC, DST and GAUGE have the form of R20, R25, R212 and R329, the gauge outside the spillway chunk that a core may hold
(R27), the walks of a rank within the areas of their bases. -/
def CollRec.formed (r : CollRec) (rank : Nat) (chunk : Bool) : Bool :=
  (!isLocal r.src || localOk r.src) && isLocal r.dst && localOk r.dst && isLocal r.gauge && localOk r.gauge &&
  !(chunk && areaOf r.gauge == 0 && decide (generalEnd ≤ offsetOf r.gauge) && decide (offsetOf r.gauge < accBase)) &&
  r.gauge.toNat % 16 == 0 && r.src.toNat % r.elem == 0 && r.dst.toNat % r.elem == 0 &&
  walkFits r.src (r.srcSpan rank) && walkFits r.dst (r.dstSpan rank)

/-- The digest carried by each transfer (R334). -/
def CollRec.digest (r : CollRec) : BitVec 32 :=
  Config.recordDigest (leBytes 24 r.bits ++ leBytes 128 (r.bits / 2 ^ 512))

/-! COLL (R334, R338). -/

/-- The rank of this module in its group (R324). -/
def State.rankOf (s : State) : Nat := s.fabric.members.findIdx (fun n => n == s.fabric.node)

/-- A line of 64 bytes of a global record as the context sees it; it waits for the context's earlier loads and atomics
of these bytes, and does not come from the memory of an evicted module (R83, R246, R250). -/
def State.collLine (s : State) (a : Word) : Chk Nat :=
  match s.globalAt (s.agentOf s.cur) .read a with
  | .error e => .error e
  | .ok p =>
    if s.poisoned p.loc 64 then trapA cMcheck a
    else if s.offGroup p.loc || s.olderLoad s.cur s.seq p.loc 64 then .error .wait
    else .ok (s.view s.cur s.seq p.loc 64)

/-- The record at an address, local or global; a local one waits for its bytes. -/
def State.collRecord (s : State) (a : Word) : Chk CollRec := do
  need (a.toNat % 64 == 0) (trapA cAlign a)
  if isLocal a then
    let l ← s.localAt s.cur (coreOf s.cur) a 256
    s.localReady (.near l) true a 256
    pure ⟨memRead s.mem l 256⟩
  else
    let ls ← [0, 1, 2, 3].mapM (fun i => s.collLine (a + BitVec.ofNat 64 (64 * i)))
    pure ⟨ls.foldr (fun v n => v + 2 ^ 512 * n) 0⟩

/-- The context's earlier accesses to n bytes have taken effect (R250). -/
def State.untouched (s : State) (loc n : Nat) : Bool := !s.olderLoad s.cur s.seq loc n && !s.olderStore s.cur s.seq loc n

/-- The join that `coll.j` names, read after the context's earlier accesses to it (R250, R338). -/
def State.collJoin (s : State) (r : CollRec) (h : Handle) : Chk CollJoin := do
  need (hKind h == kJoin && !isLocal (hBase h) && handleAligned h) (trapE 5#5 fCollForm)
  let ag := s.agentOf s.cur
  let lines ← s.joinLines ag (hBase h)
  await (lines.all (fun l => s.untouched l 64))
  let j := s.joinAt lines
  need (j.n == r.gsize && decide (1 ≤ j.q) && decide (j.q ≤ j.n) && decide (j.rule ≤ 2) && r.op == 0 && r.fmt == 0)
    (trapE 5#5 fCollForm)
  let pages ← s.spanPages ag .read j.wtab (4 * j.n)
  await ((List.range j.n).all (fun i => s.untouched (pageLoc pages (j.wtab + BitVec.ofNat 64 (4 * i))) 4))
  let w ← s.readRun ag j.wtab (4 * j.n)
  pure ⟨j.rule, j.q, (List.range j.n).map (fun i => BitVec.ofNat 32 (leNat ((w.drop (4 * i)).take 4))), j.sub, lines⟩

/-- The local bytes of a span, checked as an access of the context. -/
def State.collSpan (s : State) (o : Option (Word × Nat)) : Chk (List (Nat × Nat)) :=
  match o with
  | none => .ok []
  | some (a, n) => match s.localAt s.cur (coreOf s.cur) a n with
    | .ok l => .ok [(l, n)]
    | .error e => .error e

/-- Where a global source lies, chunk by chunk. -/
def State.collPages (s : State) (r : CollRec) (rank : Nat) : Chk (List (Nat × Nat)) :=
  pagesBy (s.byteAt (s.agentOf s.cur) .read) ((r.sends rank).flatMap (fun c => pageStarts (r.srcAt c) r.chunk)) []

/-- What COLL goes on with. -/
structure CollPlan where
  record : CollRec
  join : Option CollJoin
  pages : List (Nat × Nat)
  ranges : List (Nat × Nat)

/-- The checks of COLL, in order, and its waits (R334). Its release covers the context's writes to the buffers the record
names; the walker reads only what they have left (R251, R253, R255). -/
def State.collCheck (s : State) (a : BitVec 5) (b : Option (BitVec 5)) : Chk CollPlan := do
  let r ← s.collRecord (s.sr a)
  need (r.valid && r.formed s.rankOf (s.holdsChunk (coreOf s.cur))) (trapE 5#5 fCollForm)
  let n := s.fabric.members.length
  need (r.gsize == n && decide (1 < n)) (trapE 5#5 fCollGroup)
  let j ← match b with
    | some hb => (s.collJoin r (s.hr hb)).map some
    | none => .ok none
  let rank := s.rankOf
  let src ← if isLocal r.src then s.collSpan (r.srcSpan rank) else .ok []
  let pages ← if isLocal r.src then .ok [] else s.collPages r rank
  let dst ← s.collSpan (r.dstSpan rank)
  let _ ← s.localAt s.cur (coreOf s.cur) r.gauge 16
  await (decide ((s.collsOf s.cur).length < 4))
  s.canIssue 5 [⟨0, Opnd.none, src ++ dst, [], none, true⟩]
  pure ⟨r, j, pages, src ++ dst⟩

/-- The next identifier of a context (R333). -/
def nextIdent (n : BitVec 32) : BitVec 32 := if n + 1 = 0#32 then 1#32 else n + 1

/-- The identifiers of the last 16 collectives after one with identifier n (R336). -/
def lastIdents (n : BitVec 32) : List (BitVec 32) :=
  (List.range 16).map (fun i => if n.toNat ≤ i then n - BitVec.ofNat 32 (i + 1) else n - BitVec.ofNat 32 i)

/-! Folds (R331, R332). -/

def Coll.rec_ (o : Coll) : CollRec := ⟨o.record⟩
def Coll.turns (o : Coll) : List (Nat × Nat) := o.rec_.turns o.rank
/-- A turn that has landed or is missed for good. -/
def Coll.settled (o : Coll) (t : Nat × Nat) : Bool := o.folded.contains t || o.missed.contains t

/-- Change a collective by its number. -/
def State.modColl (s : State) (id : Nat) (f : Coll → Coll) : State :=
  { s with colls := s.colls.map (fun o => if o.id == id then f o else o) }

/-- The gauge of a collective. -/
def Coll.gaugeLoc (o : Coll) : Nat := spadLoc (coreOf o.ctx) o.rec_.gauge.toNat

/-- The collective of a core that a staged transfer belongs to: the oldest in flight that still awaits it. -/
def State.claimant (s : State) (k : Nat) (t : Transfer) : Option Coll :=
  s.colls.find? (fun o => !o.done && coreOf o.ctx == k && o.turns.contains (t.chunk, t.sender) &&
    !o.settled (t.chunk, t.sender) && t.node.all (fun n => o.members.getD t.sender n == n))

/-- A fault in flight: the walking ends, landed folds stay, staged transfers are dropped; it is recorded for the next
collective wait (R337). -/
def State.failColl (s : State) (o : Coll) (cause fcode : BitVec 8) : State :=
  let f : EngFault := ⟨5, cause, fcode, o.ident, BitVec.ofNat 64 o.gaugeLoc, none⟩
  let mine := fun (t : Transfer) => (s.claimant (coreOf o.ctx) t).any (fun p => p.id == o.id)
  let s := s.modCore (coreOf o.ctx) (fun k => { k with staging := k.staging.filter (fun t => !mine t) })
  let t := s.modColl o.id (fun o => { o with done := true, fault := fcode, silent := cause == cMemberSilent, ranges := [] })
  (t.modCtx o.ctx (fun x => { x with faults := x.faults ++ [f] })).countDone o.ctx 5

/-- The iterations still to send, the first to each other rank that has not been evicted. -/
def Coll.unsent (o : Coll) : List (Nat × Nat) :=
  let r := o.rec_
  ((r.sends o.rank).filter (fun c => decide (o.sent ≤ c))).foldl (fun l c => match r.peer o.rank c with
    | some p => if p = o.rank ∨ o.evicted.contains p ∨ l.any (fun q => q.2 == p) then l else l ++ [(c, p)]
    | none => l) []

/-- A transfer whose digest differs from the receiver's own faults the collective there and at every participant that receives
from it: those it still had to send to get an empty transfer with a digest that is not theirs (R334; log 67). -/
def State.mismatchColl (s : State) (o : Coll) : State :=
  o.unsent.foldl (fun (s : State) p => s.emit (.transfer (o.members.getD p.2 0) o.rank p.1 (~~~o.rec_.digest) []))
    (s.failColl o cEngineFault fCollMismatch)

/-- Staged transfers with another digest fault the collectives they belong to (R334). -/
def State.checkStaged (s : State) (k : Nat) : State :=
  (s.core k).staging.foldl (fun (s : State) t => match s.claimant k t with
    | some o => if t.digest = o.rec_.digest ∨ o.switchAt.isSome then s else s.mismatchColl o
    | none => s) s

/-! The fallback schedule (R339). -/

/-- The ranks a collective still needs: those it has to send to and those whose folds are missing. -/
def Coll.needs (o : Coll) : List Nat :=
  let r := o.rec_
  ((r.sends o.rank).filter (fun c => decide (o.sent ≤ c))).filterMap (r.peer o.rank) ++
  (o.turns.filter (fun t => !o.settled t)).map (·.2)

/-- A port of a record's schedule still reaches a node. -/
def State.reaches (s : State) (r : CollRec) (node : Nat) : Bool :=
  (List.range s.part.ports).any (fun p => (r.ports == 0 || r.ports.testBit p) && !s.fabric.downLinks.contains (p, node))

/-- Every rank of a list is reached. -/
def State.reachesAll (s : State) (o : Coll) (r : CollRec) (ranks : List Nat) : Bool :=
  ranks.all (fun i => i == o.rank || o.evicted.contains i || s.reaches r (o.members.getD i 0))

/-- The fallback record of a collective, as its context reads it. -/
def State.fallbackRecord (s : State) (o : Coll) : Option CollRec :=
  let a := o.rec_.fallback
  if a.toNat % 64 ≠ 0 then none
  else if isLocal a then
    match s.localAt o.ctx (coreOf o.ctx) a 256 with
    | .ok l => some ⟨memRead s.mem l 256⟩
    | .error _ => none
  else match s.readRun (s.agentOf o.ctx) a 256 with
    | .ok b => some ⟨leNat b⟩
    | .error _ => none

/-- A fallback record must have the same GSIZE, OP, FMT, DST span and GAUGE. -/
def State.fallbackOk (s : State) (o : Coll) (f : CollRec) : Bool :=
  let r := o.rec_
  f.valid && f.formed o.rank (s.holdsChunk (coreOf o.ctx)) && f.gsize == r.gsize && f.op == r.op && f.fmt == r.fmt && f.gauge == r.gauge &&
  f.dstSpan o.rank == r.dstSpan o.rank

/-- The collective under its fallback record: it walks that record's nest afresh, for the elements that still miss folds. -/
def Coll.fallen (o : Coll) (f : CollRec) : Coll :=
  { o with
    record := f.bits
    sent := 0
    before := some (o.record, o.folded)
    switchAt := none
    folded := []
    missed := []
    unacked := []
    srcs := (f.srcSpan o.rank).toList }

/-- The first chunk of which a turn, or the sending, is still to come. -/
def Coll.boundary (o : Coll) : Nat := ((o.turns.filter (fun t => !o.settled t)).map (·.1)).foldl min o.sent

/-- A collective meets the loss of a link: nothing changes where every needed peer is reached still; else it proposes
the switch to the fallback over the membership messages, or faults. -/
def State.reroute (s : State) (o : Coll) : State :=
  let r := o.rec_
  if s.reachesAll o r o.needs then s
  else if r.fallback = 0#64 ∨ o.before.isSome then s.failColl o cEngineFault fCollUnreach
  else match s.fallbackRecord o with
    | none => s.failColl o cEngineFault fCollForm
    | some f =>
      if !s.fallbackOk o f then s.failColl o cEngineFault fCollForm
      else if s.reachesAll o f (o.fallen f).needs then s.emit (.scheduleSwitch (coreOf o.ctx) r.digest o.boundary)
      else s.failColl o cEngineFault fCollUnreach

/-- The boundary agreed for the switch of a collective of a core: the oldest that has not switched of those whose record has
the digest that its participants share (R334, R339; log 67). -/
def State.agreeSwitch (s : State) (core : Nat) (digest : BitVec 32) (chunk : Nat) : State :=
  match s.colls.find? (fun o => !o.done && coreOf o.ctx == core && o.rec_.digest == digest && o.before.isNone &&
      o.switchAt.isNone) with
  | some o => s.modColl o.id (fun o => { o with switchAt := some chunk })
  | none => s

/-- Everything before the agreed boundary has been sent and folded. -/
def Coll.switchReady (o : Coll) : Bool :=
  o.switchAt.any (fun b => decide (min b o.rec_.total ≤ o.sent) && o.turns.all (fun t => o.settled t || decide (b ≤ t.1)))

/-- The switch at the agreed boundary, or the fault of a fallback that is missing or does not serve. -/
def State.switchOver (s : State) (o : Coll) : State :=
  if o.rec_.fallback = 0#64 then s.failColl o cEngineFault fCollUnreach
  else match s.fallbackRecord o with
  | none => s.failColl o cEngineFault fCollForm
  | some f =>
    if !s.fallbackOk o f then s.failColl o cEngineFault fCollForm
    else if s.reachesAll o f (o.fallen f).needs then s.modColl o.id (fun o => o.fallen f)
    else s.failColl o cEngineFault fCollUnreach

/-- A collective that issues where links are down already meets their loss at once (R339). -/
def State.lostLinks (s : State) (o : Coll) : State := if s.fabric.downLinks.isEmpty then s else s.reroute o

/-- COLL: the collective is in flight; transfers that came earlier stand in staging. -/
def State.startColl (s : State) (p : CollPlan) : State :=
  let (id, s) := (s.newInterval s.cur).fresh
  let n := nextIdent s.me.eng.collLast
  let o : Coll :=
    { id := id, ctx := s.cur, ident := n, record := p.record.bits, pages := p.pages, regs := s.me.eng.copy, join := p.join
      members := s.fabric.members, rank := s.rankOf, sent := 0, folded := [], missed := [], unacked := [], evicted := []
      before := none, switchAt := none, done := false, fault := 0, silent := false, ranges := p.ranges
      srcs := (p.record.srcSpan s.rankOf).toList, dests := (p.record.dstSpan s.rankOf).toList, born := s.tick }
  let keep := s.colls.filter (fun q => q.ctx != s.cur || !q.done || (lastIdents n).contains q.ident)
  (({ s with colls := keep ++ [o] }.modMe (fun x => { x with eng.collLast := n })).lostLinks o).checkStaged (coreOf s.cur)

def execColl (a : BitVec 5) (s : State) : Host.Outcome State Fault Refusal :=
  performOn 5#5 (s.collCheck a none) s.startColl s

def execCollJ (a : BitVec 5) (b : BitVec 5) (s : State) : Host.Outcome State Fault Refusal :=
  performOn 5#5 (s.collCheck a (some b)) s.startColl s

/-- Turns in ascending (chunk, sender). -/
def insertTurn (t : Nat × Nat) : List (Nat × Nat) → List (Nat × Nat)
  | [] => [t]
  | u :: r => if u.1 < t.1 ∨ (u.1 = t.1 ∧ u.2 ≤ t.2) then u :: insertTurn t r else t :: u :: r

def sortTurns (l : List (Nat × Nat)) : List (Nat × Nat) := l.foldl (fun r t => insertTurn t r) []

/-- One fold enters an order signature (R332). -/
def signStep (sig : Word) (t : Nat × Nat) : Word :=
  (sig ^^^ BitVec.ofNat 64 (t.2 * 2 ^ 32 ||| t.1)) * 0x00000100000001B3#64

/-- The order signature of the folds that landed; those of a fallback follow those before the switch (R332, R339). -/
def Coll.signature (o : Coll) : Word :=
  let early := (o.before.map (·.2)).getD []
  (sortTurns early ++ sortTurns o.folded).foldl signStep 0xCBF29CE484222325#64

/-- CSIG (R336). -/
def execCsig (c : BitVec 5) (a : BitVec 5) (s : State) : Host.Outcome State Fault Refusal :=
  let n : BitVec 32 := (s.sr a).setWidth 32
  performOn 5#5 (do
    let o ← match s.colls.find? (fun o => o.ctx == s.cur && o.ident == n && n != 0#32 &&
        (lastIdents s.me.eng.collLast).contains n) with
      | some o => .ok o
      | none => trapE 5#5 fCollId
    s.collectiveWait (fun f => f.coll == n)
    await o.done
    pure o) (fun o => s.pendLoad .scalar c (.value (o.signature.setWidth 256)) 0) s

/-- The fold of an arriving element x into d (R331). -/
def foldElem (op fmt d x : Nat) : Nat :=
  if op = 3 then x
  else match ffmtOf fmt with
    | some f =>
      let a := f.value d
      let b := f.value x
      (match op with
        | 0 => a.add b
        | 1 => a.maximum b
        | _ => a.minimum b).bits f .rne
    | none =>
      let a := intOf 32 true d
      let b := intOf 32 true x
      intBits 32 (match op with
        | 0 => a + b
        | 1 => max a b
        | _ => min a b)

/-- The product by a weight, in FP32 (R338). -/
def weighted (w : BitVec 32) (x : Nat) : Nat := ((fp32.value w.toNat).mul (fp32.value x)).bits fp32 .rne

/-- A destination byte still wants folds: after a switch, only what the first schedule left undone (R339). -/
def Coll.wants (o : Coll) (a : Word) : Bool :=
  match o.before with
  | none => true
  | some (b, f) =>
    let r : CollRec := ⟨b⟩
    (r.turns o.rank).any (fun t => !f.contains t && decide ((a - r.dstAt t.1).toNat < r.chunk))

/-- The weight of a rank. -/
def Coll.weight (o : Coll) (i : Nat) : BitVec 32 :=
  match o.join with
  | some j => j.weights.getD i 0
  | none => 0x3F800000

/-- The addresses of the elements that a turn folds. -/
def Coll.elems (o : Coll) (c : Nat) : List Word :=
  ((List.range (o.rec_.chunk / o.rec_.elem)).map (fun e => o.rec_.dstAt c + BitVec.ofNat 64 (e * o.rec_.elem))).filter o.wants

/-- A collective meets an uncorrectable error among some bytes, by address and location: it is recorded, and the collective
goes on with the bits it read (R387; the model's choice, log 26). -/
def State.collError (s : State) (o : Coll) (bs : List (Word × Nat)) : State :=
  if s.poison.isEmpty then s
  else match bs.find? (fun b => s.poisoned b.2 1) with
    | some (a, _) => s.logError 2 (s.physical o.ctx a) 6 (coreOf o.ctx) (o.ctx % 4) 0
    | none => s

/-- Fold values into elements of the destination. -/
def State.foldInto (s : State) (o : Coll) (vs : List (Word × Nat)) : State :=
  let r := o.rec_
  vs.foldl (fun (s : State) v =>
    let l := spadLoc (coreOf o.ctx) v.1.toNat
    let d := memRead s.mem l r.elem
    s.poke ((leBytes r.elem (foldElem r.op r.fmt d v.2)).zipIdx.map (fun b => (l + b.2, 0xFF#8, b.1)))) s

/-- Fold a transfer at its turn, count it, acknowledge it (R331, R335). -/
def State.foldTransfer (s : State) (o : Coll) (t : Transfer) : State :=
  let r := o.rec_
  let val := fun (a : Word) =>
    let x := leNat ((t.data.drop (a - r.dstAt t.chunk).toNat).take r.elem)
    if o.join.isSome then weighted (o.weight t.sender) x else x
  let s := s.collError o ((o.elems t.chunk).map (fun a => (a, spadLoc (coreOf o.ctx) a.toNat)))
  let s := s.foldInto o ((o.elems t.chunk).map (fun a => (a, val a)))
  let s := s.countGauge o.ctx (coreOf o.ctx) o.regs 5 r.gauge o.ident r.chunk r.chunk
  let s := s.modColl o.id (fun o => { o with folded := o.folded ++ [(t.chunk, t.sender)] })
  if t.sender = o.rank then s else s.emit (.acknowledge (o.members.getD t.sender 0) o.rank t.chunk)

/-- A turn of an evicted member is filled by the join's rule and counted (R338). -/
def State.fillTurn (s : State) (o : Coll) (t : Nat × Nat) : State :=
  let r := o.rec_
  let s := match o.join with
    | some j =>
      if j.rule = 2 then
        s.foldInto o ((o.elems t.1).map (fun a =>
          let b := j.sub + BitVec.ofInt 64 (t.2 * r.reach o.rank) + (a - r.dst)
          (a, weighted (o.weight t.2) ((s.joinWord o.ctx b).bits fp32 .rne))))
      else s
    | none => s
  (s.countGauge o.ctx (coreOf o.ctx) o.regs 5 r.gauge o.ident r.chunk r.chunk).modColl o.id (fun o =>
    { o with missed := o.missed ++ [t] })

/-- The transfer staged for a turn of a collective. -/
def State.stagedFor (s : State) (o : Coll) (t : Nat × Nat) : Option Transfer :=
  (s.core (coreOf o.ctx)).staging.find? (fun x =>
    x.chunk == t.1 && x.sender == t.2 && (o.switchAt.isNone || x.digest == o.rec_.digest) && (s.claimant (coreOf o.ctx) x).map (·.id) == some o.id)

/-- A chunk lies before the boundary of an agreed switch (R339). -/
def Coll.beforeSwitch (o : Coll) (c : Nat) : Bool := o.switchAt.all (fun b => decide (c < b))

/-- The next turn that can be taken: staged or missing for good, and every earlier turn of its elements settled (R331). -/
def State.nextTurn (s : State) (o : Coll) : Option (Nat × Nat) :=
  let r := o.rec_
  o.turns.find? (fun t =>
    !o.settled t && o.beforeSwitch t.1 && ((s.stagedFor o t).isSome || o.evicted.contains t.2) &&
    (o.turns.takeWhile (fun u => u != t)).all (fun u =>
      o.settled u || !overlaps (r.dstAt u.1).toNat r.chunk (r.dstAt t.1).toNat r.chunk))

/-- Two lists of address ranges share a byte. -/
def spansMeet (a b : List (Word × Nat)) : Bool :=
  a.any (fun x => b.any (fun y => overlaps x.1.toNat x.2 y.1.toNat y.2))

/-- An earlier collective of the core still has to write or read bytes that this one writes, or to write bytes that
it reads (R40, R250). -/
def State.collBehind (s : State) (o : Coll) : Bool :=
  s.colls.any (fun p => !p.done && coreOf p.ctx == coreOf o.ctx && decide (p.id < o.id) &&
    (spansMeet p.dests (o.dests ++ (if p.ctx = o.ctx then o.srcs else o.srcs.filter (fun r => isLocal r.1))) ||
      (decide (p.sent < p.rec_.total) && spansMeet p.srcs o.dests)))

/-- The writes that a collective's release covers are performed: the context's earlier accesses, and its earlier
operations that write the buffers the record names (R250, R251, R253). -/
def State.collFree (s : State) (o : Coll) : Bool :=
  !(s.loads.any (fun l => l.ctx == o.ctx && decide (l.id < o.id))) &&
  !(s.stores.any (fun w => w.known o.ctx && decide (w.id < o.id))) &&
  !(s.ops.any (fun p => p.ctx == o.ctx && decide (p.id < o.id) && spansMeet p.dests (o.srcs ++ o.dests))) &&
  !s.collBehind o

/-- COLLECTIVE_FOLD: one turn is taken (R331), once nothing of the core issued earlier stands before it; at the agreed
boundary the fallback takes over (R339). -/
def execCollectiveFold (id : Nat) (s : State) : Host.Outcome State Fault Refusal :=
  happen (match (s.colls.find? (fun o => o.id == id && !o.done)).filter s.collFree with
    | none => s
    | some o => match s.nextTurn o with
      | none => if o.switchReady then s.switchOver o else s
      | some t => match s.stagedFor o t with
        | some x =>
          let s := s.modCore (coreOf o.ctx) (fun k => { k with staging := k.staging.erase x })
          if x.digest = o.rec_.digest then s.foldTransfer o x else s.mismatchColl o
        | none => s.fillTurn o t)

/-! Sending, arrival, completion. -/

/-- Bytes in the receive staging of a core. -/
def Core.staged (k : Core) : Nat := (k.staging.map (fun t => t.data.length)).sum

/-- Receive staging holds 64 KiB, and 64 KiB more for each spillway chunk (R306, R331). -/
def Core.stagingBytes (k : Core) : Nat := 65536 * (1 + k.chunks.toList.getD 3 0)

/-- The bytes of a chunk at the source, by address and location. -/
def Coll.source (o : Coll) (c : Nat) : List (Word × Nat) :=
  let a := o.rec_.srcAt c
  (List.range o.rec_.chunk).map (fun i =>
    (a + BitVec.ofNat 64 i, if isLocal a then spadLoc (coreOf o.ctx) (a.toNat + i) else pageLoc o.pages (a + BitVec.ofNat 64 i)))

/-- What they hold. -/
def State.chunkBytes (s : State) (o : Coll) (c : Nat) : List Byte :=
  let r := o.rec_
  let a := r.srcAt c
  if isLocal a then memBytes s.mem (spadLoc (coreOf o.ctx) a.toNat) r.chunk
  else (List.range r.chunk).map (fun i => s.seenByte (coreOf o.ctx) (pageLoc o.pages (a + BitVec.ofNat 64 i)))

/-- The walker moves past an iteration; a source that has been read whole is released (R334). -/
def Coll.advance (o : Coll) : Coll :=
  let r := o.rec_
  let keep := match r.dstSpan o.rank with
    | some (a, n) => [(spadLoc (coreOf o.ctx) a.toNat, n)]
    | none => []
  { o with sent := o.sent + 1, ranges := if o.sent + 1 = r.total then keep else o.ranges }

/-- A transfer that arrives comes from a rank evicted from the collective that awaits it: its turns are handled by the
join's rule (R338, R342). -/
def State.fromEvicted (s : State) (k : Nat) (t : Transfer) : Bool := (s.claimant k t).any (fun o => o.evicted.contains t.sender)

/-- The turn of a transfer has come, so that it need not wait (R331). -/
def State.turnCome (s : State) (k : Nat) (t : Transfer) : Bool :=
  (s.claimant k t).any (fun o =>
    let next : State := s.modCore k (fun x => { x with staging := [t] })
    decide (next.nextTurn o = some (t.chunk, t.sender)))

/-- A transfer that comes to a core lands in its staging: it has room there, or its turn has come (R331). -/
def State.lands (s : State) (k : Nat) (t : Transfer) : Bool :=
  decide ((s.core k).staged + t.data.length ≤ (s.core k).stagingBytes) || s.turnCome k t

/-- The receive staging of a core is full: a transfer that has come to it has no room. -/
def State.stagingFull (s : State) (k : Nat) : Bool :=
  s.inputs.any (fun e => match e with
    | .collectiveTransferArrival node core sender chunk digest data =>
      core == k && !s.lands k ⟨sender, chunk, digest, data, node⟩
    | _ => false) ||
  s.colls.any (fun o => coreOf o.ctx == k && !o.done && decide (o.sent < o.rec_.total) &&
    o.rec_.peer o.rank o.sent == some o.rank && !s.lands k ⟨o.rank, o.sent, 0, List.replicate o.rec_.chunk 0, none⟩)

/-- COLLECTIVE_TRANSFER_SEND: the next iteration sends its chunk, if it has a peer; one to the participant itself
is delivered like any other (R330). -/
def execCollectiveTransferSend (id : Nat) (s : State) : Host.Outcome State Fault Refusal :=
  happen (match (s.colls.find? (fun o => o.id == id && !o.done)).filter s.collFree with
    | none => s
    | some o =>
      let r := o.rec_
      if r.total ≤ o.sent ∨ !o.beforeSwitch o.sent then s
      else
        let next := fun (s : State) => s.modColl id Coll.advance
        match r.peer o.rank o.sent with
        | none => next s
        | some p =>
          let k := coreOf o.ctx
          let next := fun (s : State) => (next s).collError o (o.source o.sent)
          let t : Transfer := ⟨o.rank, o.sent, r.digest, s.chunkBytes o o.sent, none⟩
          if p = o.rank then
            if s.lands k t then next (s.modCore k (fun x => { x with staging := x.staging ++ [t] })) else s
          else if o.evicted.contains p then next s
          else (next (s.emit (.transfer (o.members.getD p 0) t.sender t.chunk t.digest t.data))).modColl id (fun o =>
            { o with unacked := o.unacked ++ [(t.chunk, p)] }))

/-- A transfer comes to a core and waits in staging (R331, R334). One from a module outside the group is discarded (R342). One
that finds no room there waits in the network, and comes again after what else has come (log 67). -/
def State.transferComes (s : State) (core : Nat) (t : Transfer) : State :=
  if !s.part.fabric || decide (s.fabric.members.length ≤ 1) || decide (96 * s.part.cubes ≤ core) ||
      t.node.any (fun n => !s.fabric.members.contains n) || s.fromEvicted core t then s
  else if !s.lands core t then
    { s with inputs := s.inputs ++ [.collectiveTransferArrival t.node core t.sender t.chunk t.digest t.data] }
  else (s.modCore core (fun k => { k with staging := k.staging ++ [t] })).checkStaged core

/-- COLLECTIVE_TRANSFER_ARRIVAL at a core (R331, R334). -/
def execCollectiveTransferArrival (core sender chunk : Nat) (digest : BitVec 32) (data : List (BitVec 8)) (s : State) :
    Host.Outcome State Fault Refusal := happen (s.transferComes core ⟨sender, chunk, digest, data, none⟩)

/-- The rank that received a transfer has folded it: the oldest transfer of the core that awaits this is acknowledged
(R335). -/
def State.ackTransfer (s : State) (core receiver chunk : Nat) : State :=
  match s.colls.find? (fun o => !o.done && coreOf o.ctx == core && o.unacked.contains (chunk, receiver)) with
  | some o => s.modColl o.id (fun o => { o with unacked := o.unacked.erase (chunk, receiver) })
  | none => s

/-- The factor of an element that missed a fold (R338). -/
def Coll.factor (o : Coll) (a : Word) : Option Num :=
  let r := o.rec_
  let here := o.turns.filter (fun t => decide ((a - r.dstAt t.1).toNat < r.chunk))
  if here.any (fun t => o.missed.contains t) then
    let ws := fun (ts : List (Nat × Nat)) =>
      ((List.range r.gsize).filter (fun i => ts.any (fun t => t.2 == i))).map (fun i => fp32.value (o.weight i).toNat)
    some (rescale (ws here) (ws (here.filter (fun t => o.folded.contains t))))
  else none

/-- What a join adds to a completion: RESCALE, MAP and STATE (R338). -/
def State.finishJoin (s : State) (o : Coll) : State :=
  match o.join with
  | none => s
  | some j =>
    let r := o.rec_
    let as := (o.turns.flatMap (fun t => o.elems t.1)).eraseDups
    let s := if j.rule = 1 then
        as.foldl (fun (s : State) a => match o.factor a with
          | some f =>
            let l := spadLoc (coreOf o.ctx) a.toNat
            let v := ((fp32.value (memRead s.mem l 4)).mul f).bits fp32 .rne
            s.poke ((leBytes 4 v).zipIdx.map (fun b => (l + b.2, 0xFF#8, b.1)))
          | none => s) s
      else s
    let map := (List.range r.gsize).foldl (fun m i => if o.missed.any (fun t => t.2 == i) then m else m + 2 ^ i) 0
    (s.joinPut j.lines 80 32 map).joinPut j.lines 5 1 jReleased

/-- COLLECTIVE_COMPLETION: every fold has landed and every transfer sent has been acknowledged (R335). An acquire at
fabric scope (R258, R276). -/
def execCollectiveCompletion (id : Nat) (s : State) : Host.Outcome State Fault Refusal :=
  happen (match s.colls.find? (fun o => o.id == id && !o.done) with
    | none => s
    | some o =>
      if o.sent < o.rec_.total ∨ !o.turns.all o.settled ∨ !o.unacked.isEmpty then s
      else
        let s := (s.finishJoin o).modColl id (fun o => { o with done := true, ranges := [] })
        ((s.countDone o.ctx 5).newInterval o.ctx).setFloor o.ctx 5)

/-! The failure of a link (R339). -/

/-- LINK_FAILURE: a port no longer reaches a node (R339). -/
def execLinkFailure (port node : Nat) (s : State) : Host.Outcome State Fault Refusal :=
  happen (if !s.part.fabric then s
    else
      let t := { s with fabric := { s.fabric with downLinks := s.fabric.downLinks ++ [(port, node)] } }
      (t.colls.filter (fun o => !o.done)).foldl State.reroute t)

end Sys2Proof.Machine
end

