-- ==== Sys2Proof/Machine/Fetch.lean ====
section
/-! DEFINITION. Fetching bundles (spec 02 R41, R42; spec 08 R271, R273) and the walk over code in sequence
that links, loop bodies and exits need (spec 03 R98, R105 to R107). -/

namespace Sys2Proof.Machine

/-- A bundle as fetched: its words and its live-mask word (R42). -/
structure Bundle where
  words : List (BitVec 32)
  live : Option (BitVec 32)
  deriving DecidableEq, Repr

/-- The bytes a bundle takes (R42). -/
def Bundle.size (b : Bundle) : Nat := 4 * b.words.length + (if b.live.isSome then 4 else 0)

/-- A level of a context's loop sequencer (R103). -/
def Ctx.loop (x : Ctx) (l : Nat) : Loop := x.loops.toList.getD l Loop.reset

/-- The word that the buffer of an active level holds for an address; a handler runs under ordinary fetch (R105,
R109). -/
def Ctx.replayed (x : Ctx) (a : Word) : Option (BitVec 32) :=
  if x.inh then none
  else (List.range 6).findSome? (fun l => if (x.loop l).active then tblFind (x.loop l).code a.toNat else none)

/-- The word at a location as a core fetches it: the word in its fetch buffers or the word in memory, where the two
differ (R273). -/
def State.codeAt (s : State) (k loc : Nat) : BitVec 32 :=
  let new := BitVec.ofNat 32 (s.seenBytes k loc 4)
  match tblFind (s.core k).fetched loc with
  | none => new
  | some old => if old = new then new else if Config.oldWord s.tick loc then old else new

/-- Fetch one word of code for a context: from the buffer of a body being replayed (R96, R105), else from memory; the
trap names the word's address (R49 row 1, R271). -/
def State.fetchWord (s : State) (c : Nat) (a : Word) : Chk (BitVec 32) :=
  match (s.ctx c).replayed a with
  | some w => .ok w
  | none =>
    match s.globalAt (s.agentOf c) .fetch a with
    | .error e => .error e
    | .ok p => if s.poisoned p.loc 4 then trapA cMcheck a else .ok (s.codeAt (coreOf c) p.loc)

/-- Fetch words until one ends the bundle; `n` words may still come (R42). -/
def State.fetchWords (s : State) (c : Nat) : Nat → Word → Chk (List (BitVec 32))
  | 0, _ => trapC cBundleForm
  | n + 1, a =>
    match s.fetchWord c a with
    | .error e => .error e
    | .ok w =>
      if w.getLsbD 31 then .ok [w]
      else match s.fetchWords c n (a + 4#64) with
        | .error e => .error e
        | .ok r => .ok (w :: r)

/-- Fetch the bundle at an address (R42; R49 rows 1 and 2). -/
def State.fetchBundle (s : State) (c : Nat) (a : Word) : Chk Bundle :=
  match s.fetchWords c 6 a with
  | .error e => .error e
  | .ok ws =>
    if ws.any (fun w => w.getLsbD 30) then
      match s.fetchWord c (a + BitVec.ofNat 64 (4 * ws.length)) with
      | .error e => .error e
      | .ok m => .ok ⟨ws, some m⟩
    else .ok ⟨ws, none⟩

/-- The address after n bundles in sequence from an address. -/
def State.afterBundles (s : State) (c : Nat) : Nat → Word → Chk Word
  | 0, a => .ok a
  | n + 1, a =>
    match s.fetchBundle c a with
    | .error e => .error e
    | .ok b => s.afterBundles c n (a + BitVec.ofNat 64 b.size)

/-- How many bundles lie in sequence from `a` before the one at `pc`, among the first n. -/
def State.bundlesTo (s : State) (c : Nat) (pc : Word) : Nat → Word → Option Nat
  | 0, _ => none
  | n + 1, a =>
    if a = pc then some 0
    else match s.fetchBundle c a with
      | .error _ => none
      | .ok b => (s.bundlesTo c pc n (a + BitVec.ofNat 64 b.size)).map (· + 1)

/-- Change a level. -/
def Ctx.modLoop (x : Ctx) (l : Nat) (f : Loop → Loop) : Ctx :=
  { x with loops := Vector.ofFn (fun i : Fin 6 => if i.val = l then f (x.loops[i]) else x.loops[i]) }

/-- The body length of a level in bundles: LEN holds the length less 1 (R66, R103). -/
def Loop.bundles (l : Loop) : Nat := l.len.toNat + 1

/-- The place, from 0, of the bundle at an address within the body of an active level. -/
def State.placeIn (s : State) (c l : Nat) (pc : Word) : Option Nat :=
  let p := (s.ctx c).loop l
  if p.active then s.bundlesTo c pc p.bundles p.start else none

/-- A bundle is being replayed at a level: the level is active, the bundle lies in its body and no handler
runs (R55, R109). -/
def State.replays (s : State) (c l : Nat) (pc : Word) : Bool :=
  !(s.ctx c).inh && (s.placeIn c l pc).isSome

/-- The words of a bundle at an address, each with its own address. -/
def placed (pc : Word) (ws : List (BitVec 32)) : List (Word × BitVec 32) :=
  ws.zipIdx.map (fun w => (pc + BitVec.ofNat 64 (4 * w.2), w.1))

/-- The words that a buffer lacks enter it. -/
def bufferWords (t : Tbl (BitVec 32)) (ws : List (Word × BitVec 32)) : Tbl (BitVec 32) :=
  ws.foldl (fun t w => if (tblFind t w.1.toNat).isSome then t else tblSet t w.1.toNat w.2) t

/-- A bundle that has issued stays in the core's fetch buffers (R273) and, outside of a handler, in the buffer of every
active level in whose body it lies (R105). -/
def State.keepCode (s : State) (c : Nat) (pc : Word) (ws : List (BitVec 32)) : State :=
  let x := s.ctx c
  let code := placed pc ws
  let fresh := code.filterMap (fun w =>
    if (x.replayed w.1).isSome then none
    else match s.globalAt (s.agentOf c) .fetch w.1 with
      | .ok p => some (p.loc, w.2)
      | .error _ => none)
  let s := if fresh.isEmpty then s else s.modCore (coreOf c) (fun k =>
    { k with fetched := fresh.foldl (fun t w => tblSet t w.1 w.2) k.fetched })
  match (List.range 6).filter (fun l => s.replays c l pc) with
  | [] => s
  | ls => s.modCtx c (fun x => ls.foldl (fun (x : Ctx) l =>
      x.modLoop l (fun p => { p with code := bufferWords p.code code })) x)

/-- What the end of an iteration does to a level (R106). -/
def Ctx.edgeOf (x : Ctx) (l : Nat) : LoopEdge :=
  let p := x.loop l
  if p.index.toNat + 1 < p.init.toNat then .advance l else .finish l

/-- The ends of the iterations, among levels n - 1 down to 0, of the bodies of which the bundle at pc is the
last; a level that advances ends the list (R106). -/
def State.bodyEnds (s : State) (c : Nat) (pc : Word) : Nat → List LoopEdge
  | 0 => []
  | l + 1 =>
    match s.placeIn c l pc with
    | none => s.bodyEnds c pc l
    | some k =>
      if k + 1 = ((s.ctx c).loop l).bundles then
        match (s.ctx c).edgeOf l with
        | .advance i => [.advance i]
        | e => e :: s.bodyEnds c pc l
      else s.bodyEnds c pc l

/-- The ends of the enclosing bodies, among levels n - 1 down to 0, that end where a body exited ends (R107). -/
def State.exitEnds (s : State) (c : Nat) (stop : Word) : Nat → List LoopEdge
  | 0 => []
  | l + 1 =>
    let p := (s.ctx c).loop l
    if p.active then
      match s.afterBundles c p.bundles p.start with
      | .ok e =>
        if e = stop then
          match (s.ctx c).edgeOf l with
          | .advance i => [.advance i]
          | e => e :: s.exitEnds c stop l
        else s.exitEnds c stop l
      | .error _ => s.exitEnds c stop l
    else s.exitEnds c stop l

/-- Add a level's strides to its bound registers: at once, from the file as it stands, dropping a live
transient of the register (R35, R106). -/
def Ctx.stride (x : Ctx) (l : Nat) : Ctx :=
  let p := x.loop l
  let one := fun (x : Ctx) (r : BitVec 5) (d : Word) => if r = 0#5 then x else x.landS r (vget x.regs r + d)
  one (one x p.reg0 p.stride0) p.reg1 p.stride1

/-- What the sequencer does at the end of a bundle and its stall steps (R105 to R107). -/
def Ctx.edge (x : Ctx) (e : LoopEdge) : Ctx :=
  match e with
  | .advance l => { (x.stride l).modLoop l (fun p => { p with index := p.index + 1 }) with pc := (x.loop l).start }
  | .finish l => x.modLoop l (fun p => { p with active := false, code := [] })
  | .goto a => { x with pc := a }
  | .leave => x.leave

end Sys2Proof.Machine
end

