-- ==== Sys2Proof/Machine/Flags.lean ====
section
/-! DEFINITION. Conditions. The HK-2 has no flags register: compares write 0 or 1 to a scalar register
(spec 03 R97), votes reduce a predicate (R101), and the loop-flag prefix tests iterations (spec 02 R54). -/

namespace Sys2Proof.Machine

/-- The relations of the compares (R63, R97). -/
inductive Cond where
  | eq
  | ne
  | lt
  | ge
  | ltu
  | geu
  deriving DecidableEq, Repr

/-- A relation between two values: signed for lt and ge, unsigned for ltu and geu (R97). -/
def Cond.holds {n : Nat} (k : Cond) (a b : BitVec n) : Bool :=
  match k with
  | .eq => a == b
  | .ne => a != b
  | .lt => a.slt b
  | .ge => b.sle a
  | .ltu => a.ult b
  | .geu => b.ule a

/-- 1 where the condition holds, 0 otherwise (R97, R101). -/
def ofBool64 (b : Bool) : Word := if b then 1#64 else 0#64

/-- A compare in its plain or its .w form (R97). -/
def compare (k : Cond) (x : BitVec 1) (a b : Word) : Word :=
  ofBool64 (if x = 0#1 then k.holds a b else k.holds (a.setWidth 32) (b.setWidth 32))

/-- Any of the 1,024 bits of a predicate (R101). -/
def voteAny (p : Pred) : Word := ofBool64 (p != 0#1024)

/-- All of the 1,024 bits of a predicate (R101). -/
def voteAll (p : Pred) : Word := ofBool64 (p == BitVec.allOnes 1024)

/-- A loop flag passes: always, first, last, first or last (R54). -/
def flagPasses (f : Nat) (first last : Bool) : Bool :=
  match f with
  | 0 => true
  | 1 => first
  | 2 => last
  | _ => first || last

end Sys2Proof.Machine
end

