-- ==== Sys2Proof/Machine/Control.lean ====
section
/-! DEFINITION. Control words: transfers (spec 03 R98, R99), votes and engine status (R101, R102), the loop
sequencer (R103 to R108) and the plain system words (R112 to R115). -/

namespace Sys2Proof.Machine

/-! Transfers. -/

/-- A target that is not 4-byte aligned traps at the transfer's bundle (R64). -/
def aligned4 (t : Word) : Chk Unit := need (t.toNat % 4 == 0) (trapA cAlign t)

/-- Record a transfer with its delay count; one not taken keeps its delay bundles (R48, R98). -/
def State.transfer (s : State) (t : Word) (k : BitVec 2) (taken : Bool) : State :=
  s.modMe (fun x => { x with xfer := some ⟨t, k.toNat, taken, none⟩ })

/-- The link: the address after the bundle and its k delay bundles (R98). Where those cannot be fetched now their
length is not known yet: the register takes a free value, and, unless something writes it meanwhile, the link as soon
as the last of them has issued (log 4). -/
def State.link (s : State) (k : BitVec 2) : Option Word :=
  match s.afterBundles s.cur (k.toNat + 1) s.me.pc with
  | .ok a => some a
  | .error _ => none

/-- The transfer of a BRL and its link register. -/
def State.linked (s : State) (d : BitVec 5) (t : Word) (k : BitVec 2) : State :=
  match s.link k with
  | some a => (s.transfer t k true).put d a 1
  | none =>
    let later := s.me.shadow.any (fun w => w.file == .scalar && w.reg == d)
    (s.modMe (fun x => { x with xfer := some ⟨t, k.toNat, true, if later then none else some d⟩ })).put d (s.draw 0) 1

def execBr (a : BitVec 5) (b : BitVec 5) (k : BitVec 2) (s : State) : Host.Outcome State Fault Refusal :=
  perform (aligned4 (s.sr a)) (fun _ => s.transfer (s.sr a) k (s.sr b != 0#64)) s
def execBrZ (a : BitVec 5) (b : BitVec 5) (k : BitVec 2) (s : State) : Host.Outcome State Fault Refusal :=
  perform (aligned4 (s.sr a)) (fun _ => s.transfer (s.sr a) k (s.sr b == 0#64)) s
def execBrl (d : BitVec 5) (a : BitVec 5) (k : BitVec 2) (s : State) : Host.Outcome State Fault Refusal :=
  perform (aligned4 (s.sr a)) (fun _ => s.linked d (s.sr a) k) s
def execJr (a : BitVec 5) (k : BitVec 2) (s : State) : Host.Outcome State Fault Refusal :=
  perform (aligned4 (s.sr a)) (fun _ => s.transfer (s.sr a) k true) s

/-- One read of JTAB: 8 bytes with the context's read permission, seen as the context sees them; an
uncorrectable error is precise here (R99). -/
def State.tableRead (s : State) (a : Word) : Chk Word :=
  match s.scalarAt .read false a 8 with
  | .error e => .error e
  | .ok t =>
    if s.offGroup t.loc then .error .wait
    else if s.olderLoad s.cur s.seq t.loc 8 then .error .wait
    else match s.localReady t true a 8 with
      | .error e => .error e
      | .ok _ =>
        if s.poisoned t.loc 8 then trapA cMcheck a
        else .ok (BitVec.ofNat 64 (s.view s.cur s.seq t.loc 8))

/-- The word of the table that JTAB takes for index b (R99). -/
def tableEntry (a b l : Word) : Word := if b.toNat < l.toNat then a + 16#64 + 8#64 * b else a + 8#64

/-- The target JTAB takes from the table at a for index b, and the words it read (R99). -/
def State.tableTarget (s : State) (a b : Word) : Chk (Word × List Word) := do
  let l ← s.tableRead a
  let t ← s.tableRead (tableEntry a b l)
  aligned4 t
  pure (t, [a, tableEntry a b l])

/-- A read that goes on tells the race detector, and observes the stores it saw (R251, R277). -/
def State.tableNoted (s : State) (a : Word) : State :=
  if isLocal a then s
  else match s.globalAt (s.agentOf s.cur) .read a with
    | .ok p => (s.raceNote s.cur p a false false).observe s.cur p.loc 8
    | .error _ => s

def execJtab (a : BitVec 5) (b : BitVec 5) (k : BitVec 2) (s : State) : Host.Outcome State Fault Refusal :=
  perform (s.tableTarget (s.sr a) (s.sr b)) (fun t => (t.2.foldl State.tableNoted s).transfer t.1 k true) s

/-! Votes and engine status. -/

/-- The predicate a vector word writes (R149, R157, R158). -/
def predWritten (i : Instr) : Option (BitVec 5) :=
  match i with
  | .vcmpEq p _ _ _ _ | .vcmpNe p _ _ _ _ | .vcmpLt p _ _ _ _ | .vcmpLe p _ _ _ _ | .vcmpGt p _ _ _ _
  | .vcmpGe p _ _ _ _ | .vcmpUo p _ _ _ _ | .pand p _ _ _ | .por p _ _ _ | .pxor p _ _ _ | .pnot p _ _
  | .pset p _ | .pclr p _ => some p
  | _ => none

/-- No earlier vector operation of the current context has still to write a predicate (R101). -/
def State.predReady (s : State) (p : BitVec 5) : Chk Unit :=
  await (!(s.ops.any (fun o => o.ctx == s.cur && o.engine == 1 && predWritten o.instr == some p)))

/-- A predicate of a context. -/
def Ctx.pred (x : Ctx) (p : Nat) : Pred := x.preds.toList.getD p 0

def execVany (d : BitVec 5) (p : BitVec 5) (s : State) : Host.Outcome State Fault Refusal :=
  perform (s.predReady p) (fun _ => s.put d (voteAny (s.me.pred p.toNat)) 2) s
def execVall (d : BitVec 5) (p : BitVec 5) (s : State) : Host.Outcome State Fault Refusal :=
  perform (s.predReady p) (fun _ => s.put d (voteAll (s.me.pred p.toNat)) 2) s

/-- Operations of a context in flight on an engine (R102). The iterations that a schedule replays are none: no word
issued them and DONECNT does not count them (log 30). -/
def State.inFlight (s : State) (c n : Nat) : Nat :=
  (s.ops.filter (fun o => o.ctx == c && o.engine == n && o.entry.isNone && !o.silent)).length +
  (if n = 5 then (s.colls.filter (fun o => o.ctx == c && !o.done)).length else 0)

/-- The engine status word (R102). -/
def State.engineStatus (s : State) (c n : Nat) : Word :=
  let x := s.ctx c
  let infl := min (s.inFlight c n) 65535
  let fault := x.faults.find? (fun f => f.engine == n)
  let fc := (fault.map (fun f => f.fcode.toNat)).getD 0
  let done := x.doneCnt.toList.getD n 0 % 2 ^ 32
  BitVec.ofNat 64 (done * 2 ^ 32 + infl * 2 ^ 16 + fc * 2 ^ 8 + (if fault.isSome then 4 else 0) +
    (if infl == 0 && fault.isNone then 2 else 0) + (if infl == 0 then 0 else 1))

def execEstat (d : BitVec 5) (n : BitVec 5) (s : State) : Host.Outcome State Fault Refusal :=
  always (fun s => s.put d (s.engineStatus s.cur n.toNat) 2) s

/-! The loop sequencer. -/

def execLset (l : BitVec 3) (a : BitVec 5) (s : State) : Host.Outcome State Fault Refusal :=
  perform (need (!(s.me.loop l.toNat).active) (trapC cBundleForm)) (fun _ =>
    s.modMe (fun x => x.modLoop l.toNat (fun p => { p with init := (s.sr a).setWidth 32 }))) s

def execLstr (l : BitVec 3) (j : BitVec 1) (r : BitVec 5) (t : BitVec 5) (s : State) :
    Host.Outcome State Fault Refusal :=
  perform (need (!(s.me.loop l.toNat).active) (trapC cBundleForm)) (fun _ =>
    s.modMe (fun x => x.modLoop l.toNat (fun p =>
      if j = 0#1 then { p with reg0 := r, stride0 := s.sr t } else { p with reg1 := r, stride1 := s.sr t }))) s

/-- A new body of n bundles after the current one ends after the body of an active level k (R105): by its
place in that body, or by address where it starts outside of it. -/
def State.outruns (s : State) (n k : Nat) : Bool :=
  let p := s.me.loop k
  p.active &&
  match s.placeIn s.cur k s.me.pc with
  | some i => decide (p.bundles ≤ i + n)
  | none =>
    match s.afterBundles s.cur (n + 1) s.me.pc, s.afterBundles s.cur p.bundles p.start with
    | .ok a, .ok e => decide (e.toNat < a.toNat)
    | _, _ => false

/-- LBODY. A body that INIT = 0 skips is walked to its end; a fault of that walk is taken at the LBODY. Where that body
ends with the body of an enclosing active level, only the skip is taken: that level's iteration end is not
processed (the model's choice, log 66). -/
def execLbody (l : BitVec 3) (n : BitVec 8) (s : State) : Host.Outcome State Fault Refusal :=
  let k := l.toNat
  let len := n.toNat + 1
  perform (do
    need (!((List.range 6).any (fun i => decide (k ≤ i) && (s.me.loop i).active))) (trapC cBundleForm)
    need (!((List.range k).any (s.outruns len))) (trapC cBundleForm)
    let start ← s.afterBundles s.cur 1 s.me.pc
    let skip ← if (s.me.loop k).init = 0#32 then s.afterBundles s.cur len start else .ok start
    pure (start, skip)) (fun (start, skip) =>
      if (s.me.loop k).init = 0#32 then s.modMe (fun x => { x with edges := [.goto skip] })
      else s.modMe (fun x => x.modLoop k (fun p => { p with active := true, index := 0, start := start, len := n, code := [] }))) s

def execLidx (l : BitVec 3) (d : BitVec 5) (s : State) : Host.Outcome State Fault Refusal :=
  always (fun s => s.put d ((s.me.loop l.toNat).index.setWidth 64) 1) s

/-- The levels from l up that are active. -/
def Ctx.activeFrom (x : Ctx) (l : Nat) : List Nat :=
  (List.range 6).filter (fun i => decide (l ≤ i) && (x.loop i).active)

/-- LEXIT: its effect comes at the end of the bundle and its stall steps (R107). A handler's LEXIT ends no
enclosing body (R109). A fault met in walking the level's body to its end is taken at the LEXIT (the model's choice, log
66). -/
def execLexit (l : BitVec 3) (s : State) : Host.Outcome State Fault Refusal :=
  let p := s.me.loop l.toNat
  perform (if p.active then s.afterBundles s.cur p.bundles p.start else .ok 0) (fun stop =>
    if p.active then
      s.modMe (fun x => { x with edges :=
        (x.activeFrom l.toNat).map LoopEdge.finish ++ [.goto stop] ++
        (if x.inh then [] else s.exitEnds s.cur stop l.toNat) })
    else s) s

/-- LFL has no effect of its own: it switches off words of its bundle before they are performed (R54, R55). -/
def execLfl (_l : BitVec 3) (_f : BitVec 10) (s : State) : Host.Outcome State Fault Refusal :=
  always (fun s => s) s

/-! System words (R112 to R115). -/

def execNop (s : State) : Host.Outcome State Fault Refusal := always (fun s => s) s

/-- STALL: n further stall steps (R43). -/
def execStall (n : BitVec 12) (s : State) : Host.Outcome State Fault Refusal :=
  always (fun s => s.modMe (fun x => { x with owed := x.owed + n.toNat })) s

/-- TRAP: SYSCALL, taken after the bundle and its stall steps (R113). -/
def execTrap (n : BitVec 12) (s : State) : Host.Outcome State Fault Refusal :=
  always (fun s => s.modMe (fun x => { x with after := some { cause := cSyscall, info := n.setWidth 64 } })) s

/-- BRK: BREAK, taken after the bundle and its stall steps (R113). With tag 0 it is the end of the task, and so a
collective wait (R337). -/
def execBrk (n : BitVec 12) (s : State) : Host.Outcome State Fault Refusal :=
  perform (if n = 0#12 then do
      s.collectiveWait (fun _ => true)
      await (s.colls.all (fun o => o.ctx != s.cur || o.done))
    else .ok ()) (fun _ =>
      s.modMe (fun x => { x with after := some { cause := cBreak, info := n.setWidth 64 } })) s

/-- RFT: PRIV in user mode and outside a handler (R67, R292). -/
def execRft (s : State) : Host.Outcome State Fault Refusal :=
  perform (do s.privileged; need s.me.inh (trapC cPriv)) (fun _ => s.modMe Ctx.leave) s

/-- YIELD: the slot goes at the end of the bundle (R114). -/
def execYield (s : State) : Host.Outcome State Fault Refusal :=
  always (fun s => s.modMe (fun x => { x with yielded := true })) s

/-- IDLE: the context sleeps (R112, R297). -/
def execIdle (s : State) : Host.Outcome State Fault Refusal :=
  perform s.privileged (fun _ => s.modMe (fun x => { x with asleep := true })) s

/-- An access translated in an address space and not yet performed touches addresses that a test selects (R115). -/
def State.translated (s : State) (asid : Nat) (hit : Word → Bool) : Bool :=
  let mine := fun (c : Nat) => s.asidOf c == asid
  s.loads.any (fun l => mine l.ctx && hit l.addr) ||
  s.stores.any (fun w => mine w.ctx && hit w.addr) ||
  s.ops.any (fun o => mine o.ctx && o.args.any (fun p =>
    p.2.pages.any (fun g => hit (BitVec.ofNat 64 (g.1 * 2 ^ 18))) ||
    (hKind p.2.h == kRing && !isLocal (hBase p.2.h) && hit (hBase p.2.h)))) ||
  s.colls.any (fun o => mine o.ctx && !o.done)

/-- The agent as which the hardware works for the task of a context, running or saved. -/
def State.imageAgent (s : State) (x : Ctx) : Agent :=
  let super := (if x.inh then x.trp.pmode else x.mode) == .supervisor
  match x.task.bind (fun t => s.launches.find? (fun l => l.id == t.launch)) with
  | some l => ⟨l.asid, super, l.version, l.polder⟩
  | none => ⟨0, super, 0, 0⟩

/-- The join unit translates the record of a context's open join afresh; where the record is not mapped any more the next use
translates it, and traps. -/
def State.relined (s : State) (x : Ctx) : Ctx :=
  match x.join with
  | none => x
  | some j =>
    if j.shut.isSome then x
    else { x with join := some { j with lines := match s.joinLines (s.imageAgent x) j.record with
      | .ok l => l
      | .error _ => [] } }

/-- The translations that the join units hold are dropped (R115). -/
def State.dropLines (s : State) : State :=
  { s with
    ctxs := s.ctxs.map (fun p : Nat × Ctx => (p.1, s.relined p.2))
    saved := s.saved.map (fun g => { g with ctxs := g.ctxs.map (fun x => { x with image := s.relined x.image }) }) }

/-- TLBI. The model holds no translation entries beyond those of open joins, which it drops, and of accesses under way;
the bundle waits until these are performed (R115). A page is as large as its present leaf, or, unmapped, as the largest leaf. -/
def execTlbi (x : BitVec 5) (k : BitVec 2) (s : State) : Host.Outcome State Fault Refusal :=
  let a := s.sr x
  perform (do
    s.privileged
    need (k != 1#2 || decide (a.toNat < 2 ^ 12)) (trapC cIllegalOp)
    match k.toNat with
    | 0 =>
      let sh := match s.walk (s.asidOf s.cur) a with | some l => l.shift | none => 32
      await (!(s.translated (s.asidOf s.cur) (fun v => v.toNat / 2 ^ sh == a.toNat / 2 ^ sh)))
    | 1 => await (!(s.translated a.toNat (fun _ => true)))
    | _ => await (s.loads.isEmpty && s.stores.isEmpty && s.ops.isEmpty && s.colls.all (·.done))) (fun _ => s.dropLines) s

end Sys2Proof.Machine
end

