-- ==== Sys2Proof/Machine/Settle.lean ====
section
/-! DEFINITION. Steps (spec 01 R30, R31) and the end of a bundle: pending transfers, loop edges, the traps
of TRAP and BRK, safe points (spec 02 R48, R50; spec 03 R100, R106, R113; spec 09 R280). -/

namespace Sys2Proof.Machine

/-- A step of a context counts into USED of its polder and of each ancestor whose budgets hold (R280). -/
def State.countStep (s : State) (c : Nat) : State :=
  match s.launchOf c with
  | none => s
  | some l =>
    (l.polder :: (s.budgets l.polder).filter (fun p => p != l.polder)).foldl (fun (s : State) p =>
      let a := Config.polderBase + 128 * p + 52
      { s with mem := memWrite s.mem a 4 (memRead s.mem a 4 + 1) }) s

/-- One step of a context: its pending writes, its exposed loads and its budgets count (R30, R237, R280). -/
def State.stepOver (s : State) (c : Nat) : State := ((s.modCtx c Ctx.tick).countWld c).countStep c

/-- The target of a taken transfer with no delay bundle left (R48). -/
def Ctx.jump (x : Ctx) : Option Word :=
  match x.xfer with
  | some ⟨t, 0, true, _⟩ => some t
  | _ => none

/-- The end of a bundle and its stall steps: a transfer takes effect, and idles the levels of the code that owns
them (R48, R100); else the sequencer acts (R106, R107) or a handler returns (R292). A TRAP or BRK keeps a
transfer pending (R113). -/
def Ctx.finishBundle (x : Ctx) : Ctx :=
  match x.jump with
  | some t =>
    if x.after.isSome then { x with edges := [] }
    else
      let y := { x with pc := t, xfer := none, edges := [] }
      if x.inh then y else y.idleLoops
  | none => x.edges.foldl Ctx.edge { x with xfer := x.xfer.filter (fun t => t.left != 0), edges := [] }

/-- Once no stall step is owed, the bundle ends: then the trap of a TRAP or BRK is taken (R113), unless the task ends
at this boundary (R296, R304), or a context asked to stop stops at its safe point (R288). -/
def State.settle (s : State) (c : Nat) : State :=
  let x := s.ctx c
  if x.owed != 0 then s
  else
    let y := x.finishBundle
    if y.owed != 0 then s.setCtx c y
    else match y.after with
      | some t =>
        let s := s.setCtx c { y with after := none }
        if y.ending = .none then s.takeTrap c t else s
      | none => s.setCtx c y.stopIfSafe

/-- LOOP_ITERATION_END: what is left of the end of a bundle happens (R106). -/
def execLoopIterationEnd (c : Nat) (s : State) : Host.Outcome State Fault Refusal :=
  happen (if (s.ctx c).edges.isEmpty then s else s.settle c)

/-- SHADOW_QUEUE_LANDING (R32). -/
def execShadowQueueLanding (c : Nat) (s : State) : Host.Outcome State Fault Refusal :=
  happen (s.modCtx c Ctx.landDue)

/-- TRANSIENT_EXPIRY (R35). -/
def execTransientExpiry (c : Nat) (s : State) : Host.Outcome State Fault Refusal :=
  happen (s.modCtx c Ctx.expire)

end Sys2Proof.Machine
end

