-- ==== Sys2Proof/Machine/Preempt.lean ====
section
/-! DEFINITION. Pre-emption: the forced stop, the save and the resume of a group (spec 09 R287, R288; spec 02
R50, R51; spec 06 R203; spec 07 R230, R235). -/

namespace Sys2Proof.Machine

/-- A context of a standard launch is to be forced to stop: D has passed since the request (R288). -/
def State.forceDue (s : State) (c : Nat) : Bool :=
  match (s.ctx c).preempt with
  | .req t => s.passed t && (s.ctx c).ending == .none && ((s.launchOf c).map (·.pclass)) == some 0
  | _ => false

/-- PREEMPTION_DEADLINE: the context is forced to stop at its next bundle boundary (R288). -/
def execPreemptionDeadline (c : Nat) (s : State) : Host.Outcome State Fault Refusal :=
  happen (match (s.ctx c).preempt with
    | .req t =>
      if s.forceDue c then s.modCtx c (fun x => { x with preempt := .stopped t true (BitVec.allOnes 32) }) else s
    | _ => s)

/-! The saved set (R50, R51). -/

/-- Registers not saved hold free values after resume (R50; log 6). -/
def State.maskRegs (s : State) (m : BitVec 32) (x : Ctx) : Ctx :=
  { x with
    regs := Vector.ofFn (fun i : Fin 32 =>
      if i.val = 0 || m.getLsbD (8 + i.val / 2) then x.regs[i] else s.draw (64 + i.val))
    hregs := Vector.ofFn (fun i : Fin 32 =>
      if m.getLsbD (24 + i.val / 4) then x.hregs[i] else cleanHandle (Config.freeHandle (s.tick * 32 + i.val)))
    preds := Vector.ofFn (fun i : Fin 8 =>
      if m.getLsbD 2 then x.preds[i] else Config.freePred (s.tick * 8 + i.val)) }

/-- The image of a context under a live mask: an unsaved loop sequencer resumes idle, the vector configuration
holds some legal value. -/
def State.imageOf (s : State) (m : BitVec 32) (x : Ctx) : Ctx :=
  let y := s.maskRegs m x
  let y := if m.getLsbD 3 then y else y.idleLoops
  let y := if m.getLsbD 0 then y else { y with eng.vcfg := noThree (s.draw 96 &&& 0x37#64) 4 }
  { y with preempt := .none, blocked := false, waitFrom := none, atBar := false, forecast := none }

/-- Unsaved stream bindings end at the save (R50, R205). -/
def State.endUnsaved (s : State) (c : Nat) (m : BitVec 32) : State :=
  (List.range 8).foldl (fun (s : State) n => if m.getLsbD (4 + n / 2) then s else s.endBinding c n true) s

/-- The listed bytes of a run of locations. -/
def State.cells (s : State) (a n : Nat) : List (Nat × Byte) :=
  s.mem.filter (fun p => decide (a ≤ p.1) && decide (p.1 < a + n))

/-- Where the allotments of a context's task lie: the base slice from SPORG, and the accumulator tiles (R29, R186). -/
def State.allotments (s : State) (c : Nat) : (Nat × Nat) × (Nat × Nat) :=
  let k := coreOf c
  let (org, n) := s.spadOf c
  let (a0, an) := s.accOf c
  ((spadLoc k org, n), (spadLoc k (accBase + 4096 * a0), 4096 * an))

/-- Everything the discharge waits for has completed: operations other than copies; copies until D passes;
collectives always; loads and stores (R288, R335). -/
def State.discharged (s : State) (c t : Nat) : Bool :=
  let copies := s.ops.filter (fun o => o.ctx == c && o.engine == 4 && o.entry.isNone)
  !(s.ops.any (fun o => o.ctx == c && o.engine != 4 && !o.exposed)) &&
  !(s.colls.any (fun o => o.ctx == c && !o.done)) &&
  !(s.loads.any (fun l => l.ctx == c)) && !(s.stores.any (fun w => w.ctx == c)) &&
  (copies.isEmpty || s.passed t)

/-- Iterations in flight are cancelled at a save (R230). -/
def State.stopIterations (s : State) (c : Nat) : State :=
  (List.range 64).foldl (fun (s : State) k =>
    match ((s.iterations c k).map (·.iter)) with
    | [] => s
    | i :: is => s.cancelIterations c k (is.foldl min i)) s

/-- Copies in flight are cancelled: some bytes may have landed; they are kept to be issued again (R230). -/
def State.holdOps (s : State) (c : Nat) : List Op × State :=
  let mine := s.ops.filter (fun o => o.ctx == c)
  let t := (mine.filter (fun o => o.engine == 4)).foldl (fun (s : State) o => (s.landSome o o.recvs).2) s
  (mine.map (fun o => if o.exposed || o.round != 0 then o else { o with data := none }), { t with ops := t.ops.filter (fun o => o.ctx != c) })

/-- Add a saved context to its group. -/
def addSaved (l : List SavedGroup) (launch group : Nat) (x : SavedCtx) : List SavedGroup :=
  if l.any (fun g => g.launch == launch && g.group == group) then
    l.map (fun g => if g.launch == launch && g.group == group then { g with ctxs := g.ctxs ++ [x] } else g)
  else l ++ [⟨launch, group, [x], []⟩]

/-- SAVE of a context that has stopped and is discharged (R288). -/
def execSave (g : Nat) (s : State) : Host.Outcome State Fault Refusal :=
  let c := g
  happen (match (s.ctx c).preempt, (s.ctx c).task with
    | .stopped t _ m, some task =>
      if (s.ctx c).ending != .none || !s.discharged c t then s
      else
        let s := (s.stopIterations c).endUnsaved c m
        let (ops, s) := s.holdOps c
        let x := s.ctx c
        let (spad, acc) := s.allotments c
        let (rows, s) := s.closeRows c
        let k := coreOf c
        let chain := [0, 1, 2].flatMap (fun q => (((s.core k).queue q).filter (fun e => e.ctx == c)).map (fun e => (q, e)))
        let saved : SavedCtx :=
          { place := k
            image := s.imageOf m x
            spad := s.cells spad.1 spad.2 ++ (if m.getLsbD 1 then s.cells acc.1 acc.2
              else (List.range acc.2).map (fun i => (acc.1 + i, Config.freeByte s.tick (acc.1 + i))))
            rows := rows
            chain := chain
            copies := ops
            colls := s.colls.filter (fun o => o.ctx == c) }
        let s := { s with colls := s.colls.filter (fun o => o.ctx != c) }
        let s := [0, 1, 2].foldl (fun (s : State) q => s.modQueue k q (fun l => l.filter (fun e => e.ctx != c))) s
        let s := (s.setCtx c Ctx.reset).modCore k (fun y => if y.holder = some c then { y with holder := none } else y)
        { s with saved := addSaved s.saved task.launch task.group saved }.killSaved
    | _, _ => s)

/-! Resume (R287, R288). -/

/-- A group may return when no task of it still runs and every saved one fits on the core it left, whatever the core map
has become (R391). -/
def State.mayReturn' (s : State) (g : SavedGroup) (l : Launch) : Bool :=
  !(s.ctxs.any (fun p => match p.2.task with
    | some t => t.launch == g.launch && t.group == g.group
    | none => false)) &&
  (g.ctxs.foldl (fun (t : Bool × List Nat) x =>
    (t.1 && s.untested x.place l.prio false && s.fits l x.place t.2 [], t.2 ++ [x.place])) (true, [])).1

/-- Reopen the rows that a context still waits for, as far as their banks are closed (R235). -/
def State.reopenRows (s : State) (c : Nat) : State :=
  (s.ctx c).rowsOwed.foldl (fun (s : State) r =>
    if (s.bank r.1).open_.isNone then
      (s.modBank r.1 (fun b => { b with open_ := some (r.2, c) })).modCtx c (fun x =>
        let owed := x.rowsOwed.filter (fun p => p != r)
        { x with rowsOwed := owed, waitFrom := if owed.isEmpty then none else x.waitFrom
                 readyAt := if owed.isEmpty then s.cycles else x.readyAt })
    else s) s

/-- The pages of an operand, translated afresh for a context (R115, R230). -/
def State.repage (s : State) (c : Nat) (acc : Acc) (o : Opnd) : Chk Opnd := do
  let pages ← o.pages.mapM (fun p => do
    let a := BitVec.ofNat 64 (max o.base.toNat (p.1 * 2 ^ 18))
    let l ← s.byteAt ⟨s.asidOf c, true, s.verOf c, s.polderOf c⟩ acc a
    pure (p.1, l - a.toNat % 2 ^ 18))
  pure { o with pages := pages }

/-- Where the control word of the ring that a copy claims from lies, translated afresh (R115, R223). -/
def State.reslot (s : State) (c : Nat) (o : Op) : Chk (Option (Nat × BitVec 32)) :=
  match o.slot with
  | none => .ok none
  | some (l, q) =>
    let b := hBase (o.arg 0).h
    if isLocal b then .ok (some (l, q))
    else do
      let l ← s.byteAt ⟨s.asidOf c, true, s.verOf c, s.polderOf c⟩ .write b
      pure (some (l, q))

/-- The same of every operand of an operation; copies write the operands that dests' names. -/
def State.retranslated (s : State) (c : Nat) (o : Op) : Chk Op := do
  let args ← o.args.mapM (fun p => do
    let a ← s.repage c (if p.1 = 0 ∨ 16 ≤ p.1 then .write else .read) p.2
    pure (p.1, a))
  let slot ← s.reslot c o
  pure { o with args := args, slot := slot }

/-- The operations a resumed context issues again, under fresh numbers (R230). A copy whose translation now faults ends
with that fault and its record, its slot unfilled (R218; the model's choice, log 29). -/
def State.reissue (s : State) (c : Nat) (ops : List Op) : State :=
  ops.foldl (fun (s : State) o =>
    let (n, s) := s.fresh
    let o := { o with id := n, ctx := c }
    if o.engine ≠ 4 then { s with ops := s.ops ++ [o] }
    else match s.retranslated c o with
      | .ok o => { s with ops := s.ops ++ [o] }
      | .error (.trap t) =>
        (((s.loseSlot o).record c o.regs.copy stFault 0 o.copyId o.landed t.cause 0 t.addr).countDone c 4).engineFault
          c 4 t.cause 0 t.addr none
      | .error .wait => s) s

/-- One context of a group returns to its core. -/
def State.restore (s : State) (l : Launch) (x : SavedCtx) : State :=
  match s.freeOn x.place [] with
  | [] => s
  | c :: _ =>
    let s := s.setCtx c { x.image with
      readyAt := s.cycles, lastIssue := s.cycles, rowsOwed := x.rows ++ x.image.rowsOwed
      waitFrom := if x.rows.isEmpty then none else some s.time }
    let a := spadLoc x.place l.sporg
    let b := spadLoc x.place (accBase + 4096 * l.acc0)
    let cleared := memZero (memZero s.mem a l.spad) b (4096 * l.accn)
    let s := { s with mem := x.spad.foldl (fun m p => memSet m p.1 p.2) cleared }
    let s := x.chain.foldl (fun (s : State) (e : Nat × ChainEntry) =>
      s.modQueue x.place e.1 (fun q => q ++ [{ e.2 with ctx := c }])) s
    let back := x.colls.map (fun o : Coll => { o with ctx := c })
    (({ s with colls := s.colls ++ back }.reissue c x.copies).reopenRows c).settle c

/-- RESUME of the g-th saved group. -/
def execResume (g : Nat) (s : State) : Host.Outcome State Fault Refusal :=
  happen (match s.saved[g]? with
    | none => s
    | some grp =>
      match s.launches.find? (fun l => l.id == grp.launch) with
      | none => s
      | some l =>
        if s.rontal.state = 2#3 ∧ s.mayReturn' grp l then
          let s := { s with saved := s.saved.eraseIdx g }
          let s := grp.ctxs.foldl (fun (s : State) x => s.restore l x) s
          grp.rings.foldl (fun (s : State) r => s.advanceTail (grp.launch, grp.group) r) s
        else s)

end Sys2Proof.Machine
end

