-- ==== Sys2Proof/Machine/FieldTest.lean ====
section
/-! DEFINITION. The in-field test and the logical core map (spec 03 R116 to R118; spec 14 R390, R391). -/

namespace Sys2Proof.Machine

/-! The test. -/

def tWaiting : BitVec 3 := 1
def tRunning : BitVec 3 := 2
def tPass : BitVec 3 := 3
def tFail : BitVec 3 := 4
def tAborted : BitVec 3 := 5
def tRejected : BitVec 3 := 6

/-- The physical core that an STEST names, or none where the STEST is rejected (R116, R390). -/
def State.testTarget (s : State) (q l : Nat) : Option Nat :=
  match s.mapped q l with
  | none => none
  | some p =>
    let k := q * 96 + p
    if decide (s.part.cubes ≤ q) || (s.cube q).withdrawn || (s.cube q).fieldTest.isSome || k == coreOf s.cur then none
    else some k

/-- STEST (R116, R390). SIG is 0 until a signature is read back, and after an abort (the model's choice, log 66). -/
def execStest (x : BitVec 5) (s : State) : Host.Outcome State Fault Refusal :=
  let a := (s.sr x).toNat
  let l := a % 128
  let q := a / 128
  let status := fun (st : BitVec 3) => s.modMe (fun y =>
    { y with test := ⟨0, BitVec.ofNat 1 q, BitVec.ofNat 8 l, st⟩ })
  perform (do
    s.privileged
    need (decide (a < 256) && decide (l ≤ 95)) (trapC cProt)) (fun _ =>
      match s.testTarget q l with
      | none => status tRejected
      | some k => (status tWaiting).modCube q (fun y =>
          { y with fieldTest := some ⟨k, BitVec.ofNat 8 l, s.prioOf s.cur, none⟩ })) s

/-- The status word (R117). -/
def TestStatus.word (t : TestStatus) : Word :=
  BitVec.ofNat 64 (t.sig.toNat * 2 ^ 32 + t.cube.toNat * 2 ^ 16 + t.core.toNat * 2 ^ 8 + t.state.toNat)

/-- STSTAT (R117). -/
def execStstat (x : BitVec 5) (s : State) : Host.Outcome State Fault Refusal :=
  perform s.privileged (fun _ => s.put x s.me.test.word 2) s

/-- The status of the context, running or saved, whose test of a cube waits or runs. -/
def State.testStatus (s : State) (q : Nat) (st : BitVec 3) (sig : BitVec 32) : State :=
  let one := fun (x : Ctx) =>
    if (x.test.state == tWaiting || x.test.state == tRunning) && x.test.cube.toNat == q then
      { x with test := { x.test with state := st, sig := sig } }
    else x
  { s with
    ctxs := s.ctxs.map (fun p : Nat × Ctx => (p.1, one p.2))
    saved := s.saved.map (fun g => { g with ctxs := g.ctxs.map (fun c => { c with image := one c.image }) }) }

/-- The bytes of a run of locations become unpredictable (log 6). -/
def State.scramble (s : State) (a n : Nat) : State :=
  { s with mem := (List.range n).foldl (fun m i => memSet m (a + i) (Config.freeByte s.tick (a + i))) s.mem }

/-- The base slice of a core after a test that ran (R390). -/
def State.scrambleSlice (s : State) (k : Nat) : State :=
  (s.scramble (spadLoc k 0) generalEnd).scramble (spadLoc k accBase) 0x40000

/-- Every context of a core is free. -/
def State.emptyCore (s : State) (k : Nat) : Bool := (s.freeOn k []).length == 4

/-- TEST_DRAINED (R390). SIG stays 0 (the model's choice, log 66). -/
def execTestDrained (cube : Nat) (s : State) : Host.Outcome State Fault Refusal :=
  happen (match (s.cube cube).fieldTest with
    | none => s
    | some t =>
      if t.running.isSome || !s.emptyCore t.core then s
      else
        (s.testStatus cube tRunning 0).modCube cube (fun x => { x with fieldTest := some { t with running := some s.time } }))

/-- TEST_END: after 200 µs the signature read back, a free value, is compared (R390; log 4, log 8). -/
def execTestEnd (cube : Nat) (s : State) : Host.Outcome State Fault Refusal :=
  happen (match (s.cube cube).fieldTest with
    | none => s
    | some t => match t.running with
      | none => s
      | some since =>
        if s.time < since + 200000 then s
        else
          let sig := s.draw 97
          let pass := sig == Config.expectedSignature t.core
          let s := (s.scrambleSlice t.core).testStatus cube (if pass then tPass else tFail) (sig.extractLsb' 32 32)
          let s := s.modCube cube (fun x => { x with fieldTest := none })
          if pass then s else s.logError 0 0 10 t.core 0 sig)

/-- A waiting launch above the test's priority that can place a group only by using the core under test (R390). -/
def State.displaces (s : State) (t : FieldTest) : Bool :=
  s.waiting.any (fun i => match s.waits i with
    | some l => decide (t.prio < l.prio) && (s.findPlace l l.nextGroup false).isNone &&
        ((s.findPlace l l.nextGroup true).getD []).contains t.core
    | none => false)

/-- TEST_ABORT: the core returns to service (R390). SIG reads 0 (the model's choice, log 66). -/
def execTestAbort (cube : Nat) (s : State) : Host.Outcome State Fault Refusal :=
  happen (match (s.cube cube).fieldTest with
    | none => s
    | some t =>
      if t.running.isSome && s.displaces t then
        ((s.scrambleSlice t.core).testStatus cube tAborted 0).modCube cube (fun x => { x with fieldTest := none })
      else s)

/-! The core map. -/

/-- Enter a word of the CMAPW layout into the map of its cube; Rontal will write it to flash (R118, R391). -/
def State.mapCore (s : State) (v : Nat) : State :=
  let phys := if v.testBit 15 then none else some (bitsOf v 14 8)
  let t := s.modCube (bitsOf v 7 7) (fun x => { x with cmap := tblSet x.cmap (v % 128) phys })
  let t := match phys with
    | none => t
    | some p =>
      let k := bitsOf v 7 7 * 96 + p
      if s.emptyCore k && !(s.saved.any (fun g => g.ctxs.any (fun x => x.place == k))) then t.nameCore k else t
  { t with rontal := { t.rontal with persist := t.rontal.persist ++ [(s.time, BitVec.ofNat 16 v)] } }

/-- Another logical number of the cube holds a physical core. -/
def State.heldElsewhere (s : State) (q l p : Nat) : Bool :=
  (List.range 96).any (fun m => m != l && s.mapped q m == some p)

/-- CMAPW (R118, R391). A cube that the part does not have traps PROT (the model's choice, log 66). -/
def execCmapw (x : BitVec 5) (s : State) : Host.Outcome State Fault Refusal :=
  let v := (s.sr x).toNat
  let q := bitsOf v 7 7
  perform (do
    s.privileged
    need (decide (v < 2 ^ 16) && decide (v % 128 ≤ 95) && decide (q < s.part.cubes) &&
      (v.testBit 15 || decide (bitsOf v 14 8 ≤ 95))) (trapC cProt)
    need (v.testBit 15 || !s.heldElsewhere q (v % 128) (bitsOf v 14 8)) (trapC cProt)) (fun _ => s.mapCore v) s

/-- The device section of the configuration block: the layer maps and the core maps of both cubes (R380). -/
def State.deviceSection (s : State) : List Byte :=
  [0, 1].flatMap (fun q =>
    leBytes 2 ((s.cube q).failedDies.foldl (fun m d => m ||| 2 ^ d) 0) ++
    (List.range 96).flatMap (fun l =>
      leBytes 2 (match tblGet s.rontal.flashMap (q * 128 + l) (some l) with
        | some p => p * 256 + q * 128 + l
        | none => 2 ^ 15 + q * 128 + l)))

/-- Sign the device section as flash now holds it (R380; log 9). -/
def State.signDevice (s : State) : State :=
  { s with rontal := { s.rontal with deviceSig := Config.sign (Config.derived 1) (Config.sha384 s.deviceSection) } }

/-- CORE_MAP_PERSIST: the oldest change of the map reaches flash (R391). -/
def execCoreMapPersist (s : State) : Host.Outcome State Fault Refusal :=
  happen (match s.rontal.persist with
    | [] => s
    | (_, w) :: r =>
      let v := w.toNat
      let phys := if v.testBit 15 then none else some (bitsOf v 14 8)
      { s with rontal := { s.rontal with persist := r, flashMap := tblSet s.rontal.flashMap (v % 256) phys } }.signDevice)

end Sys2Proof.Machine
end

