-- ==== Sys2Proof/Machine/Issue.lean ====
section
/-! DEFINITION. A bundle before it issues: rows 1 to 7 of R49 and stages 1 to 4 of R392 (spec 02), the
checking scoreboard and the busy bits (spec 01 R34, R37). -/

namespace Sys2Proof.Machine

/-- A bundle that passed stage 1: its words, each with whether the loop-flag prefix leaves it on; its stall
count; its live mask; its size (R42, R43, R55); the words as fetched. -/
structure Parsed where
  words : List (Instr × Bool)
  stalls : Nat
  live : Option (BitVec 32)
  size : Nat
  raw : List (BitVec 32)
  deriving DecidableEq, Repr

/-- The words that are on. -/
def Parsed.on (p : Parsed) : List Instr := (p.words.filter (·.2)).map (·.1)

/-- How many words of a slot class (R44). -/
def slotCount (is : List Instr) (k : Slot) : Nat := (is.filter (fun i => slotOf i == k)).length

/-- No element occurs twice. -/
def distinct {α : Type} [BEq α] : List α → Bool
  | [] => true
  | a :: r => !r.contains a && distinct r

/-- The targets of the engine words (R45). -/
def targets (is : List Instr) : List Nat := (is.filter (fun i => slotOf i == .engine)).map targetOf

/-- FLAGS bits for word positions that the bundle does not have are 0, and a prefix is not alone (R55). -/
def prefixOk (is : List Instr) : Bool :=
  is.all (fun i => match i with
    | .lfl _ f => decide (1 < is.length) && f.toNat / 4 ^ (is.length - 1) == 0
    | _ => true)

/-- Row 4 of R49: slots and targets (R44, R45), double writes (R16), delay bundles (R48), the prefix (R55). -/
def bundleOk (is : List Instr) (inDelay : Bool) : Bool :=
  decide (slotCount is .scalar ≤ 2) && decide (slotCount is .memory ≤ 1) && decide (slotCount is .control ≤ 1) &&
  decide (slotCount is .engine ≤ 2) && decide (slotCount is .prefix_ ≤ 1) &&
  distinct (targets is) && (!(targets is).contains 10 || (targets is).length == 1) &&
  distinct ((is.flatMap scalarWrites).filter (fun r => r != 0#5)) && distinct (is.flatMap handleWrites) &&
  !(inDelay && is.any badInDelay) && prefixOk is

/-- The words with their flags: k numbers the words other than the prefix (R54). -/
def flagged (f : BitVec 10) (first last : Bool) : Nat → List Instr → List (Instr × Bool)
  | _, [] => []
  | k, i :: r =>
    if slotOf i = .prefix_ then (i, true) :: flagged f first last k r
    else (i, flagPasses (f.toNat / 4 ^ k % 4) first last) :: flagged f first last (k + 1) r

/-- Which words are on (R55, R108). -/
def State.flagsOf (s : State) (c : Nat) (is : List Instr) : List (Instr × Bool) :=
  let x := s.ctx c
  match is.findSome? (fun i => match i with | .lfl l f => some (l.toNat, f) | _ => none) with
  | none => is.map (fun i => (i, true))
  | some (l, f) =>
    if s.replays c l x.pc then
      let p := x.loop l
      flagged f (p.index == 0#32) (decide (p.index.toNat + 1 = p.init.toNat)) 0 is
    else flagged f true true 0 is

/-- Decode the words of a bundle; the first that fails refuses all (R53). -/
def decodeAll : List (BitVec 32) → Option (List Instr)
  | [] => some []
  | w :: r => match decode w, decodeAll r with
    | .ok i, some is => some (i :: is)
    | _, _ => none

/-- Stage 1 of R392: rows 1 to 4 of R49. -/
def State.parse (s : State) (c : Nat) : Chk Parsed :=
  match s.fetchBundle c (s.ctx c).pc with
  | .error e => .error e
  | .ok b =>
    match decodeAll b.words with
    | none => trapC cIllegalOp
    | some is =>
      if bundleOk is (s.ctx c).xfer.isSome then
        .ok ⟨s.flagsOf c is, (b.words.map (fun w => (decodeHeader w).w.toNat)).foldl max 0, b.live, b.size,
          b.words ++ b.live.toList⟩
      else trapC cBundleForm

/-- A word that takes quantised operands: those of the cube and the vector engine, the copies, and WLD. -/
def takesScale (i : Instr) : Bool :=
  match i with
  | .cpy _ _ _ | .cpym _ _ _ | .rrot _ _ _ | .wld _ _ => true
  | _ => decide (0x24 ≤ majorOf i) && decide (majorOf i ≤ 0x2F)

/-- The handle registers a word reads, the scale handles of quantised operands among them (R128). -/
def Ctx.handleUses (x : Ctx) (i : Instr) : List (BitVec 5) :=
  let hs := handleReads i
  if takesScale i then hs ++ (hs.filter (fun r => hQ (x.hreg r))).map (fun r => hScale (x.hreg r)) else hs

/-- The shadow-queue entries that a bundle's writes would leave queued pass 8 (R33). -/
def Ctx.lacksRoom (x : Ctx) (is : List Instr) : Bool :=
  decide (8 < x.shadow.length + (is.map (shadowNeed x)).sum)

/-- Registers by number, those that occur in a list. -/
def inOrder (rs : List (BitVec 5)) : List (BitVec 5) :=
  ((List.range 32).map (BitVec.ofNat 5)).filter (fun r => rs.contains r)

/-- The oldest pending entry of a register (R37). -/
def Ctx.pendingOf (x : Ctx) (f : RegFile) (r : BitVec 5) : Option PendWrite :=
  x.shadow.find? (fun w => w.file == f && w.reg == r)

/-- What the checking scoreboard finds: the lowest register, scalar before handle, that the bundle reads and
that has a pending entry; a read of a live transient does not count (R37). -/
def Ctx.shortRead (x : Ctx) (is : List Instr) : Option PendWrite :=
  if !x.scbEn || x.scbSkip || x.inh then none
  else
    match (inOrder (is.flatMap scalarReads)).findSome? (fun r =>
        if (x.transient? r).isSome then none else x.pendingOf .scalar r) with
    | some w => some w
    | none => (inOrder (is.flatMap x.handleUses)).findSome? (x.pendingOf .handle)

/-- The registers a bundle reads or writes (R34). -/
def Ctx.uses (x : Ctx) (is : List Instr) : List (RegFile × BitVec 5) :=
  (inOrder (is.flatMap (fun i => scalarReads i ++ scalarWrites i))).map (fun r => (RegFile.scalar, r)) ++
  (inOrder (is.flatMap (fun i => x.handleUses i ++ handleWrites i))).map (fun r => (RegFile.handle, r))

/-- An error attached to a register that a bundle uses (R82). -/
def Ctx.attached (x : Ctx) (is : List Instr) : Option (RegFile × BitVec 5 × Word) :=
  (x.uses is).findSome? (fun u => x.busyErr.find? (fun e => e.1 == u.1 && e.2.1 == u.2))

/-- What stages 1 to 4 of R392 answer. -/
inductive Ahead where
  | trap (t : Trap)
  | room
  | short (w : PendWrite)
  | attached (f : RegFile) (r : BitVec 5) (a : Word)
  | busy
  | go (p : Parsed)
  deriving DecidableEq, Repr

/-- Stages 1 to 4 of R392 for the bundle at a context's PC. -/
def State.ahead (s : State) (c : Nat) : Ahead :=
  let x := s.ctx c
  match s.parse c with
  | .error (.trap t) => .trap t
  | .error .wait => .busy
  | .ok p =>
    let is := p.on
    if x.lacksRoom is then .room
    else if x.mode = .user ∧ is.any isPrivileged then .trap { cause := cPriv }
    else if is.any (unitAbsent s.part) then .trap { cause := cUnitAbsent }
    else match x.shortRead is with
      | some w => .short w
      | none =>
        match x.attached is with
        | some (f, r, a) => .attached f r a
        | none => if (x.uses is).any (fun u => x.busy u.1 u.2) then .busy else .go p

/-- The next step of a context is a stall step: one that is owed, or one that waits for room (R31, R33). -/
def State.stalls (s : State) (c : Nat) : Bool := (s.ctx c).owed != 0 || s.ahead c == .room

/-- A GWAIT that is on in the bundle at a context's PC: its handle register, generation and timeout (R215). -/
def State.gaugeWait (s : State) (c : Nat) : Option (BitVec 5 × Word × Word) :=
  match s.ahead c with
  | .go p => p.on.findSome? (fun i => match i with
      | .gwait h a b => some (h, (s.ctx c).sreg a, (s.ctx c).sreg b)
      | _ => none)
  | _ => none

/-- A gauge of a context's core has neither overrun nor come to generation a (R215). -/
def State.gaugeBehind (s : State) (c : Nat) (h : Handle) (a : Word) : Bool :=
  let g := s.gaugeAt (spadLoc (coreOf c) (hBase h).toNat)
  !g.ovr && decide (seqDiff g.gen (a.setWidth 32) < 0)

/-- GAUGE_TIMEOUT: a blocked GWAIT whose timeout has passed traps, while its gauge keeps it waiting (R215). -/
def execGaugeTimeout (c : Nat) (s : State) : Host.Outcome State Fault Refusal :=
  let x := s.ctx c
  happen (match s.gaugeWait c, x.waitFrom with
    | some (h, a, b), some t =>
      if x.blocked && b != 0#64 && decide (t + b.toNat ≤ s.time) && s.gaugeBehind c (x.hreg h) a then
        s.takeTrap c { cause := cGaugeTimeout, engine := eCopy, addr := hBase (x.hreg h) }
      else s
    | _, _ => s)

/-- STALL_STEP: a context spends an owed stall step, or one that waits for shadow-queue room (R31, R33). -/
def execStallStep (c : Nat) (s : State) : Host.Outcome State Fault Refusal :=
  happen (if (s.ctx c).owed != 0 then
      ((s.modCtx c (fun x => { x with owed := x.owed - 1 })).stepOver c).settle c
    else if s.ahead c == .room then s.stepOver c
    else s)

end Sys2Proof.Machine
end

