-- ==== Sys2Proof/Machine/Sched.lean ====
section
/-! DEFINITION. The selector of a core, the step budgets, asynchronous traps, waking, the end of a recompute,
deadlock and the spillway (spec 09 R280, R285, R291, R294, R297, R298, R306). -/

namespace Sys2Proof.Machine

/-! Readiness (R280, R283, R285). -/

/-- USED has reached STEPS of a polder whose budgets hold over the launch (R280). -/
def State.exhausted (s : State) (l : Launch) : Bool :=
  (s.budgets l.polder).any (fun p =>
    let n := s.polField p 16 4
    n != 0 && decide (n ≤ s.polField p 52 4))

/-- The context has stopped for a save (R288). -/
def Ctx.stopped (x : Ctx) : Bool :=
  match x.preempt with
  | .stopped _ _ _ => true
  | _ => false

/-- A context is ready: it holds a task, which is not ending unless it owes stall steps to its boundary, and waits for
nothing (R283, R285, R296 to R298). -/
def State.isReady (s : State) (c : Nat) : Bool :=
  let x := s.ctx c
  x.task.isSome && (x.ending == .none || x.owed != 0) && !x.stopped && !x.blocked && !x.asleep && x.recompute.isNone &&
  x.rowsOwed.isEmpty && (match s.launchOf c with
    | some l => !s.exhausted l
    | none => false)

/-- The contexts of a core that are ready. -/
def State.readyOn (s : State) (k : Nat) : List Nat := ([0, 1, 2, 3].map (fun i => 4 * k + i)).filter s.isReady

/-- The context of highest effective priority; among equals the one ready longest (R285). -/
def State.best (s : State) (cs : List Nat) : Option Nat :=
  cs.foldl (fun (b : Option Nat) c => match b with
    | none => some c
    | some d =>
      if s.prioOf d < s.prioOf c ∨ (s.prioOf d = s.prioOf c ∧ (s.ctx c).readyAt < (s.ctx d).readyAt) then some c
      else some d) none

/-- Cycles that a ready context has waited for the slot (R285). -/
def State.waited (s : State) (c : Nat) : Nat := s.cycles - max (s.ctx c).lastIssue (s.ctx c).readyAt

/-- A ready context to which the slot has been promised (R285). -/
def State.promised (s : State) (k : Nat) : Option Nat := (s.core k).prefer.filter s.isReady

/-- The context that takes the next step of a core (R285). A context that yields gives the slot to another at the end of
its bundle, and spends what stall steps it owes when it has the slot again (R31, R114). -/
def State.selected (s : State) (k : Nat) : Option Nat :=
  let cs := s.readyOn k
  let holder := (s.core k).holder.filter (fun c => cs.contains c)
  let others := fun (c : Nat) => s.best (cs.filter (fun d => d != c))
  match holder with
  | some c =>
    if (s.ctx c).owed != 0 && !(s.ctx c).yielded then some c
    else match s.promised k with
      | some p => some p
      | none => if (s.ctx c).yielded then some ((others c).getD c) else some c
  | none => match s.promised k with
    | some p => some p
    | none => s.best cs

/-- A context takes the slot (R285). -/
def State.giveSlot (s : State) (c : Nat) : State :=
  let k := coreOf c
  let old := (s.core k).holder
  let s := match old with
    | some d => if d = c then s else s.modCtx d (fun x => { x with yielded := false })
    | none => s
  (s.modCtx c (fun x => { x with yielded := false })).modCore k (fun y =>
    { y with
      holder := some c
      since := if old = some c then y.since else s.cycles
      prefer := if y.prefer = some c then none else y.prefer })

/-- A context must yield at this bundle boundary: it has held the slot for 4,096 cycles while a ready context of equal or
higher priority waits (R285). -/
def State.quantumDue (s : State) (k : Nat) : Bool :=
  match (s.core k).holder with
  | some c =>
    !(s.ctx c).yielded && (s.ctx c).owed == 0 && s.isReady c && decide ((s.core k).since + 4096 ≤ s.cycles) &&
    (s.readyOn k).any (fun d => d != c && decide (s.prioOf c ≤ s.prioOf d))
  | none => false

/-- QUANTUM_EXPIRY (R285). -/
def execQuantumExpiry (core : Nat) (s : State) : Host.Outcome State Fault Refusal :=
  happen (if s.quantumDue core then
      match (s.core core).holder with
      | some c => s.modCtx c (fun x => { x with yielded := true })
      | none => s
    else s)

/-- The slot is due to a context that has waited 16,384 cycles (R285). -/
def State.promiseDue (s : State) (c : Nat) : Bool :=
  s.isReady c && (s.core (coreOf c)).holder != some c && (s.promised (coreOf c)).isNone && decide (16384 ≤ s.waited c)

/-- PROGRESS_PROMISE (R285). -/
def execProgressPromise (c : Nat) (s : State) : Host.Outcome State Fault Refusal :=
  happen (if s.promiseDue c then s.modCore (coreOf c) (fun k => { k with prefer := some c }) else s)

/-- A location is a byte of USED of some polder. -/
def isUsed (l : Nat) : Bool :=
  decide (Config.polderBase ≤ l) && decide (l < Config.polderBase + 128 * Config.polders) &&
  (l - Config.polderBase) % 128 / 4 == 13

/-- STEP_BUDGET_WINDOW: every USED returns to 0 (R280). -/
def execStepBudgetWindow (s : State) : Host.Outcome State Fault Refusal :=
  let w := s.time / 1000000
  happen (if s.windowAt < w then
      let free := fun (p : Nat × Ctx) => match s.launchOf p.1 with
        | some l => if s.exhausted l then (p.1, { p.2 with readyAt := s.cycles }) else p
        | none => p
      { s with mem := s.mem.filter (fun m => !isUsed m.1), ctxs := s.ctxs.map free, windowAt := w }
    else s)

/-! Asynchronous traps and waking (R291, R294, R297). -/

/-- The pending event of the lowest cause, the oldest of equals (R294). -/
def lowest : List Trap → Option Trap
  | [] => none
  | t :: r => match lowest r with
    | none => some t
    | some u => if u.cause < t.cause then some u else some t

/-- Remove the first element that satisfies a test. -/
def dropFirst {α : Type} (p : α → Bool) : List α → List α
  | [] => []
  | a :: r => if p a then r else a :: dropFirst p r

/-- The fault a trap reports is consumed; those of a chain's producer and consumer together (R102, R148). -/
def Ctx.consume (x : Ctx) (t : Trap) : Ctx :=
  let mine := fun (f : EngFault) => f.cause == t.cause && f.fcode == t.fcode &&
    BitVec.ofNat 5 (if f.engine < 6 then f.engine else 31) == t.engine
  match x.faults.find? mine with
  | none => x
  | some f => match f.link with
    | none => { x with faults := dropFirst mine x.faults }
    | some l => { x with faults := x.faults.filter (fun g => g.link != some l) }

/-- An asynchronous trap may be taken: no handler runs, the context is not ending and has not stopped. -/
def State.asyncDue (s : State) (c : Nat) : Bool :=
  let x := s.ctx c
  x.task.isSome && x.ending == .none && !x.stopped && !x.inh && !x.asyncs.isEmpty

/-- ASYNCHRONOUS_TRAP (R291, R294). A context that waits for a recompute issues its bundle afresh later. -/
def execAsynchronousTrap (c : Nat) (s : State) : Host.Outcome State Fault Refusal :=
  let x := s.ctx c
  happen (match lowest x.asyncs with
    | none => s
    | some t =>
      if s.asyncDue c then
        (s.setCtx c { x.consume t with
          asyncs := dropFirst (fun u => u == t) x.asyncs, asleep := false, recompute := none }).takeTrap c t
      else s)

/-- IDLE_WAKE; a kill that reaches the context is taken there (R297, R303). -/
def execIdleWake (c : Nat) (s : State) : Host.Outcome State Fault Refusal :=
  let x := s.ctx c
  happen (if x.asleep && !s.killDue c && (!x.asyncs.isEmpty || x.preempt != .none || x.dying) then
      s.modCtx c (fun x => { x with asleep := false, readyAt := s.cycles })
    else s)

/-! Recompute (R298). -/

/-- A context that waits for the producer of a record goes on: its handle is reloaded. -/
def Ctx.reload (x : Ctx) (rec_ : BitVec 512) (r : BitVec 5) (cycles : Nat) : Ctx :=
  { x with
    hregs := vset x.hregs r (reloaded rec_ (hTrec (x.hreg r)))
    recompute := none
    blocked := false
    readyAt := cycles }

/-- The contexts that wait for the producer of a record, each with the register it reloads. -/
def State.consumers (s : State) (loc : Nat) : List (Nat × BitVec 5) :=
  s.ctxs.filterMap (fun p => match p.2.recompute with
    | some (r, l) => if l = loc then some (p.1, r) else none
    | none => none)

/-- Change every saved context that waits for a record. -/
def State.modSaved (s : State) (loc : Nat) (f : Nat → BitVec 5 → Ctx → Ctx) : State :=
  { s with saved := s.saved.map (fun g =>
      { g with ctxs := g.ctxs.map (fun x => match x.image.recompute with
          | some (r, l) => if l = loc then { x with image := f g.launch r x.image } else x
          | none => x) }) }

/-- The record a consumer named, for RECOMPUTE_FAILED. -/
def State.failedAt (s : State) (polder : Nat) (h : Handle) : Trap :=
  { cause := cRecomputeFailed, addr := BitVec.ofNat 64 (s.effField 8 polder 64 8 + 64 * hTrec h) }

/-- The recompute has succeeded: DROPPED and RECOMP fall, record caches drop the record, consumers reload. -/
def State.recomputed (s : State) (loc : Nat) : State :=
  let s := (s.store (loc + 48) 1 (memRead s.mem (loc + 48) 1 / 4 * 4)).dropRecord loc
  let rec_ := BitVec.ofNat 512 (memRead s.mem loc 64)
  let s := (s.consumers loc).foldl (fun (s : State) p => s.modCtx p.1 (fun x => x.reload rec_ p.2 s.cycles)) s
  s.modSaved loc (fun _ r x => x.reload rec_ r s.cycles)

/-- The recompute has failed: RECOMP falls, consumers take RECOMPUTE_FAILED, saved ones at their resume. -/
def State.notRecomputed (s : State) (loc : Nat) : State :=
  let v := memRead s.mem (loc + 48) 1
  let s := (s.store (loc + 48) 1 (v / 4 * 4 + v % 2)).dropRecord loc
  let s := (s.consumers loc).foldl (fun (s : State) p =>
    (s.modCtx p.1 (fun x => { x with recompute := none, blocked := false, readyAt := s.cycles })).takeTrap p.1
      (s.failedAt (s.polderOf p.1) ((s.ctx p.1).hreg p.2))) s
  s.modSaved loc (fun id r x =>
    let p := ((s.launches.find? (fun l => l.id == id)).map (·.polder)).getD 0
    { x with recompute := none, after := some (s.failedAt p (x.hreg r)) })

/-- RECOMPUTE_PRODUCER_COMPLETION: the launch has ended, all of its tasks or in failure (R298). -/
def execRecomputeProducerCompletion (l : Nat) (s : State) : Host.Outcome State Fault Refusal :=
  happen (match s.launches.find? (fun m => m.id == l) with
    | none => s
    | some m => match m.consumer with
      | none => s
      | some loc =>
        let done := m.begun != 0 && decide (m.ended = m.tasks)
        if !(s.runners l).isEmpty || !(m.failed || done) then s
        else
          let t := { s with
            launches := s.launches.filter (fun n => n.id != l), waiting := s.waiting.filter (fun i => i != l) }
          if m.failed then t.notRecomputed loc else t.recomputed loc)

/-! Deadlock and the spillway (R306). -/

/-- A blocked context that a timer will end: a GWAIT with a timeout, or a register that a window access fills
(R306, R326). -/
def State.timed (s : State) (c : Nat) : Bool :=
  (match s.gaugeWait c with
   | some (_, _, b) => b != 0#64
   | none => false) ||
  s.loads.any (fun l => l.ctx == c && l.remote)

/-- The contexts of a cube that hold a task. -/
def State.tasksOf (s : State) (q : Nat) : List Nat :=
  (s.ctxs.filter (fun p => cubeOf p.1 == q && p.2.task.isSome)).map (·.1)

/-- A cube is deadlocked (R306); a resumed context that waits for its rows is blocked (R235). -/
def State.deadlocked (s : State) (q : Nat) : Bool :=
  let cs := s.tasksOf q
  decide ((s.cube q).lastProgress + 16384 ≤ s.cycles) && !cs.isEmpty &&
  cs.all (fun c => (((s.ctx c).blocked && (s.ctx c).recompute.isNone) || !(s.ctx c).rowsOwed.isEmpty) &&
    (s.ctx c).ending == .none && !s.timed c)

/-- The chunks of a cube's spillway that are free (R289). -/
def State.freeChunks (s : State) (q : Nat) : Nat :=
  64 - (s.cores.filter (fun p => cubeOfCore p.1 == q)).foldl (fun n p => n + p.2.chunks.toList.sum) 0

/-- The full enlargeable queues of a cube: bytes, core, number; 0 to 2 are the chain queues of 4 KiB entries (R174), 3 is
the receive staging (R331). The copy engine's command queue has no stated capacity, and is never full (log 43). -/
def State.fullQueues (s : State) (q : Nat) : List (Nat × Nat × Nat) :=
  (s.cores.filter (fun p => cubeOfCore p.1 == q)).flatMap (fun p =>
    [0, 1, 2].filterMap (fun i =>
      if p.2.capacity i ≤ (p.2.queue i).length then some (4096 * p.2.capacity i, p.1, i) else none) ++
    (if s.stagingFull p.1 then [(p.2.stagingBytes, p.1, 3)] else []))

/-- The first element of least key. -/
def argMin {α : Type} (f : α → Nat) : List α → Option α
  | [] => none
  | x :: r => match argMin f r with
    | none => some x
    | some y => if f y < f x then some y else some x

/-- Change the number of chunks of a queue. -/
def Core.modChunks (k : Core) (q : Nat) (f : Nat → Nat) : Core :=
  { k with chunks := Vector.ofFn (fun i : Fin 4 => if i.val = q then f k.chunks[i] else k.chunks[i]) }

/-- DEADLOCK_DETECTION: the smallest full queue grows, or the context blocked longest takes DEADLOCK (R306). The
cube then counts afresh. -/
def execDeadlockDetection (cube : Nat) (s : State) : Host.Outcome State Fault Refusal :=
  happen (if !s.deadlocked cube then s
    else
      let t := s.modCube cube (fun x => { x with lastProgress := s.cycles })
      match argMin (fun e => e.1) (s.fullQueues cube), s.freeChunks cube with
      | some (_, k, q), _ + 1 =>
        (t.modCore k (fun x => x.modChunks q (· + 1))).modCube cube (fun x =>
          { x with spwCount := if x.spwCount = BitVec.allOnes 32 then x.spwCount else x.spwCount + 1 })
      | _, _ =>
        match argMin (fun c => ((s.ctx c).waitFrom).getD 0) (s.tasksOf cube) with
        | some c => t.raise c { cause := cDeadlock }
        | none => t)

/-- SPILLWAY_CHUNK_RETURN: a queue whose entries fit its own capacity gives a chunk back (R306). -/
def execSpillwayChunkReturn (core queue : Nat) (s : State) : Host.Outcome State Fault Refusal :=
  let k := s.core core
  let fits := if queue = 3 then decide (k.staged ≤ 65536) else decide ((k.queue queue).length ≤ 8)
  happen (if fits then s.modCore core (fun k => k.modChunks queue (· - 1)) else s)

end Sys2Proof.Machine
end

