-- ==== Sys2Proof/Machine/Weir.lean ====
section
/-! DEFINITION. The fabric window, the weir and membership (spec 12 R324 to R327, R340 to R344). -/

namespace Sys2Proof.Machine

def State.modFabric (s : State) (f : Fabric → Fabric) : State := { s with fabric := f s.fabric }

/-- The group has more than one member. -/
def State.grouped (s : State) : Bool := s.part.fabric && decide (1 < s.fabric.members.length)

/-- The other members of the group. -/
def Fabric.others (f : Fabric) : List Nat := f.members.filter (fun n => n != f.node)

/-! Limits (R340, R341). -/

/-- Rounded down to a multiple of 25 MHz and clamped to the range (R341). -/
def legalLimit (mhz : Nat) : Nat := max Config.groupFloorMHz (min Config.maxMHz (mhz / 25 * 25))

/-- The least notice of a change, in nanoseconds (R341). -/
def notice : Nat := 250000

/-- This module's limit. -/
def State.ownLimit (s : State) : Nat := s.limitOf s.fabric.node

/-- A module proposes a limit: lower than its own, it announces a lowering, which every other member has to acknowledge;
higher, or any limit at the floor, it proposes a raise, which every other member has to grant (R341, R342). -/
def State.propose (s : State) (mhz : Nat) : State :=
  let lim := legalLimit mhz
  let at_ := s.time + notice
  let put := fun (s : State) (a : Announce) => s.modFabric (fun f => { f with announces := f.announces ++ [a] })
  let tell := fun (s : State) (m : Outgoing) => if s.grouped then s.emit m else s
  if lim < s.ownLimit then
    let a : Announce := ⟨s.fabric.node, lim, at_, false, s.fabric.others⟩
    tell ((put s { a with waiting := [] }).modFabric (fun f =>
      { f with unacked := if a.waiting.isEmpty then f.unacked else f.unacked ++ [a] })) (.lowering s.fabric.seq.toNat lim at_)
  else if s.ownLimit < lim ∨ s.fabric.floor then
    tell (put s ⟨s.fabric.node, lim, at_, true, s.fabric.others⟩) (.proposal lim at_)
  else s

/-- A write of WEIR.REQ (R341, R344). -/
def State.requestLimit (s : State) (v : Nat) : State := (s.modFabric (fun f => { f with request := v })).propose v

/-- WEIR_REQ. -/
def execWeirReq (limit : BitVec 12) (s : State) : Host.Outcome State Fault Refusal :=
  happen (s.requestLimit limit.toNat)

/-- An announcement comes into force: the member's limit; a raise that has been granted lifts the floor (R341, R342). -/
def Fabric.apply (f : Fabric) (a : Announce) : Fabric :=
  { f with limits := tblSet f.limits a.node a.limit, floor := f.floor && !a.raise }

/-- A change that a member has announced and that came into force after an instant supersedes one for that instant (R341). -/
def Fabric.superseded (f : Fabric) (a : Announce) : Bool :=
  f.known.any (fun b => b.node == a.node && decide (a.at_ < b.at_) && !f.announces.any (fun c =>
    c.node == b.node && c.limit == b.limit && c.at_ == b.at_ && c.raise == b.raise))

/-- LOWERING_ANNOUNCEMENT of another member: one that is late applies at once, unless a later one of that member is in force
(R341). A repetition of one that is known changes nothing. -/
def execLoweringAnnouncement (node limit at_ : Nat) (s : State) : Host.Outcome State Fault Refusal :=
  let a : Announce := ⟨node, limit, at_, false, []⟩
  happen (if !(s.grouped && s.fabric.others.contains node) then s
    else
      let t := s.emit (.lowered node limit at_)
      if s.fabric.known.contains a then t
      else if at_ < s.time then t.modFabric (fun f =>
        { (if f.superseded a then f else f.apply a) with known := f.known ++ [a], late := satInc f.late })
      else t.modFabric (fun f => { f with announces := f.announces ++ [a], known := f.known ++ [a] }))

/-- LOWERING_ACKNOWLEDGEMENT by another member: the lowering is repeated to it no more (R341). -/
def State.loweringKnown (s : State) (node limit at_ : Nat) : State :=
  let heard := fun (a : Announce) =>
    if a.limit = limit ∧ a.at_ = at_ then { a with waiting := a.waiting.filter (fun n => n != node) } else a
  s.modFabric (fun f => { f with unacked := (f.unacked.map heard).filter (fun a => !a.waiting.isEmpty) })

/-- RAISE_PROPOSAL of another member: this member grants it, and it waits for the grants of the others that have not come
before it (R341). A repetition is granted again and changes nothing. -/
def execRaiseProposal (node limit at_ : Nat) (s : State) : Host.Outcome State Fault Refusal :=
  let f := s.fabric
  let a : Announce := ⟨node, limit, at_, true, f.others.filter (fun n =>
    n != node && !f.grantsEarly.contains (node, n, limit, at_))⟩
  happen (if !(s.grouped && f.others.contains node) then s
    else
      let t := s.emit (.grant node limit at_)
      if f.known.any (fun b => b.node == node && b.limit == limit && b.at_ == at_ && b.raise) then t
      else t.modFabric (fun f =>
        { f with
          announces := f.announces ++ [a]
          known := f.known ++ [a]
          grantsEarly := f.grantsEarly.filter (fun g => !(g.1 == node && g.2.2 == (limit, at_))) }))

/-- An announcement has the grant of a member. -/
def Announce.grantedBy (a : Announce) (node : Nat) : Announce := { a with waiting := a.waiting.filter (fun n => n != node) }

/-- A member has granted a raise of another or of this module; a grant that comes before its proposal is kept (R341). -/
def State.grantedFor (s : State) (proposer node limit at_ : Nat) : State :=
  let of := fun (a : Announce) => a.node == proposer && a.limit == limit && a.at_ == at_ && a.raise
  if !s.fabric.members.contains node then s
  else if s.fabric.announces.any of then
    s.modFabric (fun f => { f with announces := f.announces.map (fun a => if of a then a.grantedBy node else a) })
  else if proposer = s.fabric.node ∨ s.fabric.known.any of then s
  else s.modFabric (fun f => { f with grantsEarly := f.grantsEarly ++ [(proposer, node, limit, at_)] })

/-- RAISE_GRANT by another member, where it names no raise: of the oldest of this module's that waits for it (R341). -/
def execRaiseGrant (node : Nat) (s : State) : Host.Outcome State Fault Refusal :=
  happen (match s.fabric.announces.find? (fun a => a.node == s.fabric.node && a.raise && a.waiting.contains node) with
    | some a => s.grantedFor s.fabric.node node a.limit a.at_
    | none => s)

/-- An announcement whose instant has come and which waits for no grant. -/
def Announce.due (a : Announce) (time : Nat) : Bool := decide (a.at_ ≤ time) && a.waiting.isEmpty

/-- Insert an announcement by its instant, after those of the same one. -/
def insertAnnounce (a : Announce) : List Announce → List Announce
  | [] => [a]
  | b :: r => if a.at_ < b.at_ then a :: b :: r else b :: insertAnnounce a r

/-- Announcements in order of their instants. -/
def byInstant (l : List Announce) : List Announce := l.foldl (fun r a => insertAnnounce a r) []

/-- CEILING_CHANGE: every announcement that is due comes into force (R341, R355). -/
def execCeilingChange (s : State) : Host.Outcome State Fault Refusal :=
  happen (s.modFabric (fun f =>
    (byInstant (f.announces.filter (fun a => a.due s.time))).foldl Fabric.apply
      { f with announces := f.announces.filter (fun a => !a.due s.time) }))

/-! Registers (R327, R344). -/

/-- FAB.NODE. -/
def State.fabNode (s : State) : Word :=
  if s.part.fabric then
    BitVec.ofNat 64 (s.fabric.members.length * 2 ^ 32 + s.rankOf % 256 * 2 ^ 16 + s.fabric.node % 256)
  else BitVec.ofNat 64 (2 ^ 32 + s.fabric.node % 256)

/-- WEIR.CEIL: the next change is that of the announcements for the first instant, of those that wait for no grant. -/
def State.weirCeil (s : State) : Word :=
  let l := byInstant (s.fabric.announces.filter (fun a => a.waiting.isEmpty))
  match l.head? with
  | none => BitVec.ofNat 64 s.ceiling
  | some a =>
    let next := ({ s with fabric := (l.filter (fun (b : Announce) => b.at_ == a.at_)).foldl Fabric.apply s.fabric }).ceiling
    BitVec.ofNat 64 (a.at_ % 2 ^ 32 * 2 ^ 32 + 2 ^ 28 + next * 2 ^ 16 + s.ceiling)

/-- WEIR.SEQ; it stays 0 without UALink (R389). -/
def State.weirSeq (s : State) : Word :=
  if s.part.fabric then
    BitVec.ofNat 64 (s.fabric.late.toNat * 2 ^ 48 + s.fabric.evict.toNat * 2 ^ 32 + s.fabric.seq.toNat)
  else 0#64

/-! Membership (R342, R343). -/

/-- Insert a node in rising order. -/
def insertNode (n : Nat) : List Nat → List Nat
  | [] => [n]
  | m :: r => if n < m then n :: m :: r else if n = m then m :: r else m :: insertNode n r

/-- Nodes in rising order, without repeats. -/
def sortNodes (l : List Nat) : List Nat := l.foldl (fun r n => insertNode n r) []

/-- A collective in flight meets the loss of members: with a join that still has its quorum they count as evicted, any
other faults (R338, R342). -/
def State.loseMembers (s : State) (gone : List Nat) (o : Coll) : State :=
  let ranks := (List.range o.members.length).filter (fun i => gone.contains (o.members.getD i 0))
  if ranks.isEmpty then s
  else match o.join with
    | some j =>
      if j.q ≤ s.fabric.members.length then s.modColl o.id (fun o =>
        { o with evicted := o.evicted ++ ranks, unacked := o.unacked.filter (fun p => !ranks.contains p.2) })
      else s.failColl o cMemberSilent 0
    | none => s.failColl o cMemberSilent 0

/-- An announcement expects nothing more of some nodes. -/
def Announce.without (a : Announce) (gone : List Nat) : Announce :=
  { a with waiting := a.waiting.filter (fun n => !gone.contains n) }

/-- Some nodes leave the group: with them their limits and announcements, and what was still expected of them. -/
def Fabric.forget (f : Fabric) (gone : List Nat) : Fabric :=
  let keep := f.announces.filter (fun (a : Announce) => !gone.contains a.node)
  { f with
    members := f.members.filter (fun n => !gone.contains n)
    limits := gone.foldl tblDel f.limits
    announces := keep.map (fun (a : Announce) => a.without gone)
    unacked := (f.unacked.map (fun (a : Announce) => a.without gone)).filter (fun a => !a.waiting.isEmpty)
    known := f.known.filter (fun (a : Announce) => !gone.contains a.node)
    grantsEarly := f.grantsEarly.filter (fun g => !gone.contains g.1 && !gone.contains g.2.1)
    admits := f.admits.map (fun p => (p.1, p.2.1, p.2.2.filter (fun n => !gone.contains n)))
    seq := f.seq + 1 }

/-- A window store is on its way to one of some nodes. -/
def PendStore.bound (w : PendStore) (gone : List Nat) : Bool := w.fabric.any (fun n => gone.contains n)

/-- Transfers of some nodes that no collective in flight awaits are discarded (R342). -/
def State.dropStaged (s : State) (gone : List Nat) : State :=
  { s with cores := s.cores.map (fun (p : Nat × Core) => (p.1, { p.2 with staging := p.2.staging.filter (fun t =>
      !(t.node.any (fun n => gone.contains n)) || (s.claimant p.1 t).isSome) })) }

/-- Members are evicted, in one SEQ step: the ceiling drops to the floor, stores in flight to them are discarded and
counted, collectives that include them fault or fill (R326, R342). -/
def State.evict (s : State) (gone : List Nat) : State :=
  let lost := (s.stores.filter (fun w => w.bound gone)).length
  let f := s.fabric.forget gone
  let t : State := { s with
    stores := s.stores.filter (fun w => !w.bound gone)
    fabric := { f with
      lost := BitVec.ofNat 32 (min (f.lost.toNat + lost) (2 ^ 32 - 1))
      floor := true
      evict := BitVec.ofNat 16 (min (f.evict.toNat + gone.length) 0xFFFF) } }
  ((t.colls.filter (fun o => !o.done)).foldl (fun (s : State) o => s.loseMembers gone o) t).dropStaged gone

/-- The members not heard for 300 µs (R342). -/
def State.silent (s : State) : List Nat :=
  s.fabric.others.filter (fun n => decide (tblGet s.fabric.heard n 0 + 300000 ≤ s.time))

/-- MEMBER_EVICTION: a member is silent; all that are silent by now go in one step. A module that hears none becomes a
group of one (R342). -/
def execMemberEviction (node : Nat) (s : State) : Host.Outcome State Fault Refusal :=
  happen (if s.part.fabric && s.silent.contains node then s.evict s.silent else s)

/-- HEARTBEAT_SEND: every 100 µs; with it the announcements that some member has not acknowledged or granted (R341,
R342). -/
def execHeartbeatSend (s : State) : Host.Outcome State Fault Refusal :=
  happen (if !s.grouped || decide (s.time < s.fabric.sentAt + 100000) then s
    else
      let t := (s.modFabric (fun f => { f with sentAt := s.time })).emit
        (.heartbeat s.fabric.seq.toNat s.ownLimit s.fabric.members)
      let raises := s.fabric.announces.filter (fun a => a.node == s.fabric.node && a.raise && !a.waiting.isEmpty)
      let t := raises.foldl (fun (s : State) a => s.emit (.proposal a.limit a.at_)) t
      s.fabric.unacked.foldl (fun (s : State) a => s.emit (.lowering s.fabric.seq.toNat a.limit a.at_)) t)

/-! Joining and forming a group (R324, R343). -/

/-- The module becomes a member of a group, at a SEQ, with the limits it has been told. -/
def Fabric.adopt (f : Fabric) (seq : Nat) (members : List Nat) (time : Nat) : Fabric :=
  let ms := sortNodes members
  { f with
    members := ms
    seq := BitVec.ofNat 32 seq
    joining := false
    forming := none
    acks := []
    admits := []
    limits := f.acks.foldl (fun t (p : Nat × Nat × Nat) => tblSet t p.1 p.2.1) f.limits
    heard := ms.map (fun n => (n, time)) }

/-- The SEQ after the latest of those acknowledged: a joiner takes the members' next, modules that form a group the one after
all of theirs, this module's included. -/
def Fabric.nextSeq (f : Fabric) (own : Bool) : Nat :=
  (f.acks.map (fun p => p.2.2)).foldl max (if own then f.seq.toNat else 0) + 1

/-- Every one of some nodes other than this module has acknowledged. -/
def Fabric.allAcked (f : Fabric) (ms : List Nat) : Bool :=
  ms.all (fun n => n == f.node || (tblFind f.acks n).isSome)

/-- The modules that every member has acknowledged become members, each at the next SEQ (R343). -/
def State.admitReady (s : State) : State :=
  (s.fabric.admits.filter (fun p => p.2.2.isEmpty)).foldl (fun (s : State) (p : Nat × Nat × List Nat) =>
    s.modFabric (fun f =>
      { f with
        members := insertNode p.1 f.members
        seq := f.seq + 1
        limits := tblSet f.limits p.1 p.2.1
        heard := tblSet f.heard p.1 s.time
        admits := tblDel f.admits p.1 })) s

/-- JOIN_REQUEST of another module: this member acknowledges it with its limit, to it and to the other members (R343;
log 46). -/
def execJoinRequest (node limit : Nat) (s : State) : Host.Outcome State Fault Refusal :=
  let f := s.fabric
  happen (if !s.part.fabric || f.members.contains node || decide (256 ≤ node) then s
    else
      let t := s.emit (.joinAcknowledgement node s.ownLimit f.seq.toNat f.members)
      if (tblFind f.admits node).isSome then t
      else (t.modFabric (fun f =>
        { f with
          admits := tblSet f.admits node (limit, f.others.filter (fun n => !(tblGet f.early node []).contains n))
          early := tblDel f.early node })).admitReady)

/-- A member has acknowledged a request to join, with its limit, its SEQ and its members; or a module one to form a group.
The joiner is a member once every member has acknowledged it; an acknowledgement that comes before the request counts for it
(R343). -/
def State.joinKnown (s : State) (node joiner limit seq : Nat) (members : List Nat) : State :=
  let f := s.fabric
  if !s.part.fabric then s
  else match f.forming with
    | some ms =>
      if !ms.contains node then s
      else
        let f := { f with acks := tblSet f.acks node (limit, seq) }
        { s with fabric := if f.allAcked ms then f.adopt (f.nextSeq true) ms s.time else f }
    | none =>
      if f.joining && joiner == f.node then
        let f := { f with acks := tblSet f.acks node (limit, seq) }
        { s with fabric := if f.allAcked members then f.adopt (f.nextSeq false) (f.node :: members) s.time else f }
      else match tblFind f.admits joiner with
        | some (l, ws) => (s.modFabric (fun f =>
            { f with admits := tblSet f.admits joiner (l, ws.filter (fun n => n != node)) })).admitReady
        | none =>
          if f.members.contains joiner || !f.others.contains node then s
          else s.modFabric (fun f => { f with early := tblSet f.early joiner (insertNode node (tblGet f.early joiner [])) })

/-- A module asks the nodes of a group to form it: one that is in no group takes part, and tells its limit (R324). -/
def State.formWith (s : State) (node limit seq : Nat) (nodes : List Nat) : State :=
  let ms := sortNodes nodes
  if !s.part.fabric || s.grouped || !ms.contains s.fabric.node then s
  else
    let t := (s.emit (.joinAcknowledgement node s.ownLimit s.fabric.seq.toNat ms)).modFabric (fun f =>
      { f with forming := some ms, acks := if f.forming = some ms then f.acks else [] })
    t.joinKnown node node limit seq ms

/-- A copy of a member's grant table: up to 64 entries, aligned to 256 KiB within the exposed space (R325). -/
def State.keepGrants (s : State) (node : Nat) (es : List Grant) : State :=
  if s.part.fabric && decide (node < 256) && decide (es.length ≤ 64) && es.all (fun g =>
      g.lo % 2 ^ 18 == 0 && (g.hi + 1) % 2 ^ 18 == 0 && decide (g.lo ≤ g.hi) && decide (g.hi < 2 ^ 42)) then
    s.modFabric (fun f => { f with grants := tblSet f.grants node es })
  else s

/-! Heartbeats. -/

/-- HEARTBEAT of a member; one with a newer SEQ that no longer names this module tells it of its own eviction, and one that
no longer names other members tells it of theirs (R342). -/
def execHeartbeat (node seq limit : Nat) (members : List Nat) (s : State) : Host.Outcome State Fault Refusal :=
  let f := s.fabric
  let newer := decide (0 < seqDiff (BitVec.ofNat 32 seq) f.seq)
  let gone := f.others.filter (fun n => !members.contains n)
  let note := fun (s : State) => s.modFabric (fun f =>
    { f with
      heard := tblSet f.heard node s.time
      limits := if (tblFind f.limits node).isSome then f.limits else tblSet f.limits node limit })
  happen (if !s.part.fabric || node == f.node || !f.members.contains node then s
    else if newer && !members.contains f.node then s.evict f.others
    else if newer && !gone.isEmpty then
      note ((s.evict gone).modFabric (fun f => { f with seq := BitVec.ofNat 32 seq }))
    else note s)

/-- DEPARTURE: another member leaves at once; this module, once its own collectives have completed (R343). -/
def execDeparture (node : Nat) (s : State) : Host.Outcome State Fault Refusal :=
  happen (if !s.grouped || !s.fabric.members.contains node then s
    else if node != s.fabric.node then s.modFabric (fun f => f.forget [node])
    else if s.fabric.leaving && s.colls.all (·.done) then
      (s.modFabric (fun f => { f.forget f.others with leaving := false })).emit .departure
    else s)

/-! The window (R325, R326). -/

/-- The grant of this module's exposed space that admits an access, with the first byte's physical address. -/
def State.exposed (s : State) (off n : Nat) (wr : Bool) : Option Nat :=
  (s.grantOf s.fabric.node off).bind (fun g =>
    if (if wr then g.write else g.read) && decide (off + n ≤ g.hi + 1) &&
        g.key.all (fun k => (tblFind s.rontal.keys k).isSome) then
      some (g.base + (off - g.lo))
    else none)

/-- An access to package memory by an agent outside the cores, at a physical address: what it reads, and the state it
leaves. Operation 0 reads, 1 writes, 2 + k is the atomic k; a write is never reported as a race (R92, R274). -/
def State.foreign (s : State) (pa op n data : Nat) (cmp : Word) : Nat × State :=
  let old := memRead s.mem pa n
  if op = 0 then (old, s)
  else
    let new := if op = 1 then data else atomicNew (op - 2) n old data cmp.toNat
    (old, (List.range ((pa + n - 1) / 64 - pa / 64 + 1)).foldl (fun (s : State) i => s.raceForeign (pa + 64 * i))
      (s.store pa n new))

/-- FABRIC_WINDOW_ACCESS by another member (R325, R326). -/
def execFabricWindowAccess (node op : BitVec 8) (offset size : Nat) (data cmp : BitVec 64) (s : State) :
    Host.Outcome State Fault Refusal :=
  happen (if !s.part.fabric || !s.fabric.others.contains node.toNat || decide (11 < op.toNat) then s
    else match s.exposed offset size (op != 0#8) with
      | none => s
      | some pa =>
        let (old, t) := s.foreign pa op.toNat size data.toNat cmp
        if op = 1#8 then t else t.emit (.windowReply node.toNat (BitVec.ofNat 64 old)))

/-- WINDOW_ACCESS_TIMEOUT: 1 ms after its issue a window load or atomic completes with an error (R82, R326). -/
def execWindowAccessTimeout (id : Nat) (s : State) : Host.Outcome State Fault Refusal :=
  happen (match s.loads.find? (fun l => l.id == id) with
    | some l => if l.remote && decide (l.issued + 1000000 ≤ s.time) then s.landLoad { l with lost := true } else s
    | none => s)

end Sys2Proof.Machine
end

