-- ==== Sys2Proof/Machine/Csr.lean ====
section
/-! DEFINITION. Control and status registers: CSRR and CSRW (spec 01 R10, R23, R24; spec 03 R112; spec 07 R232,
R240; spec 09 R289, R293, R300; spec 12 R327, R344; spec 13 R345 to R363; spec 14 R388, R389). -/

namespace Sys2Proof.Machine

/-- Fields that lie at bit positions, none overlapping. -/
def fields (l : List (Nat × Nat)) : Word := BitVec.ofNat 64 ((l.map (fun p => p.1 * 2 ^ p.2)).sum)

def bit (b : Bool) : Nat := if b then 1 else 0

/-! Reads. -/

/-- CTX.SHQ (R24). -/
def Ctx.shqWord (x : Ctx) : Word := fields [(x.shadow.length, 0), ((x.bypass.filter (fun b => decide (b.left ≤ 3))).length, 4), (x.owed, 16)]

/-- TRP.CAUSE (R293). -/
def Trap.causeWord (t : Trap) : Word :=
  fields [(t.cause.toNat, 0), (bit t.async, 8), (t.fcode.toNat, 16), (t.engine.toNat, 24)]

/-- TRP.STAT (R293). -/
def Ctx.trapStatus (x : Ctx) : Word :=
  fields [((x.held.map (fun h => h.shadow.length)).getD 0, 4), ((x.held.map (fun h => h.bypass.length)).getD 0, 8),
    (x.trp.dleft.toNat, 12), (bit x.trp.xfer, 14), (bit (x.trp.pmode == .supervisor), 15), (bit x.inh, 16),
    (x.trp.stalls, 32)]

/-- A held entry as TRP.SHQ and TRP.BYP show it (R293). -/
def heldWord (f : RegFile) (r : BitVec 5) (left : Nat) : Word :=
  fields [(left, 0), (r.toNat, 9), (bit (f == .handle), 14), (1, 15)]

/-- TRP.SHQn: a write that lands after the step of which n remain counts that step too (R36). -/
def Ctx.heldWrite (x : Ctx) (n : Nat) : Word :=
  match (x.held.map (·.shadow)).getD [] |>.drop n |>.head? with
  | some w => heldWord w.file w.reg (w.left + 1)
  | none => 0

/-- TRP.BYPn (R293). -/
def Ctx.heldBypass (x : Ctx) (n : Nat) : Word :=
  match (x.held.map (·.bypass)).getD [] |>.drop n |>.head? with
  | some b => heldWord .scalar b.reg b.left
  | none => 0

/-- What the record of a context's join holds, or held when a JWAIT closed it (R300). -/
def State.joinShown (s : State) : Option (OpenJoin × Join) :=
  s.me.join.map (fun j => (j, match j.shut with | some v => joinOf v | none => s.joinAt j.lines))

/-- JQ.STAT (R300). -/
def State.joinStatus (s : State) : Word :=
  match s.joinShown with
  | none => 0
  | some (j, r) =>
    fields [(bit j.kill.isSome, 8), (bit j.arrived, 9), (r.state % 4, 10), (r.rule % 4, 15), (j.idx % 256, 17),
      (r.n % 512, 25), (r.q % 512, 34), (r.arrn % 512, 43)]

/-- Bits 64n + 63 to 64n of MAP. -/
def State.joinMap (s : State) (n : Nat) : Word :=
  match s.joinShown with
  | none => 0
  | some (_, r) => r.map.extractLsb' (64 * n) 64

/-- POL.VER (R240). -/
def State.polVer (s : State) : Word :=
  let p := s.polderOf s.cur
  let (pend, on) := s.pending p
  fields [((s.verOf s.cur).toNat, 0), (s.currentVer p, 16), (pend, 32), (bit on, 48)]

/-- VER.PUB (R240). -/
def State.verPub (s : State) : Word :=
  match s.published s.me.verPsel.toNat with
  | some v => fields [(v.toNat, 0), (1, 16)]
  | none => 0

/-- Least STEP held during the last 1 ms; a history entry is a step and the instant it began (R360). -/
def State.leastStep (s : State) (q : Nat) : Nat :=
  let x := s.cube q
  let from_ := s.time - 1000000
  let start := match (x.govHist.filter (fun e => decide (e.1 ≤ from_))).getLast? with
    | some e => e.2
    | none => 0
  ((x.govHist.filter (fun e => decide (from_ < e.1))).map (·.2)).foldl min start

/-- PWR.DIDT (R362). -/
def State.didtWord (s : State) (q : Nat) : Word :=
  let x := s.cube q
  fields [(x.didtLimit.toNat, 0), (x.istep.toNat, 32), (s.startLimit q % 65536, 48)]

/-- CLK.STAT of a core's region (R357). -/
def State.clockStatus (s : State) (k : Nat) : Word :=
  let r := s.region (regionOf k)
  fields [(r.bubble.toNat, 0), (s.ceiling, 16), (r.stretch.toNat, 32)]

/-- TEL.CTL (R365). -/
def State.telControl (s : State) : Word :=
  fields [(s.telRidx.toNat, 0), (s.telWidx.toNat, 16), (s.telSize.toNat, 32), (s.telLost.toNat, 48)]

/-- STK.LMAP of a cube; a withdrawn cube reads 0 through the Aqkin port (R347). -/
def State.layerMap (s : State) (q : Nat) : Word :=
  let x := s.cube q
  if x.withdrawn || decide (s.part.cubes ≤ q) then 0
  else fields ((List.range 8).map (fun l => (x.dieOf l, 4 * l)) ++ [(x.unused, 32), (bit (!x.failedDies.isEmpty), 40)])

/-- STK.WSCAP of a column (R352). -/
def State.wsCap (s : State) (k : Nat) : Word :=
  fields ((List.range 8).map (fun l => ((s.liveBanks k l).length, 5 * l)) ++ [(bit (s.column k).pend, 40)])

/-- STK.TEST (R349). -/
def Cube.testWord (x : Cube) : Word :=
  fields [(x.testPeriod.toNat, 0), (bit x.testEn, 8), (x.testRuns.toNat, 16), (x.testAborts.toNat, 32), (x.testFails.toNat, 48)]

/-- WS.DUE of a logical bank; one the column has lost reads 9,600 (R232, R351). -/
def State.wsDue (s : State) (k j : Nat) : Word :=
  match (s.liveBanks k (j / 16))[j % 16]? with
  | some b => BitVec.ofNat 64 (s.bankLeft (bankKey k (j / 16) b))
  | none => 9600#64

/-- A cube is present and not withdrawn. -/
def State.cubeLive (s : State) (q : Nat) : Bool := decide (q < s.part.cubes) && !(s.cube q).withdrawn

/-- Logical cores in the map of a cube (R388). -/
def State.coresIn (s : State) (q : Nat) : Nat :=
  if s.cubeLive q then ((List.range 96).filter (fun l => (s.mapped q l).isSome)).length else 0

/-- CAP.PART (R388). -/
def State.capPart (s : State) : Word :=
  fields [(s.rontal.rollback % 256, 0), (Config.stepping.toNat, 8), (if s.part.cubes = 2 then 0x4B02 else 0x4B01, 16)]

/-- CAP.UNITS (R388). -/
def State.capUnits (s : State) : Word :=
  fields [(bit (s.cubeLive 0), 0), (bit (s.cubeLive 1), 1), (bit (s.part.cubes == 2), 2), (bit s.part.fabric, 3),
    (bit s.hasTier2, 4), (bit s.part.race, 5), (bit s.part.cplx, 6), (s.part.ports, 8)]

/-- CAP.MEM (R388). -/
def State.capMem (s : State) : Word :=
  fields [(256 * s.part.cubes, 0), (if s.hasTier2 then 1536 * s.part.cubes else 0, 32)]

/-- What a control and status register reads to the context that executes (R24 and the rules above). -/
def State.csrRead (s : State) (n : Nat) : Word :=
  let x := s.me
  let k := coreOf s.cur
  let q := cubeOf s.cur
  let y := s.cube q
  match n with
  | 0x000 => BitVec.ofNat 64 (s.ctxId s.cur)
  | 0x001 => x.step
  | 0x002 => x.shqWord
  | 0x008 => fields [(bit x.scbEn, 0), (bit x.scbSkip, 1)]
  | 0x009 => fields [(x.scbReg.toNat, 0), (x.scbFile.toNat, 5), (x.scbLeft.toNat, 8)]
  | 0x00A => BitVec.ofNat 64 (s.rangesUsed k)
  | 0x100 => x.trp.last.causeWord
  | 0x101 => x.trp.pc
  | 0x102 => x.trapStatus
  | 0x103 => x.trp.last.addr
  | 0x104 => x.trp.tgt
  | 0x105 => x.trp.last.info
  | 0x106 => x.trp.scrA
  | 0x107 => x.trp.scrB
  | 0x120 => s.pdl.setWidth 64
  | 0x121 => y.spwCount.setWidth 64
  | 0x122 => BitVec.ofNat 64 (s.freeChunks q)
  | 0x123 => fields [((x.task.map (·.index)).getD 0 % 2 ^ 32, 0), (s.polderOf s.cur % 4096, 32)]
  | 0x200 => (x.openJoin.map (·.record)).getD 0
  | 0x201 => s.joinStatus
  | 0x300 => s.polVer
  | 0x301 => x.verPsel.setWidth 64
  | 0x302 => s.verPub
  | 0x303 => x.tokSeq.setWidth 64
  | 0x400 => y.fcast
  | 0x401 => s.didtWord q
  | 0x410 => fields [(y.govStep % 16, 0), (s.leastStep q % 16, 4), (y.govChg.toNat, 32)]
  | 0x411 => fields [(y.govPlim.toNat, 0), (y.govTlim.toNat, 16)]
  | 0x420 => BitVec.ofNat 64 s.time
  | 0x421 => s.clockStatus k
  | 0x430 => s.telBase
  | 0x431 => s.telControl
  | 0x440 => s.layerMap q
  | 0x441 => s.wsCap k
  | 0x442 => y.testWord
  | 0x500 => s.capPart
  | 0x501 => s.capUnits
  | 0x502 => fields [(s.coresIn 0, 0), (s.coresIn 1, 8)]
  | 0x503 => s.capMem
  | 0x600 => (s.column k).guard.setWidth 64
  | 0x601 => x.wsWver.setWidth 64
  | 0x700 => s.comThr.setWidth 64
  | 0x701 => s.fabNode
  | 0x702 => if s.part.fabric then s.fabric.lost.setWidth 64 else 0
  | 0x710 => s.weirCeil
  | 0x711 => s.weirSeq
  | 0x712 => BitVec.ofNat 64 (s.fabric.request % 4096)
  | _ =>
    if 0x004 ≤ n ∧ n < 0x008 then (x.loss.toList.getD (n - 4) 0).setWidth 64
    else if 0x108 ≤ n ∧ n < 0x110 then x.heldWrite (n - 0x108)
    else if 0x110 ≤ n ∧ n < 0x116 then x.heldBypass (n - 0x110)
    else if 0x204 ≤ n ∧ n < 0x208 then s.joinMap (n - 0x204)
    else if 0x610 ≤ n ∧ n < 0x620 then y.rga.toList.getD (n - 0x610) 0
    else if 0x620 ≤ n ∧ n < 0x630 then y.rgb.toList.getD (n - 0x620) 0
    else if 0x680 ≤ n ∧ n < 0x700 then s.wsDue k (n - 0x680)
    else 0

/-- CSRR: latency 2; a number that no chapter assigns traps ILLEGAL_OP (R23, R112). -/
def execCsrr (x : BitVec 5) (n : BitVec 12) (s : State) : Host.Outcome State Fault Refusal :=
  perform (need (csrOk n.toNat) (trapC cIllegalOp)) (fun _ => s.put x (s.csrRead n.toNat) 2) s

/-! Writes. -/

/-- Write one register of a vector. -/
def setReg {m : Nat} (v : Vector Word m) (n : Nat) (x : Word) : Vector Word m :=
  Vector.ofFn (fun i : Fin m => if i.val = n then x else v[i])

/-- Store a low-order field of a context's LOSS counter. -/
def Ctx.setLoss (x : Ctx) (n : Nat) (v : BitVec 32) : Ctx :=
  { x with loss := Vector.ofFn (fun i : Fin 4 => if i.val = n then v else x.loss[i]) }

/-- The fields of TRP.STAT that may be written (R293). -/
def TrapRegs.setStat (t : TrapRegs) (v : Word) : TrapRegs :=
  { t with
    pmode := if v.getLsbD 15 then .supervisor else .user
    xfer := v.getLsbD 14
    dleft := v.extractLsb' 12 2 }

/-- GOV.CTL (R360). -/
def Cube.setGovernor (x : Cube) (v : Word) : Cube :=
  { x with
    govTlim := BitVec.ofNat 8 (max 60 (min 100 (bitsOf v.toNat 23 16)))
    govPlim := if v.setWidth 16 = 0#16 then 1 else v.setWidth 16 }

/-- WS.RGB: the reserved bits read 0, and an ILV of 3 stores 0 (R232). -/
def rgbWritten (v : Word) : Word := noThree (v &&& 0xFFF0000000007F73#64) 0

/-- Write a control and status register in the scope of the context that executes, under its access codes: what is RO
in both modes stays as it is (R10, R23, R112). -/
def State.csrWrite (s : State) (n : Nat) (v : Word) : State :=
  let q := cubeOf s.cur
  match n with
  | 0x001 => s.modMe (fun x => { x with step := v })
  | 0x008 => s.modMe (fun x => { x with scbEn := v.getLsbD 0, scbSkip := v.getLsbD 1 })
  | 0x009 => s.modMe (fun x =>
      { x with scbLeft := v.extractLsb' 8 8, scbFile := v.extractLsb' 5 1, scbReg := v.setWidth 5 })
  | 0x101 => s.modMe (fun x => { x with trp.pc := v })
  | 0x102 => s.modMe (fun x => { x with trp := x.trp.setStat v })
  | 0x104 => s.modMe (fun x => { x with trp.tgt := v })
  | 0x106 => s.modMe (fun x => { x with trp.scrA := v })
  | 0x107 => s.modMe (fun x => { x with trp.scrB := v })
  | 0x120 => { s with pdl := v.setWidth 32 }
  | 0x301 => s.modMe (fun x => { x with verPsel := v.setWidth 8 })
  | 0x401 => s.modCube q (fun x => { x with didtLimit := v.setWidth 16 })
  | 0x411 => s.modCube q (fun x => x.setGovernor v)
  | 0x430 => { s with telBase := v &&& ~~~0x3F#64 }
  | 0x431 => { s with telSize := v.extractLsb' 32 4, telRidx := v.setWidth 16 }
  | 0x442 => s.modCube q (fun x => { x with testEn := v.getLsbD 8, testPeriod := v.setWidth 8 })
  | 0x601 => s.modMe (fun x => { x with wsWver := v.setWidth 16 })
  | 0x700 => { s with comThr := v.setWidth 8 }
  | 0x712 => s.requestLimit (v.setWidth 12).toNat
  | _ =>
    if 0x004 ≤ n ∧ n < 0x008 then s.modMe (fun x => x.setLoss (n - 4) (v.setWidth 32))
    else if 0x611 ≤ n ∧ n < 0x620 then s.modCube q (fun x => { x with rga := setReg x.rga (n - 0x610) (v &&& ~~~0xFF#64) })
    else if 0x621 ≤ n ∧ n < 0x630 then s.modCube q (fun x => { x with rgb := setReg x.rgb (n - 0x620) (rgbWritten v) })
    else s

/-- CSRW: PRIV in user mode for a supervisor-writable register (R23, R112). -/
def execCsrw (x : BitVec 5) (n : BitVec 12) (s : State) : Host.Outcome State Fault Refusal :=
  perform (do
    need (csrOk n.toNat) (trapC cIllegalOp)
    need (s.me.mode == .supervisor || !csrSupervisor n.toNat) (trapC cPriv)) (fun _ => s.csrWrite n.toNat (s.sr x)) s

/-- PWR_DIDT: the limit of a cube; S follows from it (R362). -/
def execPwrDidt (cube : Nat) (limit : BitVec 16) (s : State) : Host.Outcome State Fault Refusal :=
  happen (s.modCube cube (fun x => { x with didtLimit := limit }))

end Sys2Proof.Machine
end

