-- ==== Sys2Proof/Machine/Vector.lean ====
section
/-! DEFINITION. The vector engine (spec 05 R144 to R163, R170 to R173): issue of its words and the completion
of its operations. -/

namespace Sys2Proof.Machine

/-! Issue. -/

def eVector : BitVec 5 := 1#5

/-- A floating modifier matches a FMT (R146); 3 is `.i32` where it is allowed (R156, R162). -/
def fpMatch (f : BitVec 2) (fmt : Nat) : Bool :=
  match f.toNat with
  | 0 => fmt == 0
  | 1 => fmt == 1
  | 2 => fmt == 2 || fmt == 3
  | _ => fmt == 8

/-- An integer modifier matches a FMT (R146). -/
def intMatch (f : BitVec 2) (fmt : Nat) : Bool :=
  match f.toNat with
  | 0 => fmt == 8
  | 1 => fmt == 7
  | _ => fmt == 6

/-- A source that is read by broadcast suits the lane handle (R145). -/
def broadcasts (src lane : Handle) : Bool :=
  (List.range 4).all (fun k => hExt src k == hExt lane k || hExt src k == 1)

/-- A VCVT pairing (R125). -/
def converts (src dst : Nat) : Bool :=
  let plain := fun (f : Nat) => f == 0 || f == 1 || f == 2 || (decide (6 ≤ f) && decide (f ≤ 9))
  (src == 3 && dst == 3) || (plain src && plain dst)

/-- A handle operand of these engines has the right form (R20, R146). -/
def formOk (kinds : List Nat) (q : Bool) (h : Handle) : Bool :=
  handleOk h && kinds.contains (hKind h) && isLocal (hBase h) && !hW h && hQ h == q

def sourceKinds : List Nat := [kPlain, kStream]

/-- What a vector word asks of issue: its destination handle if it has one, whether that is quantised, its
sources by role and register, whether formats and extents agree, whether it may produce a chain entry
(R171), whether it reads its destination, and a scalar that it takes. -/
structure VecWord where
  instr : Instr
  dst : Option (BitVec 5)
  dstQ : Bool := false
  srcs : List (Nat × BitVec 5 × Bool)
  ok : Bool
  produces : Bool := true
  fused : Bool := false
  val : Word := 0

/-- The chain queue that vector.cfg.COUT selects (R151, R170). -/
def vecQueue (vcfg : Word) : Option Nat :=
  match bitsOf vcfg.toNat 5 4 with
  | 1 => some 0
  | 2 => some 1
  | _ => none

/-- The queue a word produces into, if it produces (R171). -/
def State.vecOut (s : State) (v : VecWord) : Option Nat := if v.produces then vecQueue s.me.eng.vcfg else none

/-- The checks and the waits of a vector word (R144 to R146, R160, R161, R171 to R173). The destination c of a fused form
that produces into a queue is checked in full and holds a busy range, since its z elements are read from the
scratchpad all the same (the model's choice, log 66). -/
def State.vecCheck (s : State) (v : VecWord) : Chk (List Arg) := do
  let out := s.vecOut v
  let desc := out.isSome && !v.fused
  let dh := v.dst.map s.hr
  need (v.ok && dh.all (fun h => if desc then descOk h && !hQ h else formOk [kPlain] v.dstQ h) &&
    v.srcs.all (fun p => formOk sourceKinds p.2.2 (s.hr p.2.1))) (trapE eVector fHandleForm)
  let cs ← match v.dst with
    | none => pure []
    | some r =>
      if desc then pure [descArg 0 (s.hr r)]
      else do
        let a ← s.localArg eVector 0 [kPlain] v.dstQ (s.hr r) r
        pure [a]
  let as ← v.srcs.mapM (fun p => s.localArg eVector p.1 sourceKinds p.2.2 (s.hr p.2.1) p.2.1)
  let quant := (v.dst.toList.filter (fun _ => v.dstQ)).map (fun r => (4, r)) ++
    (v.srcs.filter (fun p => p.2.2)).map (fun p => (p.1 + 4, p.2.1))
  let gs ← quant.mapM (fun p => s.scaleArg eVector p.1 (s.hr p.2))
  let named := (if desc then [] else v.dst.toList) ++ v.srcs.map (fun p => p.2.1) ++
    quant.map (fun p => hScale (s.hr p.2))
  let _ ← named.mapM (fun r => checkDropped r (s.hr r))
  let args := cs ++ as ++ gs
  s.canIssue 1 args
  await (out.all s.queueRoom)
  pure args

/-- Issue of a vector word. -/
def State.vecWord (s : State) (v : VecWord) : Host.Outcome State Fault Refusal :=
  performOn eVector (s.vecCheck v) (fun args =>
    let n := s.seq
    let out := s.vecOut v
    let s' := s.issueOp 1 v.instr args (fun o => { o with val := v.val, chainOut := out })
    match out, v.dst with
    | some q, some r => s'.reserveEntry q n (s.hr r)
    | _, _ => s') s

/-- A word over lanes of c with sources a and b. -/
def State.vecBinary (s : State) (i : Instr) (c a b : BitVec 5) (fits : Nat → Bool) (fused : Bool := false) :
    Host.Outcome State Fault Refusal :=
  let hc := s.hr c
  s.vecWord
    { instr := i, dst := some c, srcs := [(1, a, false), (2, b, false)], fused := fused
      ok := fits (hFmt hc) && fits (hFmt (s.hr a)) && fits (hFmt (s.hr b)) && decide (countOf hc ≤ 1024) &&
        broadcasts (s.hr a) hc && broadcasts (s.hr b) hc }

/-- A word over lanes of c with source a. -/
def State.vecUnary (s : State) (i : Instr) (c a : BitVec 5) (fits : Nat → Nat → Bool) :
    Host.Outcome State Fault Refusal :=
  let hc := s.hr c
  s.vecWord
    { instr := i, dst := some c, srcs := [(1, a, false)]
      ok := fits (hFmt hc) (hFmt (s.hr a)) && decide (countOf hc ≤ 1024) && broadcasts (s.hr a) hc }

/-- A compare: lanes of a, predicate p (R156). -/
def State.vecCompare (s : State) (i : Instr) (a b : BitVec 5) (f : BitVec 2) : Host.Outcome State Fault Refusal :=
  let ha := s.hr a
  s.vecWord
    { instr := i, dst := none, srcs := [(1, a, false), (2, b, false)], produces := false
      ok := fpMatch f (hFmt ha) && fpMatch f (hFmt (s.hr b)) && decide (countOf ha ≤ 1024) &&
        broadcasts (s.hr b) ha }

/-- A word over predicates alone (R157). -/
def State.vecPred (s : State) (i : Instr) : Host.Outcome State Fault Refusal :=
  s.vecWord { instr := i, dst := none, srcs := [], produces := false, ok := true }

/-- A reduction: lanes of a into element 0 of c (R162). -/
def State.vecReduce (s : State) (i : Instr) (c a : BitVec 5) (f : BitVec 2) : Host.Outcome State Fault Refusal :=
  s.vecWord
    { instr := i, dst := some c, srcs := [(1, a, false)], produces := false
      ok := fpMatch f (hFmt (s.hr c)) && fpMatch f (hFmt (s.hr a)) && decide (countOf (s.hr a) ≤ 1024) }

/-! Values. -/

/-- A floating operation of two operands on encodings of a FMT, rounded once (R152). -/
def fpBin (fmt : Nat) (g : Num → Num → Num) (x y : Nat) : Nat :=
  match ffmtOf fmt with
  | some f => (g (f.value x) (f.value y)).bits f .rne
  | none => 0

/-- A floating operation of one operand. -/
def fpUn (fmt : Nat) (g : Num → Num) (x : Nat) : Nat := fpBin fmt (fun a _ => g a) x 0

/-- A fused operation: the exact product and a third operand (R154). -/
def fpTri (fmt : Nat) (g : Num → Num → Num) (x y z : Nat) : Nat :=
  match ffmtOf fmt with
  | some f => (g ((f.value x).mul (f.value y)) (f.value z)).bits f .rne
  | none => 0

/-- Width of an integer FMT. -/
def intWidth (fmt : Nat) : Nat := ((ifmtOf fmt).map (·.1)).getD 32

/-- An integer operation on k-bit two's complement (R155). -/
def intBin (fmt : Nat) (g : Nat → Int → Int → Int) (x y : Nat) : Nat :=
  let k := intWidth fmt
  intBits k (g k (intOf k true x) (intOf k true y))

/-- Saturate to k bits (R155). -/
def saturate (k : Nat) (v : Int) : Int := clampInt v (-(2 ^ (k - 1))) (2 ^ (k - 1) - 1)

/-- The index of a source element that lane index i reads (R145). -/
def bcast (src lane : Handle) (i : Idx) : Idx :=
  { i0 := if hExt src 0 = hExt lane 0 then i.i0 else 0
    i1 := if hExt src 1 = hExt lane 1 then i.i1 else 0
    i2 := if hExt src 2 = hExt lane 2 then i.i2 else 0
    i3 := if hExt src 3 = hExt lane 3 then i.i3 else 0 }

/-- The index of linear element k of a handle (R144, R163). -/
def unlinear (h : Handle) (k : Nat) : Idx :=
  { i0 := k % hExt h 0
    i1 := k / hExt h 0 % hExt h 1
    i2 := k / (hExt h 0 * hExt h 1) % hExt h 2
    i3 := k / (hExt h 0 * hExt h 1 * hExt h 2) }

/-- The index 32-bit signed operand y names in a tensor of n elements (R163). -/
def linearIn (y n : Nat) : Option Nat :=
  let k := intOf 32 true y
  if 0 ≤ k ∧ k < n then some k.toNat else none

/-- The masking predicate of an operation, as it stands (R150). -/
def State.maskOf (s : State) (o : Op) : Pred := (s.ctx o.ctx).pred (o.regs.vcfg.toNat % 8)

/-- The flag M of a vector word (R70). -/
def Op.masked (o : Op) : Bool := (encode o.instr).getLsbD 0

/-- Lane j is active (R150). -/
def State.active (s : State) (o : Op) (j : Nat) : Bool := !o.masked || (s.maskOf o).getLsbD j

/-- The elements that lane j reads (R145, R152, R163). -/
def State.laneReads (s : State) (o : Op) (j : Nat) (i : Idx) : List (Opnd × Idx) :=
  let c := o.arg 0
  let a := o.arg 1
  let b := o.arg 2
  let x := (a, bcast a.h c.h i)
  let y := (b, bcast b.h c.h i)
  match o.instr with
  | .vfma _ _ _ _ _ | .vfms _ _ _ _ _ | .vfnma _ _ _ _ _ => [x, y, (c, i)]
  | .vgather _ _ _ _ =>
    match linearIn (s.element y.1 y.2) (countOf a.h) with
    | some k => [y, (a, unlinear a.h k)]
    | none => [y]
  | .vperm _ _ _ _ =>
    let k := s.element y.1 y.2 % 1024
    if k < countOf a.h then [y, (a, unlinear a.h k)] else [y]
  | .vsel _ _ _ => if (s.maskOf o).getLsbD j then [x] else [y]
  | .vfill _ _ _ | .viota _ _ => []
  | .vdq _ _ _ => [x, (o.arg 5, { i with i0 := i.i0 / groupSize (hDepth a.h) })]
  | .vabs _ _ _ _ | .vneg _ _ _ _ | .vrcp _ _ _ | .vrsq _ _ _ | .vexp2 _ _ _ | .vlog2 _ _ _ | .vcvt _ _ _ _
  | .vmov _ _ _ => [x]
  | _ => [x, y]

/-- What lane j of an elementwise operation, a conversion or a move writes (R153 to R155, R158, R159, R161, R163). -/
def State.laneValue (s : State) (o : Op) (j : Nat) (i : Idx) : Nat :=
  let c := o.arg 0
  let a := o.arg 1
  let b := o.arg 2
  let fc := hFmt c.h
  let x := s.element a (bcast a.h c.h i)
  let y := s.element b (bcast b.h c.h i)
  let z := s.element c i
  match o.instr with
  | .vaddFp _ _ _ _ _ => fpBin fc Num.add x y
  | .vsubFp _ _ _ _ _ => fpBin fc Num.sub x y
  | .vmulFp _ _ _ _ _ => fpBin fc Num.mul x y
  | .vminFp _ _ _ _ _ => fpBin fc Num.minimum x y
  | .vmaxFp _ _ _ _ _ => fpBin fc Num.maximum x y
  | .vfma _ _ _ _ _ => fpTri fc Num.add x y z
  | .vfms _ _ _ _ _ => fpTri fc Num.sub x y z
  | .vfnma _ _ _ _ _ => fpTri fc (fun p z => z.sub p) x y z
  | .vabs _ _ _ _ => fpUn fc Num.abs x
  | .vneg _ _ _ _ => fpUn fc Num.neg x
  | .vrcp _ _ _ => fpUn fc recip x
  | .vrsq _ _ _ => fpUn fc rsqrt x
  | .vexp2 _ _ _ => fpUn fc exp2 x
  | .vlog2 _ _ _ => fpUn fc log2 x
  | .vaddInt _ _ _ _ _ => intBin fc (fun _ a b => a + b) x y
  | .vsubInt _ _ _ _ _ => intBin fc (fun _ a b => a - b) x y
  | .vmulInt _ _ _ _ _ => intBin fc (fun _ a b => a * b) x y
  | .vminInt _ _ _ _ _ => intBin fc (fun _ a b => min a b) x y
  | .vmaxInt _ _ _ _ _ => intBin fc (fun _ a b => max a b) x y
  | .vadds _ _ _ _ _ => intBin fc (fun k a b => saturate k (a + b)) x y
  | .vsubs _ _ _ _ _ => intBin fc (fun k a b => saturate k (a - b)) x y
  | .vand _ _ _ _ _ => x &&& y
  | .vor _ _ _ _ _ => x ||| y
  | .vxor _ _ _ _ _ => x ^^^ y
  | .vshl _ _ _ _ _ => x * 2 ^ (y % intWidth fc) % 2 ^ intWidth fc
  | .vsra _ _ _ _ _ => intBin fc (fun k a _ => a / 2 ^ (y % k)) x y
  | .vsrl _ _ _ _ _ => x / 2 ^ (y % intWidth fc)
  | .vsel _ _ _ => if (s.maskOf o).getLsbD j then x else y
  | .vcvt _ _ r _ => convert (rndOf r) (hFmt a.h) fc x
  | .vdq _ _ _ =>
    dequantise (hFmt a.h) x (s.element (o.arg 5) { i with i0 := i.i0 / groupSize (hDepth a.h) })
  | .vgather _ _ _ _ =>
    match linearIn y (countOf a.h) with
    | some k => s.element a (unlinear a.h k)
    | none => 0
  | .vperm _ _ _ _ =>
    if y % 1024 < countOf a.h then s.element a (unlinear a.h (y % 1024)) else 0
  | .vmov _ _ _ => x
  | .vfill _ _ _ => o.val.toNat % 2 ^ (8 * fmtBytes fc)
  | .viota _ _ => match ffmtOf fc with
    | some f => (Num.ofNat j).bits f .rne
    | none => convert .rne 8 fc j
  | _ => 0

/-- The relation of a compare (R156). -/
def relation (i : Instr) (fmt x y : Nat) : Bool :=
  match ffmtOf fmt with
  | some f =>
    let a := f.value x
    let b := f.value y
    match i with
    | .vcmpEq _ _ _ _ _ => a.eqv b
    | .vcmpNe _ _ _ _ _ => !a.eqv b
    | .vcmpLt _ _ _ _ _ => a.lt b
    | .vcmpLe _ _ _ _ _ => a.lt b || a.eqv b
    | .vcmpGt _ _ _ _ _ => b.lt a
    | .vcmpGe _ _ _ _ _ => b.lt a || a.eqv b
    | _ => a.isNan || b.isNan
  | none =>
    let a := intOf 32 true x
    let b := intOf 32 true y
    match i with
    | .vcmpEq _ _ _ _ _ => a == b
    | .vcmpNe _ _ _ _ _ => a != b
    | .vcmpLt _ _ _ _ _ => decide (a < b)
    | .vcmpLe _ _ _ _ _ => decide (a ≤ b)
    | .vcmpGt _ _ _ _ _ => decide (b < a)
    | .vcmpGe _ _ _ _ _ => decide (b ≤ a)
    | _ => false

/-- A predicate from its bits. -/
def predOf (f : Nat → Bool) : Pred :=
  BitVec.ofNat 1024 ((List.range 1024).foldl (fun v j => if f j then v + 2 ^ j else v) 0)

/-- Set a predicate of a context. -/
def Ctx.setPred (x : Ctx) (p : Nat) (v : Pred) : Ctx :=
  { x with preds := Vector.ofFn (fun i : Fin 8 => if i.val = p then v else x.preds[i]) }

/-! Completion. -/

/-- An elementwise operation, a conversion or a move: into scratchpad, or into the chain entry reserved for it
(R147, R152, R171). -/
def State.vecElementwise (s : State) (o : Op) : State :=
  let c := o.arg 0
  let lanes := (indices c.h).zipIdx
  let live := lanes.filter (fun l => s.active o l.2)
  let bad := live.findSome? (fun l => (s.laneReads o l.2 l.1).findSome? (fun r => s.badElement r.1 [r.2]))
  match o.chainOut with
  | some q =>
    match bad with
    | some a => (s.fillEntry o.core q o.id [BitVec.ofNat 32 o.id] true).opError o a (some o.id)
    | none =>
      let data := lanes.map (fun l => if s.active o l.2 then BitVec.ofNat 32 (s.laneValue o l.2 l.1) else 0#32)
      (s.fillEntry o.core q o.id data false).retire o
  | none =>
    match bad with
    | some a => s.opError o a
    | none => (s.poke (live.flatMap (fun l => c.pokes l.1 (s.laneValue o l.2 l.1)))).retire o

/-- A compare (R149, R156). -/
def State.vecComparison (s : State) (o : Op) (p : BitVec 5) : State :=
  let a := o.arg 1
  let b := o.arg 2
  let lanes := (indices a.h).zipIdx
  let live := lanes.filter (fun l => s.active o l.2)
  match live.findSome? (fun l => (s.badElement a [l.1]).or (s.badElement b [bcast b.h a.h l.1])) with
  | some e => s.opError o e
  | none =>
    let old := (s.ctx o.ctx).pred p.toNat
    let v := predOf (fun j => match lanes[j]? with
      | none => false
      | some l =>
        if s.active o j then relation o.instr (hFmt a.h) (s.element a l.1) (s.element b (bcast b.h a.h l.1))
        else old.getLsbD j)
    (s.modCtx o.ctx (fun x => x.setPred p.toNat v)).retire o

/-- A word over predicates: bits off in the masking predicate keep their old values where M = 1 (R157). -/
def State.vecLogic (s : State) (o : Op) (p : BitVec 5) (v : Pred) : State :=
  let old := (s.ctx o.ctx).pred p.toNat
  let m := s.maskOf o
  let v := if o.masked then (v &&& m) ||| (old &&& ~~~m) else v
  (s.modCtx o.ctx (fun x => x.setPred p.toNat v)).retire o

/-- A scatter, in ascending lane order (R163). -/
def State.vecScattering (s : State) (o : Op) : State :=
  let c := o.arg 0
  let a := o.arg 1
  let b := o.arg 2
  let live := ((indices a.h).zipIdx).filter (fun l => s.active o l.2)
  match live.findSome? (fun l => (s.badElement a [l.1]).or (s.badElement b [bcast b.h a.h l.1])) with
  | some e => s.opError o e
  | none =>
    (s.poke (live.flatMap (fun l =>
      match linearIn (s.element b (bcast b.h a.h l.1)) (countOf c.h) with
      | some k => c.pokes (unlinear c.h k) (s.element a l.1)
      | none => []))).retire o

/-- The lanes of a reduction, absent ones at the identity, reduced by the tree (R137). -/
def reduction (i : Instr) (fmt : Nat) (v : Nat → Option Nat) : Nat :=
  match ffmtOf fmt with
  | some f =>
    let (op, unit) : (Num → Num → Num) × Num := match i with
      | .vrsum _ _ _ _ => (fun a b => (a.add b).r32, Num.zero)
      | .vrmax _ _ _ _ => (Num.maximum, .inf true)
      | _ => (Num.minimum, .inf false)
    let l := (List.range 1024).map (fun j => ((v j).map (fun b => (f.value b).r32)).getD unit)
    (((tree op 10 l).headD unit)).bits f .rne
  | none =>
    let (op, unit) : (Int → Int → Int) × Int := match i with
      | .vrsum _ _ _ _ => (fun a b => intOf 32 true (intBits 32 (a + b)), 0)
      | .vrmax _ _ _ _ => (max, -(2 ^ 31))
      | _ => (min, 2 ^ 31 - 1)
    let l := (List.range 1024).map (fun j => ((v j).map (intOf 32 true)).getD unit)
    intBits 32 ((tree op 10 l).headD unit)

/-- A reduction; without lanes it writes nothing (R144, R162). -/
def State.vecReduction (s : State) (o : Op) : State :=
  let a := o.arg 1
  let lanes := indices a.h
  let live := (lanes.zipIdx).filter (fun l => s.active o l.2)
  match s.badElement a (live.map (·.1)) with
  | some e => s.opError o e
  | none =>
    if lanes.isEmpty then s.retire o
    else
    let v := reduction o.instr (hFmt a.h) (fun j =>
      (lanes[j]?).bind (fun i => if s.active o j then some (s.element a i) else none))
    (s.poke ((o.arg 0).pokes ⟨0, 0, 0, 0⟩ v)).retire o

/-- The groups of a tensor: for each row of dimension 0 the runs of G consecutive elements, as a record index
and the element indices (R128). -/
def groupsOf (h : Handle) (g : Nat) : List (Idx × List Idx) :=
  (List.range (hExt h 3)).flatMap fun i3 => (List.range (hExt h 2)).flatMap fun i2 =>
    (List.range (hExt h 1)).flatMap fun i1 => (List.range ((hExt h 0 + g - 1) / g)).map fun n =>
      (⟨n, i1, i2, i3⟩, ((List.range g).map (fun j => n * g + j)).filterMap
        (fun i0 => if i0 < hExt h 0 then some ⟨i0, i1, i2, i3⟩ else none))

/-- Quantise into codes of c and records of its scale tensor g; `val` gives an element's value, none where it
takes no part (R131, R160). -/
def quantPokes (c g : Opnd) (val : Idx → Option Num) : List Poke :=
  (groupsOf c.h (groupSize (hDepth c.h))).flatMap (fun (n, is) =>
    let here := is.filterMap (fun i => (val i).map (fun v => (i, v)))
    if here.isEmpty then []
    else
      let (r, qs) := quantise (if hFmt c.h = 5 then 15 else 255) (here.map (·.2))
      (here.zip qs).flatMap (fun p => c.pokes p.1.1 p.2) ++ g.pokes n r)

/-- VQNT (R160). -/
def State.vecQuantise (s : State) (o : Op) : State :=
  let c := o.arg 0
  let a := o.arg 1
  let lanes := indices c.h
  let live := (lanes.zipIdx).filter (fun l => s.active o l.2)
  match s.badElement a (live.map (·.1)) with
  | some e => s.opError o e
  | none =>
    let on := live.map (·.1)
    (s.poke (quantPokes c (o.arg 4) (fun i =>
      if on.contains i then (ffmtOf (hFmt a.h)).map (fun f => f.value (s.element a i)) else none))).retire o

/-- A vector operation runs (R144 to R163). -/
def State.vecRun (s : State) (o : Op) : State :=
  let p := fun (n : BitVec 5) => (s.ctx o.ctx).pred n.toNat
  match o.instr with
  | .vcmpEq d _ _ _ _ | .vcmpNe d _ _ _ _ | .vcmpLt d _ _ _ _ | .vcmpLe d _ _ _ _ | .vcmpGt d _ _ _ _
  | .vcmpGe d _ _ _ _ | .vcmpUo d _ _ _ _ => s.vecComparison o d
  | .pand d a b _ => s.vecLogic o d (p a &&& p b)
  | .por d a b _ => s.vecLogic o d (p a ||| p b)
  | .pxor d a b _ => s.vecLogic o d (p a ^^^ p b)
  | .pnot d a _ => s.vecLogic o d (~~~(p a))
  | .pset d _ => s.vecLogic o d (BitVec.allOnes 1024)
  | .pclr d _ => s.vecLogic o d 0
  | .vscatter _ _ _ _ => s.vecScattering o
  | .vrsum _ _ _ _ | .vrmax _ _ _ _ | .vrmin _ _ _ _ => s.vecReduction o
  | .vqnt _ _ _ => s.vecQuantise o
  | _ => s.vecElementwise o

/-- VECTOR_OPERATION_COMPLETION: the operation is the oldest of its engine and the scalar accesses before it are
performed (R40, R250). -/
def execVectorOperationCompletion (id : Nat) (s : State) : Host.Outcome State Fault Refusal :=
  happen (match s.ready? 1 id with
    | some o => s.vecRun o
    | none => s)

/-! The words. -/

def execVaddFp (c : BitVec 5) (a : BitVec 5) (b : BitVec 5) (f : BitVec 2) (m : BitVec 1) (s : State) : Host.Outcome State Fault Refusal :=
  s.vecBinary (.vaddFp c a b f m) c a b (fpMatch f)
def execVsubFp (c : BitVec 5) (a : BitVec 5) (b : BitVec 5) (f : BitVec 2) (m : BitVec 1) (s : State) : Host.Outcome State Fault Refusal :=
  s.vecBinary (.vsubFp c a b f m) c a b (fpMatch f)
def execVmulFp (c : BitVec 5) (a : BitVec 5) (b : BitVec 5) (f : BitVec 2) (m : BitVec 1) (s : State) : Host.Outcome State Fault Refusal :=
  s.vecBinary (.vmulFp c a b f m) c a b (fpMatch f)
def execVminFp (c : BitVec 5) (a : BitVec 5) (b : BitVec 5) (f : BitVec 2) (m : BitVec 1) (s : State) : Host.Outcome State Fault Refusal :=
  s.vecBinary (.vminFp c a b f m) c a b (fpMatch f)
def execVmaxFp (c : BitVec 5) (a : BitVec 5) (b : BitVec 5) (f : BitVec 2) (m : BitVec 1) (s : State) : Host.Outcome State Fault Refusal :=
  s.vecBinary (.vmaxFp c a b f m) c a b (fpMatch f)
def execVfma (c : BitVec 5) (a : BitVec 5) (b : BitVec 5) (f : BitVec 2) (m : BitVec 1) (s : State) : Host.Outcome State Fault Refusal :=
  s.vecBinary (.vfma c a b f m) c a b (fpMatch f) true
def execVfms (c : BitVec 5) (a : BitVec 5) (b : BitVec 5) (f : BitVec 2) (m : BitVec 1) (s : State) : Host.Outcome State Fault Refusal :=
  s.vecBinary (.vfms c a b f m) c a b (fpMatch f) true
def execVfnma (c : BitVec 5) (a : BitVec 5) (b : BitVec 5) (f : BitVec 2) (m : BitVec 1) (s : State) : Host.Outcome State Fault Refusal :=
  s.vecBinary (.vfnma c a b f m) c a b (fpMatch f) true
def execVabs (c : BitVec 5) (a : BitVec 5) (f : BitVec 2) (m : BitVec 1) (s : State) : Host.Outcome State Fault Refusal :=
  s.vecUnary (.vabs c a f m) c a (fun d e => fpMatch f d && fpMatch f e)
def execVneg (c : BitVec 5) (a : BitVec 5) (f : BitVec 2) (m : BitVec 1) (s : State) : Host.Outcome State Fault Refusal :=
  s.vecUnary (.vneg c a f m) c a (fun d e => fpMatch f d && fpMatch f e)
def execVrcp (c : BitVec 5) (a : BitVec 5) (m : BitVec 1) (s : State) : Host.Outcome State Fault Refusal :=
  s.vecUnary (.vrcp c a m) c a (fun d e => d == 0 && e == 0)
def execVrsq (c : BitVec 5) (a : BitVec 5) (m : BitVec 1) (s : State) : Host.Outcome State Fault Refusal :=
  s.vecUnary (.vrsq c a m) c a (fun d e => d == 0 && e == 0)
def execVexp2 (c : BitVec 5) (a : BitVec 5) (m : BitVec 1) (s : State) : Host.Outcome State Fault Refusal :=
  s.vecUnary (.vexp2 c a m) c a (fun d e => d == 0 && e == 0)
def execVlog2 (c : BitVec 5) (a : BitVec 5) (m : BitVec 1) (s : State) : Host.Outcome State Fault Refusal :=
  s.vecUnary (.vlog2 c a m) c a (fun d e => d == 0 && e == 0)
def execVaddInt (c : BitVec 5) (a : BitVec 5) (b : BitVec 5) (f : BitVec 2) (m : BitVec 1) (s : State) : Host.Outcome State Fault Refusal :=
  s.vecBinary (.vaddInt c a b f m) c a b (intMatch f)
def execVsubInt (c : BitVec 5) (a : BitVec 5) (b : BitVec 5) (f : BitVec 2) (m : BitVec 1) (s : State) : Host.Outcome State Fault Refusal :=
  s.vecBinary (.vsubInt c a b f m) c a b (intMatch f)
def execVmulInt (c : BitVec 5) (a : BitVec 5) (b : BitVec 5) (f : BitVec 2) (m : BitVec 1) (s : State) : Host.Outcome State Fault Refusal :=
  s.vecBinary (.vmulInt c a b f m) c a b (intMatch f)
def execVminInt (c : BitVec 5) (a : BitVec 5) (b : BitVec 5) (f : BitVec 2) (m : BitVec 1) (s : State) : Host.Outcome State Fault Refusal :=
  s.vecBinary (.vminInt c a b f m) c a b (intMatch f)
def execVmaxInt (c : BitVec 5) (a : BitVec 5) (b : BitVec 5) (f : BitVec 2) (m : BitVec 1) (s : State) : Host.Outcome State Fault Refusal :=
  s.vecBinary (.vmaxInt c a b f m) c a b (intMatch f)
def execVadds (c : BitVec 5) (a : BitVec 5) (b : BitVec 5) (f : BitVec 2) (m : BitVec 1) (s : State) : Host.Outcome State Fault Refusal :=
  s.vecBinary (.vadds c a b f m) c a b (intMatch f)
def execVsubs (c : BitVec 5) (a : BitVec 5) (b : BitVec 5) (f : BitVec 2) (m : BitVec 1) (s : State) : Host.Outcome State Fault Refusal :=
  s.vecBinary (.vsubs c a b f m) c a b (intMatch f)
def execVand (c : BitVec 5) (a : BitVec 5) (b : BitVec 5) (f : BitVec 2) (m : BitVec 1) (s : State) : Host.Outcome State Fault Refusal :=
  s.vecBinary (.vand c a b f m) c a b (intMatch f)
def execVor (c : BitVec 5) (a : BitVec 5) (b : BitVec 5) (f : BitVec 2) (m : BitVec 1) (s : State) : Host.Outcome State Fault Refusal :=
  s.vecBinary (.vor c a b f m) c a b (intMatch f)
def execVxor (c : BitVec 5) (a : BitVec 5) (b : BitVec 5) (f : BitVec 2) (m : BitVec 1) (s : State) : Host.Outcome State Fault Refusal :=
  s.vecBinary (.vxor c a b f m) c a b (intMatch f)
def execVshl (c : BitVec 5) (a : BitVec 5) (b : BitVec 5) (f : BitVec 2) (m : BitVec 1) (s : State) : Host.Outcome State Fault Refusal :=
  s.vecBinary (.vshl c a b f m) c a b (intMatch f)
def execVsra (c : BitVec 5) (a : BitVec 5) (b : BitVec 5) (f : BitVec 2) (m : BitVec 1) (s : State) : Host.Outcome State Fault Refusal :=
  s.vecBinary (.vsra c a b f m) c a b (intMatch f)
def execVsrl (c : BitVec 5) (a : BitVec 5) (b : BitVec 5) (f : BitVec 2) (m : BitVec 1) (s : State) : Host.Outcome State Fault Refusal :=
  s.vecBinary (.vsrl c a b f m) c a b (intMatch f)
def execVcmpEq (p : BitVec 5) (a : BitVec 5) (b : BitVec 5) (f : BitVec 2) (m : BitVec 1) (s : State) : Host.Outcome State Fault Refusal :=
  s.vecCompare (.vcmpEq p a b f m) a b f
def execVcmpNe (p : BitVec 5) (a : BitVec 5) (b : BitVec 5) (f : BitVec 2) (m : BitVec 1) (s : State) : Host.Outcome State Fault Refusal :=
  s.vecCompare (.vcmpNe p a b f m) a b f
def execVcmpLt (p : BitVec 5) (a : BitVec 5) (b : BitVec 5) (f : BitVec 2) (m : BitVec 1) (s : State) : Host.Outcome State Fault Refusal :=
  s.vecCompare (.vcmpLt p a b f m) a b f
def execVcmpLe (p : BitVec 5) (a : BitVec 5) (b : BitVec 5) (f : BitVec 2) (m : BitVec 1) (s : State) : Host.Outcome State Fault Refusal :=
  s.vecCompare (.vcmpLe p a b f m) a b f
def execVcmpGt (p : BitVec 5) (a : BitVec 5) (b : BitVec 5) (f : BitVec 2) (m : BitVec 1) (s : State) : Host.Outcome State Fault Refusal :=
  s.vecCompare (.vcmpGt p a b f m) a b f
def execVcmpGe (p : BitVec 5) (a : BitVec 5) (b : BitVec 5) (f : BitVec 2) (m : BitVec 1) (s : State) : Host.Outcome State Fault Refusal :=
  s.vecCompare (.vcmpGe p a b f m) a b f
def execVcmpUo (p : BitVec 5) (a : BitVec 5) (b : BitVec 5) (f : BitVec 2) (m : BitVec 1) (s : State) : Host.Outcome State Fault Refusal :=
  s.vecCompare (.vcmpUo p a b f m) a b f
def execVsel (c : BitVec 5) (a : BitVec 5) (b : BitVec 5) (s : State) : Host.Outcome State Fault Refusal :=
  s.vecBinary (.vsel c a b) c a b (fun f => f == hFmt (s.hr c) && !hQ (s.hr c))
def execPand (p : BitVec 5) (q : BitVec 5) (r : BitVec 5) (m : BitVec 1) (s : State) : Host.Outcome State Fault Refusal :=
  s.vecPred (.pand p q r m)
def execPor (p : BitVec 5) (q : BitVec 5) (r : BitVec 5) (m : BitVec 1) (s : State) : Host.Outcome State Fault Refusal :=
  s.vecPred (.por p q r m)
def execPxor (p : BitVec 5) (q : BitVec 5) (r : BitVec 5) (m : BitVec 1) (s : State) : Host.Outcome State Fault Refusal :=
  s.vecPred (.pxor p q r m)
def execPnot (p : BitVec 5) (q : BitVec 5) (m : BitVec 1) (s : State) : Host.Outcome State Fault Refusal :=
  s.vecPred (.pnot p q m)
def execPset (p : BitVec 5) (m : BitVec 1) (s : State) : Host.Outcome State Fault Refusal :=
  s.vecPred (.pset p m)
def execPclr (p : BitVec 5) (m : BitVec 1) (s : State) : Host.Outcome State Fault Refusal :=
  s.vecPred (.pclr p m)
/-- Same extents in every dimension. -/
def sameExtents (g h : Handle) : Bool := extents g == extents h

def execVcvt (c : BitVec 5) (a : BitVec 5) (r : BitVec 2) (m : BitVec 1) (s : State) : Host.Outcome State Fault Refusal :=
  s.vecWord
    { instr := .vcvt c a r m, dst := some c, srcs := [(1, a, false)]
      ok := converts (hFmt (s.hr a)) (hFmt (s.hr c)) && sameExtents (s.hr c) (s.hr a) &&
        decide (countOf (s.hr c) ≤ 1024) }
def execVqnt (c : BitVec 5) (a : BitVec 5) (m : BitVec 1) (s : State) : Host.Outcome State Fault Refusal :=
  s.vecWord
    { instr := .vqnt c a m, dst := some c, dstQ := true, srcs := [(1, a, false)], produces := false
      ok := decide (hFmt (s.hr a) ≤ 2) && sameExtents (s.hr c) (s.hr a) && decide (countOf (s.hr c) ≤ 1024) }
def execVdq (c : BitVec 5) (a : BitVec 5) (m : BitVec 1) (s : State) : Host.Outcome State Fault Refusal :=
  s.vecWord
    { instr := .vdq c a m, dst := some c, srcs := [(1, a, true)]
      ok := hFmt (s.hr c) == 0 && sameExtents (s.hr c) (s.hr a) && decide (countOf (s.hr c) ≤ 1024) }
def execVrsum (c : BitVec 5) (a : BitVec 5) (f : BitVec 2) (m : BitVec 1) (s : State) : Host.Outcome State Fault Refusal :=
  s.vecReduce (.vrsum c a f m) c a f
def execVrmax (c : BitVec 5) (a : BitVec 5) (f : BitVec 2) (m : BitVec 1) (s : State) : Host.Outcome State Fault Refusal :=
  s.vecReduce (.vrmax c a f m) c a f
def execVrmin (c : BitVec 5) (a : BitVec 5) (f : BitVec 2) (m : BitVec 1) (s : State) : Host.Outcome State Fault Refusal :=
  s.vecReduce (.vrmin c a f m) c a f
def execVgather (c : BitVec 5) (a : BitVec 5) (b : BitVec 5) (m : BitVec 1) (s : State) : Host.Outcome State Fault Refusal :=
  let hc := s.hr c
  s.vecWord
    { instr := .vgather c a b m, dst := some c, srcs := [(1, a, false), (2, b, false)]
      ok := hFmt (s.hr a) == hFmt hc && hFmt (s.hr b) == 8 && decide (countOf hc ≤ 1024) &&
        broadcasts (s.hr b) hc }
def execVscatter (c : BitVec 5) (a : BitVec 5) (b : BitVec 5) (m : BitVec 1) (s : State) : Host.Outcome State Fault Refusal :=
  let ha := s.hr a
  s.vecWord
    { instr := .vscatter c a b m, dst := some c, srcs := [(1, a, false), (2, b, false)], produces := false
      ok := hFmt ha == hFmt (s.hr c) && hFmt (s.hr b) == 8 && decide (countOf ha ≤ 1024) &&
        broadcasts (s.hr b) ha }
def execVperm (c : BitVec 5) (a : BitVec 5) (b : BitVec 5) (m : BitVec 1) (s : State) : Host.Outcome State Fault Refusal :=
  let hc := s.hr c
  s.vecWord
    { instr := .vperm c a b m, dst := some c, srcs := [(1, a, false), (2, b, false)]
      ok := hFmt (s.hr a) == hFmt hc && hFmt (s.hr b) == 8 && decide (countOf hc ≤ 1024) &&
        decide (countOf (s.hr a) ≤ 1024) && broadcasts (s.hr b) hc }
def execVmov (c : BitVec 5) (a : BitVec 5) (m : BitVec 1) (s : State) : Host.Outcome State Fault Refusal :=
  s.vecUnary (.vmov c a m) c a (fun d e => d == e)
def execVfill (c : BitVec 5) (a : BitVec 5) (m : BitVec 1) (s : State) : Host.Outcome State Fault Refusal :=
  s.vecWord
    { instr := .vfill c a m, dst := some c, srcs := [], val := s.sr a, ok := decide (countOf (s.hr c) ≤ 1024) }
def execViota (c : BitVec 5) (m : BitVec 1) (s : State) : Host.Outcome State Fault Refusal :=
  s.vecWord
    { instr := .viota c m, dst := some c, srcs := [], ok := decide (countOf (s.hr c) ≤ 1024) }

end Sys2Proof.Machine
end

