-- ==== Sys2Proof/Machine/Cube.lean ====
section
/-! DEFINITION. The cube (spec 04 R138 to R143; spec 06 R175 to R203): checks and issue of its words, the start
and the completion of its operations. -/

namespace Sys2Proof.Machine

def eCube : BitVec 5 := 0#5

/-! The registers as issue reads them. -/

/-- The format entry that `cube.fsel` selects; none for an invalid LEVEL (R180, R194). -/
def Ctx.cubeEntry (x : Ctx) : Option Word :=
  let f := x.eng.cube.fsel.toNat
  let e := fun (n : Nat) => x.eng.cube.fmt.toList.getD (n % 16) 0
  if f.testBit 7 then
    let l := bitsOf f 6 4
    if 5 < l then none else some (e (x.loop l).index.toNat)
  else some (e f)

def entryA (e : Word) : Nat := bitsOf e.toNat 3 0
def entryB (e : Word) : Nat := bitsOf e.toNat 7 4
def entryG (e : Word) : Nat := bitsOf e.toNat 9 8
/-- The effective pair (R191). -/
def entryPair (e : Word) : BitVec 4 × BitVec 4 × BitVec 2 := (e.extractLsb' 0 4, e.extractLsb' 4 4, e.extractLsb' 8 2)
def quantised (f : Nat) : Bool := f == 4 || f == 5

/-- A pair of R182. -/
def pairOk (e : Word) : Bool :=
  let a := entryA e
  let b := entryB e
  let qa := quantised a
  let qb := quantised b
  ((a == b && decide (a ≤ 3)) || (a == 2 && qb) || (qa && b == 2) || (qa && qb)) && (!(qa || qb) || entryG e != 3)

def CubeRegs.m (q : CubeRegs) : Nat := bitsOf q.shape.toNat 5 0
def CubeRegs.n (q : CubeRegs) : Nat := bitsOf q.shape.toNat 13 8
def CubeRegs.k (q : CubeRegs) : Nat := bitsOf q.shape.toNat 28 16
def CubeRegs.stationary (q : CubeRegs) : Bool := q.mode.getLsbD 0
def CubeRegs.globalK (q : CubeRegs) : Bool := q.mode.getLsbD 1
def CubeRegs.rev (q : CubeRegs) : Bool := q.dir.getLsbD 0
def CubeRegs.accumulates (q : CubeRegs) : Bool := q.acc.getLsbD 0
def CubeRegs.layers (q : CubeRegs) : List Nat := layersOf (q.lmask.toNat % 256)
def CubeRegs.chunks (q : CubeRegs) : List (Nat × Nat × Nat) := chunksOf q.k q.layers

/-! Operands at issue. -/

/-- The index along dim 0 of reduction index k of a chunk (R183). -/
def CubeRegs.place (q : CubeRegs) (c : Nat × Nat × Nat) (x : Nat) : Nat := if q.globalK then c.2.1 + x else x

/-- The number of a list at which a measure is least. -/
def leastAt (f : Nat → Nat) : List Nat → Nat
  | [] => 0
  | [n] => n
  | n :: r => let m := leastAt f r; if f m < f n then m else n

/-- The first byte, and the one past the last, that n elements of dim 0 from lo on take in some rows of an operand, as far
as they lie inside its extents (log 27). Under a layout record a column and a row add to the place, in half bytes,
independently of each other (R264). -/
def Opnd.window (o : Opnd) (lo n rows : Nat) : Option (Nat × Nat) :=
  let hi := min (lo + n) (hExt o.h 0)
  let r := min rows (hExt o.h 1)
  if hi ≤ lo ∨ r = 0 then Option.none
  else if o.lay.isSome then
    let place := fun (i0 i1 : Nat) => let p := elemOff o.h o.lay { i0 := i0, i1 := i1 }; 2 * p.1 + p.2
    let cols := (List.range (hi - lo)).map (· + lo)
    let far := fun (f : Nat → Nat) (l : List Nat) => leastAt (fun n => (l.map f).foldl max 0 - f n) l
    let at_ := fun (i0 i1 : Nat) => (elemOff o.h o.lay { i0 := i0, i1 := i1 }).1
    some (at_ (leastAt (place · 0) cols) (leastAt (place 0 ·) (List.range r)),
      at_ (far (place · 0) cols) (far (place 0 ·) (List.range r)) + fmtBytes (hFmt o.h))
  else some ((elemOff o.h Option.none { i0 := lo }).1, (elemOff o.h Option.none { i0 := hi - 1, i1 := r - 1 }).1 + fmtBytes (hFmt o.h))

/-- The range of a face operand, from the lowest byte addressed on the lowest enabled layer to the highest on the highest
one (R39, R195); `g` elements of the reduction share one of the operand. -/
def CubeRegs.range (q : CubeRegs) (o : Opnd) (g rows : Nat) : List (Nat × Nat) :=
  let f := if hFmt o.h = 3 then 2 else 1
  let runs := q.chunks.filterMap (fun c =>
    let a := q.place c 0 / g
    let z := (q.place c 0 + c.2.2 + g - 1) / g
    (o.window (f * a) (f * (z - a)) rows).map (fun w => (c.1 * 2 ^ 25 + w.1, c.1 * 2 ^ 25 + w.2)))
  match runs with
  | [] => []
  | w :: _ => [(spadLoc o.core o.base.toNat + w.1, (runs.map (·.2)).foldl max 0 - w.1)]

/-- An A or B operand in a face, of which some rows are read (R184, R195). -/
def State.faceArg (s : State) (role area : Nat) (q : CubeRegs) (rows : Nat) (h : Handle) (r : BitVec 5) : Chk Arg := do
  let kinds := [kPlain, kRing, kStream]
  need (formOk kinds (hQ h) h && areaOf (hBase h) == area && layerOf (hBase h) == 0) (trapE eCube fHandleForm)
  let a ← s.localArg eCube role kinds (hQ h) h r
  pure { a with ranges := q.range a.o 1 rows }

/-- The scale handle of a face operand: the rules of R128 and its operand's area; every layer takes the place of its LAYER
field (R185, R195). -/
def State.faceScale (s : State) (role area : Nat) (q : CubeRegs) (rows : Nat) (h : Handle) : Chk Arg := do
  let g := s.hr (hScale h)
  need (hFmt g == 8 && isLocal (hBase g) && areaOf (hBase g) == area) (trapE eCube fHandleForm)
  let a ← s.localArg eCube role [kPlain] false (hput g 241 1 0) (hScale h)
  let o := { a.o with base := a.o.base &&& ~~~(7#64 <<< 25) }
  pure { a with o := o, ranges := q.range o (groupSize (hDepth h)) rows }

/-- The accumulator tile that a handle's BASE names. -/
def tileOf (h : Handle) : Nat := (offsetOf (hBase h) - accBase) / 4096

/-- An accumulator operand: the rules of R186 other than those of the extents; every byte that the handle addresses is
translated and protected first (R193). A nonzero LREC is neither refused nor followed: the elements lie where R186 says (the
model's choice, log 66). -/
def State.accArg (s : State) (role : Nat) (h : Handle) : Chk Arg := do
  let b := hBase h
  need (formOk [kPlain] false h && hFmt h == 0 && areaOf b == 0 && decide (accBase ≤ offsetOf b) &&
    (offsetOf b - accBase) % 4096 == 0 && hStride h 1 == 128) (trapE eCube fHandleForm)
  let n := spanOf h none
  let loc ← if n = 0 then .ok 0 else s.localAt s.cur (coreOf s.cur) b n
  pure ⟨role, ⟨h, b, coreOf s.cur, none, []⟩, if n = 0 then [] else [(loc, n)], [], none, true⟩

/-- Extents of an accumulator under CMM and CMMH (R186). -/
def accShape (h : Handle) (m n : Nat) (cplx : Bool) : Bool :=
  hExt h 0 == n && hExt h 1 == m && hExt h 3 == 1 &&
  (if cplx then hExt h 2 == 2 && hStride h 2 == 4096 && decide (tileOf h ≤ 62) else hExt h 2 == 1)

/-- Extents of an accumulator under CZERO and CRD (R186). -/
def accFree (h : Handle) : Bool :=
  let in32 := fun (k : Nat) => decide (1 ≤ hExt h k) && decide (hExt h k ≤ 32)
  in32 0 && in32 1 && hExt h 3 == 1 && decide (1 ≤ hExt h 2) && decide (hExt h 2 ≤ 64 - tileOf h) &&
  (hExt h 2 == 1 || hStride h 2 == 4096)

/-! CMM, CMMH and CLDB. -/

/-- A CMM, CMMH or CLDB: its registers; CLDB names B alone. -/
structure CubeWord where
  instr : Instr
  c : Option (BitVec 5)
  a : Option (BitVec 5)
  b : BitVec 5
  hold : Bool

/-- The word uses held latches and does not read its B handle (R190). -/
def State.usesHeld (s : State) (w : CubeWord) : Bool :=
  w.a.isSome && s.me.eng.cube.stationary && s.me.eng.latch.hold

/-- The word loads the latches (R190, R197). -/
def State.loadsLatch (s : State) (w : CubeWord) : Bool :=
  w.a.isNone || (s.me.eng.cube.stationary && !s.me.eng.latch.hold)

/-- The checks and waits of these words, in the order of R193; it answers the operands and the entry. The model's choices (log
66): a CLDB too traps CUBE_FORMAT where the entry's pair is none of R182; and a handle's format mismatch (R184) and a REV
use with quantised BFMT (R189), which R193 does not place, come after UNIT_ABSENT. -/
def State.cubeCheck (s : State) (w : CubeWord) : Chk (List Arg × Word) := do
  let q := s.me.eng.cube
  let l := s.me.eng.latch
  let held := s.usesHeld w
  let product := w.a.isSome
  let bs := if held then [] else [w.b]
  let cs ← w.c.toList.mapM (fun r => s.accArg 0 (s.hr r))
  let as ← w.a.toList.mapM (fun r => s.faceArg 1 1 q q.m (s.hr r) r)
  let bargs ← bs.mapM (fun r => s.faceArg 2 2 q q.n (s.hr r) r)
  let qa := w.a.toList.filter (fun r => hQ (s.hr r))
  let qb := bs.filter (fun r => hQ (s.hr r))
  let sas ← qa.mapM (fun r => s.faceScale 5 1 q q.m (s.hr r))
  let sbs ← qb.mapM (fun r => s.faceScale 6 2 q q.n (s.hr r))
  s.noneDropped (w.c.toList ++ w.a.toList ++ bs ++ (qa ++ qb).map (fun r => hScale (s.hr r)))
  need (!product || q.stationary || !(w.hold || q.rev)) (trapE eCube fCubeMode)
  match s.me.cubeEntry with
  | none => trapE eCube fCubeFormat
  | some e =>
    need (pairOk e) (trapE eCube fCubeFormat)
    need (!product || entryA e != 3 || s.part.cplx) (trapC cUnitAbsent)
    let suits := fun (f : Nat) (h : Handle) => hFmt h == f && (!hQ h || hDepth h == entryG e)
    need (w.a.toList.all (fun r => suits (entryA e) (s.hr r)) && bs.all (fun r => suits (entryB e) (s.hr r)) &&
      !(product && q.stationary && q.rev && quantised (entryB e))) (trapE eCube fCubeFormat)
    let flat := fun (r : BitVec 5) => hExt (s.hr r) 2 == 1 && hExt (s.hr r) 3 == 1
    let longest := (q.chunks.map (fun c => c.2.2)).foldl max 0
    need (decide (1 ≤ q.k) && decide (q.k ≤ 4096) && decide (1 ≤ q.n) && decide (q.n ≤ 32) &&
      (!product || (decide (1 ≤ q.m) && decide (q.m ≤ 32))) && q.layers.length != 0 &&
      w.a.toList.all flat && bs.all flat &&
      decide (longest ≤ if product && !q.stationary then 512 else 32) &&
      w.c.toList.all (fun r => accShape (s.hr r) q.m q.n (entryA e == 3))) (trapE eCube fCubeShape)
    need (!held || (l.valid && l.lmask == q.lmask.setWidth 8 && l.bfmt.toNat == entryB e &&
      l.grp.toNat == entryG e)) (trapE eCube fCubeLatch)
    let g := groupSize (entryG e)
    need (!(product && (quantised (entryA e) || quantised (entryB e))) ||
      q.chunks.all (fun c => c.2.1 % g == 0 && c.2.2 % g == 0)) (trapC cFmtGroup)
    let args := cs ++ as ++ bargs ++ sas ++ sbs
    s.canIssue 0 args
    pure (args, e)

/-- What a latch load captures at issue; its tiles follow when the operation completes (R181, R188). -/
def State.captureLatch (s : State) (e : Word) (hold : Bool) : State :=
  s.modMe (fun x => { x with eng := { x.eng with latch := { x.eng.latch with
    valid := true
    hold := hold
    lmask := x.eng.cube.lmask.setWidth 8
    bfmt := e.extractLsb' 4 4
    grp := e.extractLsb' 8 2 } } })

/-- Issue of CMM, CMMH or CLDB: `val` keeps the entry, `aux` whether the latches are loaded. -/
def State.cubeWord (s : State) (w : CubeWord) : Host.Outcome State Fault Refusal :=
  let loads := s.loadsLatch w
  performOn eCube (s.cubeCheck w) (fun r =>
    let t := s.issueOp 0 w.instr r.1 (fun o => { o with val := r.2, aux := if loads then 1 else 0 })
    if loads then t.captureLatch r.2 w.hold else t) s

def execCmm (c : BitVec 5) (a : BitVec 5) (b : BitVec 5) (s : State) : Host.Outcome State Fault Refusal :=
  s.cubeWord ⟨.cmm c a b, some c, some a, b, false⟩

def execCmmh (c : BitVec 5) (a : BitVec 5) (b : BitVec 5) (s : State) : Host.Outcome State Fault Refusal :=
  s.cubeWord ⟨.cmmh c a b, some c, some a, b, true⟩

def execCldb (a : BitVec 5) (h : BitVec 1) (s : State) : Host.Outcome State Fault Refusal :=
  s.cubeWord ⟨.cldb a h, none, none, a, h == 1#1⟩

/-! CZERO, CRD and CFSEL. -/

def execCzero (c : BitVec 5) (s : State) : Host.Outcome State Fault Refusal :=
  let h := s.hr c
  performOn eCube (do
    let x ← s.accArg 0 h
    checkDropped c h
    need (accFree h) (trapE eCube fCubeShape)
    s.canIssue 0 [x]
    pure [x]) (fun args =>
      (s.issueOp 0 (.czero c) args).modMe (fun x =>
        { x with eng := { x.eng with latch := { x.eng.latch with valid := false, hold := false } } })) s

/-- The destination of a CRD suits the accumulator handle (R199). -/
def readOutShape (c a : Handle) : Bool :=
  match hFmt c with
  | 0 | 1 | 2 => sameExtents c a
  | 4 => sameExtents c a && hExt c 2 == 1
  | 3 => hExt c 0 == 2 * hExt a 0 && hExt c 1 == hExt a 1 && hExt c 2 == 1 && hExt c 3 == 1 && hExt a 2 == 2
  | _ => false

def execCrd (c : BitVec 5) (a : BitVec 5) (s : State) : Host.Outcome State Fault Refusal :=
  let hc := s.hr c
  let ha := s.hr a
  performOn eCube (do
    let x ← s.localArg eCube 0 [kPlain] (hQ hc) hc c
    let y ← s.accArg 1 ha
    let zs ← (if hQ hc then [hc] else []).mapM (fun h => s.scaleArg eCube 4 h)
    s.noneDropped ([c, a] ++ (if hQ hc then [hScale hc] else []))
    need (accFree ha && readOutShape hc ha) (trapE eCube fCubeShape)
    s.canIssue 0 ([x, y] ++ zs)
    pure ([x, y] ++ zs)) (fun args => s.issueOp 0 (.crd c a) args) s

/-- A product among the cube's operations. -/
def Op.isProduct (o : Op) : Bool :=
  match o.instr with
  | .cmm _ _ _ => true
  | .cmmh _ _ _ => true
  | _ => false

/-- The effective pair of the last product issued to the cube of a core (R191, R200). -/
def State.lastPair (s : State) (k : Nat) : Option (BitVec 4 × BitVec 4 × BitVec 2) :=
  match (s.ops.filter (fun o => o.engine == 0 && o.core == k && o.isProduct && !o.started)).getLast? with
  | some o => some (entryPair o.val)
  | none => (s.core k).pair

/-- CFSEL: `cube.fsel` at once; where it selects a changed pair the cube inserts the drain slot, in its turn, of which the
context sees nothing (R200; log 27). -/
def execCfsel (a : BitVec 5) (s : State) : Host.Outcome State Fault Refusal :=
  let v := s.sr a &&& 0xFF#64
  let pair := entryPair (s.me.eng.cube.fmt.toList.getD (v.toNat % 16) 0)
  let inserts := !v.getLsbD 7 && (s.lastPair (coreOf s.cur)).any (fun p => p != pair)
  always (fun s =>
    (if inserts then s.issueOp 0 (.cfsel a) [] else s).modMe (fun x => { x with eng.cube.fsel := v })) s

/-! Arithmetic. -/

/-- An operand element as the array takes it. -/
inductive Elem where
  | num (x : Num)
  | pair (re im : Num)
  | code (fmt q record : Nat)
  deriving DecidableEq, Repr

/-- A term with this A element is omitted (R138, R142). -/
def Elem.omitted (e : Elem) : Bool :=
  match e with
  | .num x => x.isZero
  | .pair x y => x.isZero && y.isZero
  | .code f q r => centred f q r == 0

def Elem.record (e : Elem) : Option Nat :=
  match e with
  | .code _ _ r => some r
  | _ => none

/-- A real value: the element itself, or q − z of a code. -/
def Elem.value (e : Elem) : Num :=
  match e with
  | .num x => x
  | .pair x _ => x
  | .code f q r => Num.ofInt (centred f q r)

/-- One term into a chunk's sums (R140, R142). -/
def addTerm (sum : Num × Num) (t : Elem × Elem) : Num × Num :=
  if t.1.omitted then sum
  else match t with
    | (.pair a b, .pair c d) =>
      let re := ((a.mul c).sub (b.mul d)).r32
      let im := ((a.mul d).add (b.mul c)).r32
      ((sum.1.add re).r32, (sum.2.add im).r32)
    | (a, b) => ((sum.1.add (a.value.mul b.value)).r32, sum.2)

/-- The scale of one side of a group (R141): that of the records its terms carry. A latch load under another
depth can leave terms of unlike scales in a group; the spec then states no scale (log 4). -/
def sideScale (es : List Elem) : Num :=
  match es.filterMap Elem.record with
  | [] => Num.ofNat 1
  | r :: rs => if rs.all (fun x => x % 2 ^ 16 == r % 2 ^ 16) then recScale r
    else fp16.value (Config.freeScale (r :: rs)).toNat

/-- The contribution of a group; none where every term is omitted (R141). -/
def groupSum (ts : List (Elem × Elem)) : Option Num :=
  let live := ts.filter (fun t => !t.1.omitted)
  if live.isEmpty then none
  else
    let s := (sideScale (live.map (·.1))).mul (sideScale (live.map (·.2)))
    let whole := live.all (fun t => t.1.record.isSome && t.2.record.isSome)
    let p := live.foldl (fun p t =>
      let q := p.add (t.1.value.mul t.2.value)
      if whole then q else q.r32) Num.zero
    some (s.mul p).r32

/-- Cut a list into runs of g; fuel is its length. -/
def runsOf {α : Type} (g : Nat) : Nat → List α → List (List α)
  | 0, _ => []
  | _, [] => []
  | n + 1, x :: xs => (x :: xs).take g :: runsOf g n ((x :: xs).drop g)

/-- The sum of one layer's chunk, in parts (R140 to R142); g is the group size of a quantised pair. -/
def chunkSum (g : Option Nat) (ts : List (Elem × Elem)) : Num × Num :=
  match g with
  | none => ts.foldl addTerm (Num.zero, Num.zero)
  | some n =>
    ((runsOf n ts.length ts).foldl (fun sum r =>
      match groupSum r with
      | some c => (sum.add c).r32
      | none => sum) Num.zero, Num.zero)

/-- The fold of the layers' sums, from the top layer down (R140). -/
def foldSums (l : List Num) : Num :=
  match l.reverse with
  | [] => Num.zero
  | x :: xs => xs.foldl (fun t s => (t.add s).r32) x

/-! Reading operands. -/

/-- The element of index i and row r of a face operand on a layer (R129, R130, R183, R185). -/
def State.faceElement (s : State) (fmt : Nat) (o scale : Opnd) (l i r : Nat) : Elem :=
  let p := o.onLayer l
  if fmt = 3 then
    .pair (bf16.value (s.element p { i0 := 2 * i, i1 := r })) (bf16.value (s.element p { i0 := 2 * i + 1, i1 := r }))
  else if quantised fmt then
    let rec_ := s.element (scale.onLayer l) { i0 := i / groupSize (hDepth o.h), i1 := r }
    let q := if inside o.h { i0 := i, i1 := r } then s.element p { i0 := i, i1 := r } else (recZero fmt rec_).toNat
    .code fmt q rec_
  else match ffmtOf fmt with
    | some f => .num (f.value (s.element p { i0 := i, i1 := r }))
    | none => .num Num.zero

/-- The key of a latched element. -/
def latchKey (l x y : Nat) : Nat := (l * 32 + x) * 32 + y

/-- What a latch load stores for one element (R188). -/
def Elem.latched (e : Elem) : LatchElem :=
  match e with
  | .num x => ⟨BitVec.ofNat 32 (x.bits fp32 .rne), 0, 0⟩
  | .pair x y => ⟨BitVec.ofNat 32 (x.bits fp32 .rne), BitVec.ofNat 32 (y.bits fp32 .rne), 0⟩
  | .code _ q r => ⟨BitVec.ofNat 32 q, 0, BitVec.ofNat 32 r⟩

/-- A latched element as the array takes it; an absent one is +0, or a zero point of record 0 (R188). -/
def Latch.elem (t : Tbl LatchElem) (fmt l x y : Nat) : Elem :=
  let e := tblGet t (latchKey l x y) ⟨0, 0, 0⟩
  if fmt = 3 then .pair (fp32.value e.re.toNat) (fp32.value e.im.toNat)
  else if quantised fmt then .code fmt e.re.toNat e.record.toNat
  else .num (fp32.value e.re.toNat)

/-- The tiles of a latch load (R188). -/
def State.loadedTiles (s : State) (o : Op) : Tbl LatchElem :=
  let q := o.regs.cube
  let f := entryB o.val
  q.chunks.flatMap (fun c =>
    (List.range c.2.2).flatMap (fun x => (List.range q.n).map (fun y =>
      (latchKey c.1 x y, (s.faceElement f (o.arg 2) (o.arg 6) c.1 (q.place c x) y).latched))))

/-- The terms of an output on one chunk (R183, R189). -/
def State.termsOf (s : State) (o : Op) (tiles : Tbl LatchElem) (c : Nat × Nat × Nat) (m n : Nat) :
    List (Elem × Elem) :=
  let q := o.regs.cube
  (List.range c.2.2).map (fun x =>
    (s.faceElement (entryA o.val) (o.arg 1) (o.arg 5) c.1 (q.place c x) m,
     if q.stationary then
       (if q.rev then Latch.elem tiles (entryB o.val) c.1 n x else Latch.elem tiles (entryB o.val) c.1 x n)
     else s.faceElement (entryB o.val) (o.arg 2) (o.arg 6) c.1 (q.place c x) n))

/-- Where element (n, m) of the p-th tile of an accumulator operand lies (R186). -/
def accLoc (o : Opnd) (p m n : Nat) : Nat := o.loc (o.base + BitVec.ofNat 64 (4096 * p + 128 * m + 4 * n))

/-- The stores of a product (R140 to R142, R194). -/
def State.productStores (s : State) (o : Op) (tiles : Tbl LatchElem) : List (Nat × Nat) :=
  let q := o.regs.cube
  let g := if quantised (entryA o.val) || quantised (entryB o.val) then some (groupSize (entryG o.val)) else none
  let parts := if entryA o.val = 3 then [0, 1] else [0]
  (List.range q.m).flatMap (fun m => (List.range q.n).flatMap (fun n =>
    let sums := q.chunks.map (fun c => chunkSum g (s.termsOf o tiles c m n))
    parts.map (fun p =>
      let t := foldSums (sums.map (fun x => if p = 0 then x.1 else x.2))
      let l := accLoc (o.arg 0) p m n
      let v := if q.accumulates then ((fp32.value (memRead s.mem l 4)).add t).r32 else t
      (l, v.bits fp32 .rne))))

/-- Write 32-bit words, all their values computed before (R147, R199). -/
def State.putWords (s : State) (ws : List (Nat × Nat)) : State :=
  s.poke (ws.flatMap (fun w => (leBytes 4 w.2).zipIdx.map (fun b => (w.1 + b.2, 0xFF#8, b.1))))

/-- The first address of a face operand or its scales that meets an uncorrectable error (R202). -/
def State.badFace (s : State) (o : Op) (role rows : Nat) : Option Word :=
  let q := o.regs.cube
  if s.poison.isEmpty || (tblFind o.args role).isNone then none
  else
    let a := o.arg role
    let g := o.arg (role + 4)
    q.chunks.findSome? (fun c => (List.range c.2.2).findSome? (fun x => (List.range rows).findSome? (fun r =>
      let i := q.place c x
      let is : List Idx := if hFmt a.h = 3 then [{ i0 := 2 * i, i1 := r }, { i0 := 2 * i + 1, i1 := r }]
        else [{ i0 := i, i1 := r }]
      (s.badElement (a.onLayer c.1) is).or
        (if hQ a.h then s.badElement (g.onLayer c.1) [{ i0 := i / groupSize (hDepth a.h), i1 := r }] else none))))

/-- The first word of an accumulator operand that meets an uncorrectable error (R202). -/
def State.badAcc (s : State) (a : Opnd) (tiles : Nat) : Option Word :=
  if s.poison.isEmpty then none
  else (List.range tiles).findSome? (fun p => (List.range (hExt a.h 1)).findSome? (fun m =>
    (List.range (hExt a.h 0)).findSome? (fun n =>
      if s.poisoned (accLoc a p m n) 4 then some (a.base + BitVec.ofNat 64 (4096 * p + 128 * m + 4 * n)) else none)))

/-! Start and completion. -/

/-- A cube operation that only inserts a drain slot. -/
def Op.isDrain (o : Op) : Bool :=
  match o.instr with
  | .edrain => true
  | .cfsel _ => true
  | _ => false

/-- The cube of a core meets the pair of a product: a drain slot goes in first where it differs from the last
one's and none has been inserted since (R191). -/
def State.meetPair (s : State) (o : Op) : State :=
  let k := s.core o.core
  let p := entryPair o.val
  let s := if k.pair.isSome && k.pair != some p && !k.drained then s.drainSlot o.core else s
  s.modCore o.core (fun x => { x with pair := some p, drained := false })

/-- CUBE_OPERATION_START (R191, R201, R250, R359, R362). -/
def execCubeOperationStart (id : Nat) (s : State) : Host.Outcome State Fault Refusal :=
  happen (match s.ready? 0 id with
    | some o =>
      if o.started || o.isDrain || !s.arrayOpen o.core || !s.admits o then s
      else
        let t := s.countStart o.core
        let t := if o.isProduct then (t.demandFold o.core (o.regs.cube.layers.getLastD 0)).meetPair o else t
        { t with ops := t.ops.map (fun p => if p.id == id then { p with started := true } else p) }
    | none => s)

/-- A product or a latch load ends: an uncorrectable error writes no element (R188, R194, R202); VALID, HOLD, LMASK, BFMT and
GRP, which a latch load captures as it issues, then stay as captured beside the old elements (the model's choice, log
66). -/
def State.cubeProduct (s : State) (o : Op) : State :=
  let q := o.regs.cube
  let loads := o.aux == 1#64
  let bad := ((if o.isProduct then s.badFace o 1 q.m else none).or (s.badFace o 2 q.n)).or
    (if o.isProduct && q.accumulates then s.badAcc (o.arg 0) (hExt (o.arg 0).h 2) else none)
  match bad with
  | some a => s.opError o a
  | none =>
    let tiles := if loads then s.loadedTiles o else (s.ctx o.ctx).eng.latch.tiles
    let s' := if o.isProduct then s.putWords (s.productStores o tiles) else s
    let s' := if loads then s'.modCtx o.ctx (fun x => { x with eng.latch.tiles := tiles }) else s'
    (if o.isProduct then s'.modCore o.core (fun k => { k with idleFrom := s.cycles + 64 }) else s').retire o

/-- CZERO ends (R198). -/
def State.cubeZero (s : State) (o : Op) : State :=
  let a := o.arg 0
  (s.putWords ((List.range (hExt a.h 2)).flatMap (fun p => (List.range (hExt a.h 1)).flatMap (fun m =>
    (List.range (hExt a.h 0)).map (fun n => (accLoc a p m n, 0)))))).retire o

/-- What a CRD writes: every accumulator element is read first (R199). -/
def State.readOut (s : State) (o : Op) : List Poke :=
  let c := o.arg 0
  let a := o.arg 1
  let at_ := fun (p m n : Nat) => memRead s.mem (accLoc a p m n) 4
  let rows := List.range (hExt a.h 1)
  let cols := List.range (hExt a.h 0)
  match hFmt c.h with
  | 4 =>
    let g := groupSize (hDepth c.h)
    rows.flatMap (fun m => (runsOf g cols.length cols).zipIdx.flatMap (fun r =>
      let (rec_, qs) := quantise 255 (r.1.map (fun n => fp32.value (at_ 0 m n)))
      ((r.1.zip qs).flatMap (fun p => c.pokes { i0 := p.1, i1 := m } p.2)) ++
        (o.arg 4).pokes { i0 := r.2, i1 := m } rec_))
  | 3 => rows.flatMap (fun m => cols.flatMap (fun n =>
      c.pokes { i0 := 2 * n, i1 := m } (convert .rne 0 2 (at_ 0 m n)) ++
      c.pokes { i0 := 2 * n + 1, i1 := m } (convert .rne 0 2 (at_ 1 m n))))
  | f => (List.range (hExt a.h 2)).flatMap (fun p => rows.flatMap (fun m => cols.flatMap (fun n =>
      c.pokes { i0 := n, i1 := m, i2 := p } (if f = 0 then at_ p m n else convert .rne 0 f (at_ p m n)))))

/-- CRD ends. -/
def State.cubeRead (s : State) (o : Op) : State :=
  match s.badAcc (o.arg 1) (hExt (o.arg 1).h 2) with
  | some a => s.opError o a
  | none => (s.poke (s.readOut o)).retire o

/-- What an error inside the array or the vertical path names: the accumulator tile (R202). -/
def Op.tile (o : Op) : Word :=
  match o.instr with
  | .crd _ _ => hBase (o.arg 1).h
  | .cldb _ _ => hBase (o.arg 2).h
  | _ => hBase (o.arg 0).h

/-- CUBE_OPERATION_COMPLETION (R194 to R200). An operation in progress pauses while the array is not open (R356, R359). On a
column that can no longer fold, or where the bundle it used has been retired, it ends as with an uncorrectable error
(R202, R350). -/
def execCubeOperationCompletion (id : Nat) (s : State) : Host.Outcome State Fault Refusal :=
  happen (match s.ready? 0 id with
    | some o =>
      if o.started && !s.arrayOpen o.core then s
      else if o.started && ((s.column o.core).noFold || o.broken) then s.opError o o.tile
      else match o.instr with
      | .edrain => (s.drainSlot o.core).retire o
      | .cfsel _ => (s.drainSlot o.core).retire o
      | .czero _ => if o.started then s.cubeZero o else s
      | .crd _ _ => if o.started then s.cubeRead o else s
      | _ => if o.started then s.cubeProduct o else s
    | none => s)

end Sys2Proof.Machine
end

