-- ==== Sys2Proof/Machine/HandleWords.lean ====
section
/-! DEFINITION. Handle manipulation (spec 03 R86, R88 to R91); HSEQ stands with the streams. -/

namespace Sys2Proof.Machine

def execHmov (d : BitVec 5) (a : BitVec 5) (s : State) : Host.Outcome State Fault Refusal :=
  perform (s.unbound d) (fun _ => s.putHandle d (s.hr a)) s

def execHofs (d : BitVec 5) (a : BitVec 5) (b : BitVec 5) (s : State) : Host.Outcome State Fault Refusal :=
  perform (s.unbound d) (fun _ =>
    let h := s.hr a
    s.putHandle d ((h >>> 64 <<< 64) ||| (hBase h + s.sr b).setWidth 256)) s

def execHlive (d : BitVec 5) (a : BitVec 5) (s : State) : Host.Outcome State Fault Refusal :=
  always (fun s => s.put d (s.handleStatus a) 1) s

/-- The indices packed in a scalar register (R68). -/
def packedIdx (b : Word) : Idx :=
  ⟨bitsOf b.toNat 15 0, bitsOf b.toNat 31 16, bitsOf b.toNat 47 32, bitsOf b.toNat 63 48⟩

/-- The element address depends on the size of an element: some element precedes this one in its row or tile. -/
def needsSize (lay : Option Layout) (i : Idx) : Bool :=
  match lay with
  | none => i.i0 != 0
  | some l => i.i0 % l.t0 != 0 || i.i1 % l.t1 != 0

/-- The address HEA answers (R89); where FMT is unassigned the spec gives no element size, so an address that
depends on one is a free value (log 4). -/
def State.elementAddress (s : State) (d : BitVec 5) (h : Handle) (lay : Option Layout) (i : Idx) : Word :=
  if !inside h i then BitVec.allOnes 64
  else if (fmtBits (hFmt h)).isNone && needsSize lay i then s.draw (32 + d.toNat)
  else hBase h + BitVec.ofNat 64 (elemOff h lay i).1

/-- HEA: latency 1 without a layout record; with one a variable-latency write (R89). The record is read
only where the indices lie inside the extents. -/
def execHea (d : BitVec 5) (a : BitVec 5) (b : BitVec 5) (s : State) : Host.Outcome State Fault Refusal :=
  let h := s.hr a
  let i := packedIdx (s.sr b)
  if hLrec h = 0 then always (fun s => s.put d (s.elementAddress d h none i) 1) s
  else if !inside h i then
    always (fun s => s.pendLoad .scalar d (.value ((BitVec.allOnes 64).setWidth 256)) 0) s
  else perform (s.layoutFor s.cur 31#5 h) (fun r =>
    match r with
    | none => s.put d (s.elementAddress d h none i) 1
    | some (l, loc, rec_) =>
      (s.cacheRecord (coreOf s.cur) loc rec_).pendLoad .scalar d
        (.value ((s.elementAddress d h (some l) i).setWidth 256)) 0) s

/-- HSET: word3 with a reserved bit set traps ILLEGAL_OP (R17, R68). -/
def execHset (d : BitVec 5) (a : BitVec 5) (i : BitVec 12) (s : State) : Host.Outcome State Fault Refusal :=
  let v := s.sr a
  let (lo, n) := fieldAt i.toNat
  perform (do
    need (i != 0x23#12 || (bitsOf v.toNat 63 61 == 0 && bitsOf v.toNat 55 53 == 0)) (trapC cIllegalOp)
    s.unbound d) (fun _ => s.putHandle d (hput (s.hr d) lo n v.toNat)) s

/-- HGET: a reserved bit reads 0 (R17). -/
def execHget (d : BitVec 5) (a : BitVec 5) (i : BitVec 12) (s : State) : Host.Outcome State Fault Refusal :=
  let (lo, n) := fieldAt i.toNat
  always (fun s => s.put d (BitVec.ofNat 64 (hbits (cleanHandle (s.hr a)) lo n)) 1) s

end Sys2Proof.Machine
end

