-- ==== Sys2Proof/Machine/Tiles.lean ====
section
/-! DEFINITION. The transpose and the update engine (spec 05 R164 to R174). -/

namespace Sys2Proof.Machine

def eTranspose : BitVec 5 := 2#5
def eUpdate : BitVec 5 := 3#5

/-! Sources. -/

/-- The source of a consuming word: a queue, where its engine's CIN selects one (R170, R172). -/
def State.sourceForm (s : State) (q : Option Nat) (h : Handle) : Bool :=
  match q with
  | none => formOk sourceKinds false h
  | some n => descOk h && !hQ h && (match s.chainHead n with
      | some e => e.fmt.toNat == hFmt h && e.ext == extents h
      | none => true)

/-- The operand of a source that a queue may supply. -/
def State.sourceArg (s : State) (eng : BitVec 5) (q : Option Nat) (h : Handle) (r : BitVec 5) : Chk Arg :=
  match q with
  | some _ => .ok (descArg 1 h)
  | none => s.localArg eng 1 sourceKinds false h r

/-- An entry waits to be claimed in the queue a word consumes from (R173). -/
def State.sourceReady (s : State) (q : Option Nat) : Bool :=
  match q with
  | some n => (s.chainHead n).isSome
  | none => true

/-- Claim the head of the queue for an operation just issued. -/
def State.claimHead (s : State) (q : Option Nat) : State :=
  match q with
  | none => s
  | some n => match s.chainHead n with
    | some e => s.claimEntry n e.id
    | none => s

/-- The entry an operation has claimed, once it is filled (R173). -/
def State.claimed? (s : State) (o : Op) (q : Option Nat) : Option (Option ChainEntry) :=
  match q, o.chainIn with
  | some n, some id => match s.entry? o.core n id with
    | some e => if e.filled then some (some e) else none
    | none => none
  | _, _ => some none

/-- A source element: of the claimed entry, in lane order, or of scratchpad (R170, R172). -/
def State.sourceElement (s : State) (o : Op) (e : Option ChainEntry) (i : Idx) : Nat :=
  match e with
  | some x => (x.data.getD (i.i0 + x.ext.1 * i.i1) 0).toNat
  | none => s.element (o.arg 1) i

/-! The transpose engine (R164, R165). -/

/-- The shapes of a transpose: a tile of up to 32 × 32 elements or pairs. -/
def transposable (c a : Handle) : Bool :=
  hExt a 2 == 1 && hExt a 3 == 1 && hExt c 2 == 1 && hExt c 3 == 1 && decide (hExt a 1 ≤ 32) &&
  (if hFmt a = 3 then decide (hExt a 0 ≤ 64) && hExt c 0 == 2 * hExt a 1 && hExt c 1 == hExt a 0 / 2
   else decide (hExt a 0 ≤ 32) && hExt c 0 == hExt a 1 && hExt c 1 == hExt a 0)

/-- The place an element of a goes to in its transpose; complex elements move as pairs. -/
def transposedAt (fmt : Nat) (i : Idx) : Idx :=
  if fmt = 3 then { i0 := 2 * i.i1 + i.i0 % 2, i1 := i.i0 / 2 } else { i0 := i.i1, i1 := i.i0 }

def transposeIn (cfg : Word) : Option Nat := if cfg.toNat % 4 = 1 then some 0 else none
def transposeOut (cfg : Word) : Option Nat := if cfg.getLsbD 4 then some 2 else none

/-- Issue of XTR and XTRC. -/
def State.transposeWord (s : State) (i : Instr) (c a : BitVec 5) (fits : Nat → Nat → Bool) :
    Host.Outcome State Fault Refusal :=
  let hc := s.hr c
  let ha := s.hr a
  let qi := transposeIn s.me.eng.tcfg
  let qo := transposeOut s.me.eng.tcfg
  performOn eTranspose (do
    need ((if qo.isSome then descOk hc && !hQ hc else formOk [kPlain] false hc) && s.sourceForm qi ha &&
      fits (hFmt ha) (hFmt hc) && transposable hc ha) (trapE eTranspose fHandleForm)
    let x ← if qo.isSome then pure (descArg 0 hc) else s.localArg eTranspose 0 [kPlain] false hc c
    let y ← s.sourceArg eTranspose qi ha a
    if qo.isNone then checkDropped c hc else pure ()
    if qi.isNone then checkDropped a ha else pure ()
    s.canIssue 2 [x, y]
    await (s.sourceReady qi)
    await (qo.all s.queueRoom)
    pure [x, y]) (fun args =>
      let n := s.seq
      let e := (qi.bind s.chainHead).map (·.id)
      let t := (s.issueOp 2 i args (fun o => { o with chainIn := e, chainOut := qo })).claimHead qi
      match qo with
      | some q => t.reserveEntry q n hc
      | none => t) s

def execXtr (c : BitVec 5) (a : BitVec 5) (s : State) : Host.Outcome State Fault Refusal :=
  s.transposeWord (.xtr c a) c a (fun f g => f == g)
def execXtrc (c : BitVec 5) (a : BitVec 5) (s : State) : Host.Outcome State Fault Refusal :=
  s.transposeWord (.xtrc c a) c a converts

/-- The bits an element takes in the destination: copied by XTR, converted by XTRC (R164, R165). -/
def Op.moved (o : Op) (v : Nat) : Nat :=
  match o.instr with
  | .xtrc _ _ =>
    convert (rndOf (BitVec.ofNat 2 (o.regs.tcfg.toNat / 4))) (hFmt (o.arg 1).h) (hFmt (o.arg 0).h) v
  | _ => v

/-- A transpose runs. -/
def State.transposeRun (s : State) (o : Op) (e : Option ChainEntry) : State :=
  let a := (o.arg 1).h
  let c := o.arg 0
  let qi := transposeIn o.regs.tcfg
  let drop := fun (s : State) => match qi, o.chainIn with
    | some q, some id => s.dropEntry o.core q id
    | _, _ => s
  let spoil := fun (s : State) (origin : Nat) => match o.chainOut with
    | some q => s.fillEntry o.core q o.id [BitVec.ofNat 32 origin] true
    | none => s
  match e with
  | some x =>
    if x.err then (drop (spoil s x.origin)).chainError o x.origin
    else
      let vs := (indices a).map (fun i => (transposedAt (hFmt a) i, o.moved (s.sourceElement o e i)))
      drop (match o.chainOut with
        | some q => (s.fillEntry o.core q o.id ((indices c.h).map (fun i =>
            BitVec.ofNat 32 (((vs.find? (fun v => v.1 == i)).map (·.2)).getD 0))) false).retire o
        | none => (s.putElements c vs).retire o)
  | none =>
    match s.badElement (o.arg 1) (indices a) with
    | some w => (spoil s o.id).opError o w (o.chainOut.map (fun _ => o.id))
    | none =>
      let vs := (indices a).map (fun i => (transposedAt (hFmt a) i, o.moved (s.sourceElement o e i)))
      match o.chainOut with
      | some q => (s.fillEntry o.core q o.id ((indices c.h).map (fun i =>
          BitVec.ofNat 32 (((vs.find? (fun v => v.1 == i)).map (·.2)).getD 0))) false).retire o
      | none => (s.putElements c vs).retire o

/-- TRANSPOSE_OPERATION_COMPLETION (R40, R173, R250). -/
def execTransposeOperationCompletion (id : Nat) (s : State) : Host.Outcome State Fault Refusal :=
  happen (match s.ready? 2 id with
    | some o => match s.claimed? o (transposeIn o.regs.tcfg) with
      | some e => s.transposeRun o e
      | none => s
    | none => s)

/-! The update engine (R166 to R169). -/

def updateIn (cfg : Word) : Option Nat :=
  match cfg.toNat % 4 with
  | 1 => some 1
  | 2 => some 2
  | _ => none

/-- The location of a byte of a UPST destination: a weight page only with W = 1, resolved to the backing tagged
with update.wver, never the one tagged with the polder's current version; any other page only with W = 0
(R168, R271). -/
def State.pairByte (s : State) (w : Bool) (a : Word) : Chk Nat :=
  let g := s.agentOf s.cur
  match s.walk g.asid a with
  | none => trapA cXlate a
  | some l =>
    if !s.permits g .pair l || l.weight != w then trapA cProt a
    else
      let v := s.me.eng.uwver.toNat % 2 ^ 16
      match (Leaf.backing l { g with ver := BitVec.ofNat 16 v }) with
      | none => trapA cVersionAbsent a
      | some pg =>
        if l.weight && v == s.currentVer g.polder then trapA cProt a
        else match s.place (pg + a.toNat % 2 ^ l.shift) true with
          | .error cause => trapA cause a
          | .ok loc =>
            if l.enc && decide (loc < 2 ^ 50) && (tblFind s.rontal.keys l.key).isNone then trapA cProt a else .ok loc

/-- A UPST destination has the right form; a local one is no weight page (R146, R166, R168). -/
def pairForm (h : Handle) : Bool := handleOk h && hKind h == kPlain && !hQ h

def execUpst (c : BitVec 5) (a : BitVec 5) (s : State) : Host.Outcome State Fault Refusal :=
  let hc := s.hr c
  let hp := s.hr (c + 1#5)
  let ha := s.hr a
  let qi := updateIn s.me.eng.ucfg
  let k := coreOf s.cur
  performOn eUpdate (do
    need (pairForm hc && pairForm hp && s.sourceForm qi ha && hP hc && sameExtents hc ha && hFmt hc == hFmt ha &&
      hFmt hp == hFmt ha && transposable hp ha) (trapE eUpdate fHandleForm)
    need (handleAligned hc) (trapA cAlign (hBase hc))
    need (handleAligned hp) (trapA cAlign (hBase hp))
    need (!(isLocal (hBase hc) && hW hc)) (trapA cProt (hBase hc))
    need (!(isLocal (hBase hp) && hW hp)) (trapA cProt (hBase hp))
    let x ← s.anyArgBy eUpdate 0 (s.pairByte (hW hc)) k hc
    let p ← s.anyArgBy eUpdate 3 (s.pairByte (hW hp)) k hp
    let y ← s.sourceArg eUpdate qi ha a
    checkDropped c hc
    checkDropped (c + 1#5) hp
    if qi.isNone then checkDropped a ha else pure ()
    s.canIssue 3 [x, p, y]
    await (s.sourceReady qi)
    pure [x, p, y]) (fun args =>
      let e := (qi.bind s.chainHead).map (·.id)
      (s.issueOp 3 (.upst c a) args (fun o => { o with chainIn := e })).claimHead qi) s

/-- The elements of a tile one by one; those of one complex value together (R164). -/
def byElement {α : Type} (fmt : Nat) : List α → List (List α)
  | [] => []
  | [a] => [[a]]
  | a :: b :: r => if fmt = 3 then [a, b] :: byElement fmt r else [a] :: byElement fmt (b :: r)

/-- A paired store runs: both copies in one action, element by element (R166, R167). -/
def State.upstRun (s : State) (o : Op) (e : Option ChainEntry) : State :=
  let a := (o.arg 1).h
  let is := indices a
  let vs := is.map (fun i => (i, s.sourceElement o e i))
  let put := fun (s : State) (vs : List (Idx × Nat)) =>
    (s.putElements (o.arg 0) vs).putElements (o.arg 3) (vs.map (fun v => (transposedAt (hFmt a) v.1, v.2)))
  let write := fun (s : State) =>
    ((((byElement (hFmt a) vs).foldl put s).raceOpnd o (o.arg 0) true).raceOpnd o (o.arg 3) true).retire o
  match e, updateIn o.regs.ucfg with
  | some x, some q =>
    (if x.err then s.chainError o x.origin else write s).dropEntry o.core q x.id
  | _, _ =>
    match s.badElement (o.arg 1) is with
    | some w => s.opError o w
    | none => write s

/-- An operation whose path fails ends as one that reads an uncorrectable error: the entry it has reserved is filled in
error, and the one it has claimed goes (R148, R349, R353). -/
def State.failOp (s : State) (o : Op) (a : Word) : State :=
  let s := match o.engine, o.chainIn with
    | 2, some id => (transposeIn o.regs.tcfg).elim s (fun q => s.dropEntry o.core q id)
    | 3, some id => (updateIn o.regs.ucfg).elim s (fun q => s.dropEntry o.core q id)
    | _, _ => s
  match o.chainOut with
  | some q => (s.fillEntry o.core q o.id [BitVec.ofNat 32 o.id] true).opError o a (some o.id)
  | none => s.opError o a

/-- UPST_COMPLETION (R40, R167, R173, R250). -/
def execUpstCompletion (id : Nat) (s : State) : Host.Outcome State Fault Refusal :=
  happen (match s.ready? 3 id with
    | some o => match s.claimed? o (updateIn o.regs.ucfg) with
      | some e => s.upstRun o e
      | none => s
    | none => s)

/-- The inactive backing of a weight leaf for a polder whose current version is v: 1 or 0 (R169). Where both tags equal v
it is backing 1 (the model's choice, log 66). -/
def Leaf.inactive (l : Leaf) (v : Nat) : Option Nat :=
  if l.ver0 = v then some 1 else if l.ver1 = v then some 0 else none

/-- UVTAG: the tag is written to the leaf entry, which every agent's next access resolves against (R169). It is complete as
it issues, past UPSTs of the engine that are still in flight, whose pages are resolved already (the model's choice, log
66). -/
def execUvtag (a : BitVec 5) (b : BitVec 5) (s : State) : Host.Outcome State Fault Refusal :=
  let va := s.sr a
  let v := (s.sr b).toNat
  let g := s.agentOf s.cur
  let cur := s.currentVer g.polder
  performOn eUpdate (do
    need (!isLocal va) (trapA cProt va)
    match s.walk g.asid va with
    | none => trapA cXlate va
    | some l =>
      need l.weight (trapA cProt va)
      need (decide (v < 2 ^ 16) && v != cur) (trapA cProt va)
      need (s.permits g .pair l) (trapA cProt va)
      match l.inactive cur with
      | none => trapA cVersionAbsent va
      | some n =>
        let tag := if n = 0 then l.ver0 else l.ver1
        need (!(s.launches.any (fun x => x.version.toNat == tag))) (trapA cProt va)
        pure (l.at_ + 28 + 2 * n)) (fun loc => (s.store loc 2 v).countDone s.cur 3) s

end Sys2Proof.Machine
end

