-- ==== Sys2Proof/Machine/Power.lean ====
section
/-! DEFINITION. The stack, its buses and elevators, the clock regions, the governor, forecasts and telemetry (spec 13
R345 to R367). -/

namespace Sys2Proof.Machine

/-! Telemetry (R365, R366). -/

/-- The 256 bits of a record (R366). -/
def Record.bits (r : Record) : Nat :=
  r.time % 2 ^ 64 * 2 ^ 192 + r.pavg % 2 ^ 32 * 2 ^ 160 + r.ppeak % 2 ^ 32 * 2 ^ 128 + r.tmax % 2 ^ 16 * 2 ^ 112 +
    r.vmin % 2 ^ 16 * 2 ^ 96 + r.droop % 2 ^ 16 * 2 ^ 80 + r.fset % 2 ^ 12 * 2 ^ 68 + r.gstep % 16 * 2 ^ 64 +
    r.col % 2 ^ 8 * 2 ^ 32 + r.evt % 2 ^ 8 * 2 ^ 24 + r.bus % 2 ^ 8 * 2 ^ 16 + r.die % 2 ^ 8 * 2 ^ 8 + r.kind % 2 ^ 8

/-- A record enters the buffer of the Aqkin port (R385). -/
def State.toPort (s : State) (r : Record) : State :=
  let p := s.rontal.port ++ [BitVec.ofNat 256 r.bits]
  { s with rontal := { s.rontal with
      port := p.drop (p.length - 256)
      portLost := s.rontal.portLost + (p.length - 256) } }

/-- As whom the telemetry ring is written: the ring's address is one of the root polder's address space (log 31). -/
def State.telAgent (s : State) : Agent := ⟨s.effField 2 0 8 2, true, BitVec.ofNat 16 (s.currentVer 0), 0⟩

/-- A record enters the ring in memory, or is lost; half full, it raises vector 4 (R365, R376). -/
def State.toRing (s : State) (r : Record) : State :=
  let size := 2 ^ s.telSize.toNat
  let lose := { s with telLost := satInc s.telLost }
  if s.telSize = 0#4 then s
  else if (s.telWidx - s.telRidx).toNat = size then lose
  else match s.globalAt s.telAgent .write (s.telBase + BitVec.ofNat 64 (32 * (s.telWidx.toNat % size))) with
    | .error _ => lose
    | .ok p =>
      let t := { s.store p.loc 32 r.bits with telWidx := s.telWidx + 1 }
      if (t.telWidx - t.telRidx).toNat = size / 2 then t.emit (.msix 4) else t

def State.telemetryRecord (s : State) (r : Record) : State := (s.toPort r).toRing r

/-- The live dies of the package by their numbers in a record, in rising order (R346, R366). -/
def State.liveDies (s : State) : List Nat :=
  ((List.range 2).filter s.cubeLive).flatMap (fun q =>
    (q * 128) :: ((List.range 9).filter (fun d => d != (s.cube q).unused)).map (fun d => q * 128 + d + 1))

/-- Highest governor step of a cube after an instant (R366). -/
def State.topStep (s : State) (q from_ : Nat) : Nat :=
  let h := (s.cube q).govHist
  let start := ((h.filter (fun e => decide (e.1 ≤ from_))).getLast?.map (·.2)).getD 0
  ((h.filter (fun e => decide (from_ < e.1))).map (·.2)).foldl max start

/-- The hottest reading of a die in the interval that ends now, or else of its sensors at their latest (R366). -/
def Cube.dieHottest (x : Cube) (die : Nat) : Option Int :=
  match tblFind x.peaks die with
  | some t => some t
  | none => ([0, 1, 2, 3].filterMap (fun i => tblFind x.sensors (4 * die + i))).max?

/-- What a die measured in the n-th interval of 250 µs: TMAX from its sensors, DROOP from the stretches of the cube's regions;
power, supply, and the temperature of a die of which no sensor has been read, are values that the spec leaves to the
sensors (log 8). -/
def State.sampleOf (s : State) (n die : Nat) : Record :=
  let v := (Config.telemetry n die).toNat
  let x := s.cube (die / 128)
  { kind := 1, die := die, time := n * 250000, pavg := bitsOf v 31 0, ppeak := bitsOf v 63 32
    tmax := match x.dieHottest (die % 128) with
      | some t => (BitVec.ofInt 16 t).toNat
      | none => bitsOf v 79 64
    vmin := bitsOf v 95 80, droop := min 0xFFFF x.episodes, fset := s.ceiling
    gstep := s.topStep (die / 128) (n * 250000 - 250000) }

/-- The aggregate of the last four samples of a die, at the n-th multiple of 1 ms (R365). -/
def State.aggregateOf (s : State) (n die : Nat) : Record :=
  let rs := tblGet (s.cube (die / 128)).samples die []
  let top := fun (f : Record → Nat) => (rs.map f).foldl max 0
  { kind := 2, die := die, time := n * 1000000, pavg := (rs.map (·.pavg)).sum / rs.length, ppeak := top (·.ppeak)
    tmax := (BitVec.ofInt 16 (((rs.map (fun r => (BitVec.ofNat 16 r.tmax).toInt)).max?).getD 0)).toNat
    vmin := (rs.map (·.vmin)).foldl min 0xFFFF
    droop := min 0xFFFF (rs.map (·.droop)).sum, fset := s.ceiling
    gstep := s.topStep (die / 128) (n * 1000000 - 1000000) }

/-- A die's sample is written and held for its aggregate (R365). -/
def State.takeSample (s : State) (n die : Nat) : State :=
  let r := s.sampleOf n die
  (s.telemetryRecord r).modCube (die / 128) (fun x =>
    let l := tblGet x.samples die [] ++ [r]
    { x with samples := tblSet x.samples die (l.drop (l.length - 4)) })

/-- TELEMETRY_SAMPLE at the next multiple of 250 µs: each live die's, in ascending order, once the aggregates of an earlier instant are
written; a new interval begins (R365). -/
def execTelemetrySample (s : State) : Host.Outcome State Fault Refusal :=
  let n := s.telAt + 1
  happen (if s.time < n * 250000 || decide (s.telAggAt < s.telAt / 4) then s
    else
      let t := s.liveDies.foldl (fun s d => s.takeSample n d) s
      { (List.range s.part.cubes).foldl (fun (s : State) q =>
          s.modCube q (fun x => { x with peaks := [], episodes := 0 })) t with telAt := n })

/-- TELEMETRY_AGGREGATE at the next multiple of 1 ms, after its samples (R365). -/
def execTelemetryAggregate (s : State) : Host.Outcome State Fault Refusal :=
  let n := s.telAggAt + 1
  happen (if s.time < n * 1000000 || decide (s.telAt < 4 * n) then s
    else { s.liveDies.foldl (fun (s : State) d => s.telemetryRecord (s.aggregateOf n d)) s with telAggAt := n })

/-- A stack event: its record and vector 2 (R366, R376). -/
def State.stackEvent (s : State) (q col evt bus iface : Nat) : State :=
  (s.telemetryRecord { kind := 4, die := q * 128 + iface + 1, time := s.time, col := col, evt := evt, bus := bus }).emit (.msix 2)

/-! Sensors, the governor, droop (R356, R359 to R361). -/

/-- SENSOR_READING of sensor 4 × die + i of a cube, die 0 the base die and 1 to 9 the array dies, in quarters of a degree; that
one has reached 115 °C stays noted (R359). -/
def execSensorReading (cube sensor : Nat) (quarters : Int) (s : State) : Host.Outcome State Fault Refusal :=
  happen (s.modCube cube (fun x =>
    { x with
      sensors := tblSet x.sensors sensor quarters
      peaks := tblSet x.peaks (sensor / 4) (max quarters (tblGet x.peaks (sensor / 4) quarters))
      hot := x.hot || decide (460 ≤ quarters) }))

/-- The hottest sensor of a cube at its latest reading, in quarters of a degree (R359). -/
def Cube.hottest (x : Cube) : Int := (x.sensors.map (·.2)).foldl max (-0x8000)

/-- The governor's next step and calm count for a window of power P (R359). -/
def Cube.govern (x : Cube) (power : Nat) : Nat × Nat :=
  let t := x.hottest
  let tlim : Int := 4 * x.govTlim.toNat
  let plim := x.govPlim.toNat
  if 420 ≤ t then (15, 0)
  else if plim < power ∨ tlim ≤ t ∨ x.droop then (min (x.govStep + 1) 15, 0)
  else if 100 * power < 95 * plim ∧ t + 12 ≤ tlim then
    (if x.calm + 1 = 16 then (x.govStep - 1, 0) else (x.govStep, x.calm + 1))
  else (x.govStep, 0)

/-- A change of STEP: counted and recorded (R361). -/
def State.setStep (s : State) (q g : Nat) : State :=
  if (s.cube q).govStep = g then s
  else
    let t := s.modCube q (fun x =>
      { x with
        govStep := g
        govChg := if x.govChg = BitVec.allOnes 32 then x.govChg else x.govChg + 1
        govHist := x.govHist ++ [(s.time, g)] })
    t.telemetryRecord { kind := 3, die := q * 128, time := s.time, gstep := g }

/-- While the throttle has lasted 1 ms the member proposes a lower limit, at most once per 1 ms (R341, R361). -/
def State.throttled (s : State) (q : Nat) : State :=
  let g := s.leastStep q
  let lim := s.ceiling * (16 - g) / 16
  if g = 0 ∨ [0, 1].any (fun p => decide (s.time < (s.cube p).proposedAt + 1000000)) ∨ s.ownLimit ≤ legalLimit lim then s
  else (s.propose lim).modCube q (fun x => { x with proposedAt := s.time })

/-- GOVERNOR_WINDOW: the end of a window of 1,024 cycles (R359, R361). -/
def execGovernorWindow (cube power : Nat) (s : State) : Host.Outcome State Fault Refusal :=
  let w := s.cycles / 1024
  happen (if w ≤ (s.cube cube).govWindow then s
    else
      let (g, calm) := (s.cube cube).govern power
      let t := s.modCube cube (fun x => { x with govWindow := w, calm := calm, droop := false })
      (t.setStep cube g).throttled cube)

/-- The least number of periods that a region completes in 1 µs (R356). -/
def State.leastPeriods (s : State) : Nat := s.ceiling * 100 / 115

/-- A region's running count of the periods of the last 1 µs, which never lies under the bound (R356). -/
def State.countPeriods (s : State) (r n : Nat) : State :=
  s.modRegion r (fun x => { x with periods := max n s.leastPeriods })

/-- DROOP_ALARM: the count of a region has fallen to within 2 % of the bound (R356). -/
def execDroopAlarm (region : Nat) (s : State) : Host.Outcome State Fault Refusal :=
  let x := s.region region
  happen (if x.droop || decide (102 * s.leastPeriods < 100 * x.periods) then s
    else (s.modRegion region (fun r => { r with droop := true })).modCube (region / 24) (fun x => { x with droop := true }))

/-- DROOP_ALARM_CLEAR: the count has risen 4 % above the bound (R356). -/
def execDroopAlarmClear (region : Nat) (s : State) : Host.Outcome State Fault Refusal :=
  happen (if 100 * (s.region region).periods < 104 * s.leastPeriods then s
    else s.modRegion region (fun r => { r with droop := false }))

/-- CLOCK_STRETCH: a stretched period is counted (R356, R357, R366). -/
def execClockStretch (region : Nat) (s : State) : Host.Outcome State Fault Refusal :=
  happen ((s.modRegion region (fun r =>
    { r with stretch := if r.stretch = BitVec.allOnes 32 then r.stretch else r.stretch + 1 })).modCube (region / 24)
      (fun x => { x with episodes := x.episodes + 1 }))

/-- CROSSING_BUBBLE: a bubble is counted (R357). -/
def execCrossingBubble (region : Nat) (s : State) : Host.Outcome State Fault Refusal :=
  happen (s.modRegion region (fun r => { r with bubble := satInc r.bubble }))

/-! The activity forecast (R363, R364). -/

/-- AFW (R364). -/
def execAfw (a : BitVec 5) (s : State) : Host.Outcome State Fault Refusal :=
  let v := (s.sr a).toNat
  let h := bitsOf v 31 16
  always (fun s => s.modMe (fun x =>
    { x with forecast := if h = 0 then none else some ⟨h, bitsOf v 15 8, bitsOf v 7 0, s.time + 1000 * h⟩ })) s

/-- Mean over the columns of a cube of the largest live entry of each column's contexts (R363). -/
def State.announced (s : State) (q : Nat) (f : Forecast → Nat) : Nat :=
  ((List.range 96).map (fun p =>
    ([0, 1, 2, 3].map (fun i => match (s.ctx (4 * (96 * q + p) + i)).forecast with
      | some e => if s.time < e.expiry then f e else 0
      | none => 0)).foldl max 0)).sum / 96

/-- Launches wait in a queue, or to be placed. -/
def State.queued (s : State) : Bool :=
  s.queues.any (fun p => p.2.en && p.2.head != p.2.tail) || !s.heldLaunches.isEmpty || !s.waiting.isEmpty

/-- PWR.FCAST of a cube: the scheduler's own estimate is a value the spec leaves open; an idle cube reads 0 (R363; log 8). -/
def State.forecastWord (s : State) (q : Nat) : Word :=
  let own := if (s.tasksOf q).isEmpty && !s.queued then 0 else (Config.forecast (s.tick * 2 + q)).toNat
  fields [(own % 256, 0), (own / 256 % 256, 8), (s.announced q (·.cube) % 256, 16), (s.announced q (·.vec) % 256, 24),
    (own / 65536, 48)]

/-- A change that this member has announced is not in force yet. -/
def State.changing (s : State) : Bool := s.fabric.announces.any (fun a => a.node == s.fabric.node)

/-- The member proposes the lower limit that it foresees from its forecasts, if any (R341, R363). -/
def State.foresee (s : State) : State :=
  match Config.foreseen s.tick ((List.range s.part.cubes).map (fun q => (s.cube q).fcast)) with
  | none => s
  | some f => if s.changing ∨ s.ownLimit ≤ legalLimit f then s else s.propose f

/-- The member raises its limit back, as far as WEIR.REQ asks for and its thermal margin allows, whatever the forecast (R341,
R363). -/
def State.raiseBack (s : State) : State :=
  match Config.margin s.tick with
  | none => s
  | some m => if s.changing ∨ legalLimit (min m s.fabric.request) ≤ s.ownLimit then s else s.propose (min m s.fabric.request)

/-- FORECAST_UPDATE, every 1 µs; what the member foresees from it may lower its limit (R341, R363). The model lets the hardware
raise a limit back at the same instants (log 8). -/
def execForecastUpdate (s : State) : Host.Outcome State Fault Refusal :=
  happen (if s.time < s.fcastAt + 1000 then s
    else { ((List.range s.part.cubes).foldl (fun (s : State) q =>
        s.modCube q (fun x => { x with fcast := s.forecastWord q })) s).foresee.raiseBack with fcastAt := s.time / 1000 * 1000 })

/-- FORECAST_EXPIRY of a context's entry (R364). -/
def execForecastExpiry (c : Nat) (s : State) : Host.Outcome State Fault Refusal :=
  happen (match (s.ctx c).forecast with
    | some e => if e.expiry ≤ s.time then s.modCtx c (fun x => { x with forecast := none }) else s
    | none => s)

/-! Bus tests and retirements (R348 to R353). -/

/-- How many places the rotation has. -/
def busCount : Nat := 96 * 81

/-- A place of the rotation names a bus that exists and is not retired (R348). -/
def State.busLive (s : State) (q n : Nat) : Bool :=
  let (col, iface, bus) := busOf n
  let c := s.column (q * 96 + col)
  decide (n < busCount) && bus != 3 &&
  (if bus < 3 then !c.bundleGone iface bus
   else if bus < 8 then !(c.wsBuses ++ c.applied).contains (iface, bus)
   else col % 4 == 0 && (tblFind (s.cube q).elevators (col / 4)).isNone)

/-- A bus that takes part in tests: no unused die borders its interface (R346). -/
def State.testable (s : State) (q n : Nat) : Bool :=
  s.busLive q n && (busOf n).2.1 != (s.cube q).unused && (busOf n).2.1 != (s.cube q).unused + 1

/-- The next bus of the rotation from a place on. -/
def State.nextBus (s : State) (q n : Nat) : Option Nat :=
  ((List.range busCount).map (fun i => (n + i) % busCount)).find? (s.testable q)

/-- BUS_TEST_RUN: a bus is taken out of service every PERIOD ms (R349). -/
def execBusTestRun (cube : Nat) (s : State) : Host.Outcome State Fault Refusal :=
  let x := s.cube cube
  happen (if !s.cubeLive cube || !x.testEn || x.busRun.isSome ||
      decide (s.time < x.busAt + 1000000 * max 1 x.testPeriod.toNat) then s
    else match s.nextBus cube x.busNext with
      | none => s
      | some n => s.modCube cube (fun x => { x with busRun := some (n, false), busNext := n + 1, busAt := s.time }))

/-- A partial-sum bundle is retired: a product of the column that is folding over it completes under R202; the spare takes its
place for the next; with a second one the column cannot fold, and its core leaves the map (R350). -/
def State.retireBundle (s : State) (q col iface bus : Nat) : State :=
  let k := q * 96 + col
  let s := { s with ops := s.ops.map (fun (o : Op) =>
    if o.isProduct && o.core == k && o.started && s.foldUses k (o.regs.cube.layers.getLastD 0) iface bus then
      { o with broken := true } else o) }
  let t := s.modColumn k (fun c => { c with bundles := tblSet c.bundles iface (tblGet c.bundles iface 0 ||| 2 ^ bus) })
  if tblGet (s.column k).bundles iface 0 = 0 then t.stackEvent q col 1 bus iface
  else
    let t := (t.modColumn k (fun c => { c with noFold := true })).stackEvent q col 2 bus iface
    match t.logicalOf k with
    | some l => t.mapCore (2 ^ 15 + q * 128 + l)
    | none => t

/-- Retire a bus (R349 to R353). -/
def State.retireBus (s : State) (q n : Nat) : State :=
  let (col, iface, bus) := busOf n
  if bus < 3 then s.retireBundle q col iface bus
  else if bus < 8 then
    (s.modColumn (q * 96 + col) (fun c => { c with wsBuses := c.wsBuses ++ [(iface, bus)], pend := true })).stackEvent
      q col 3 bus iface
  else (s.modCube q (fun x => { x with elevators := tblSet x.elevators (col / 4) (s.time, false) })).stackEvent q col 5 bus iface

/-- BUS_TEST_COMPLETION: a demand access or a guard refresh aborts the run; a pattern that fails twice in a row retires
the bus (R349). -/
def execBusTestCompletion (cube : Nat) (pass demand : Bool) (s : State) : Host.Outcome State Fault Refusal :=
  happen (match (s.cube cube).busRun with
    | none => s
    | some (n, again) =>
      let stop := fun (f : Cube → Cube) => s.modCube cube (fun x => { f x with busRun := none })
      if demand then stop (fun x => { x with testAborts := satInc x.testAborts })
      else if pass then stop (fun x => { x with testRuns := satInc x.testRuns })
      else if again then (stop (fun x => { x with testFails := satInc x.testFails })).retireBus cube n
      else s.modCube cube (fun x => { x with busRun := some (n, true) }))

/-- No launch of an affected polder runs (R351). -/
def State.mapFree (s : State) (k : Nat) : Bool :=
  let x := s.cube (cubeOfCore k)
  !((List.range 16).any (fun n =>
    let g := x.wsRegion n
    n != 0 && !g.disabled && g.has (k % 96) && s.launches.any (fun l => decide (0 < l.begun) && s.under l.polder g.polder)))

/-- WS_MAP_APPLICATION: the compacted map of a column comes into force (R351). -/
def execWsMapApplication (core : Nat) (s : State) : Host.Outcome State Fault Refusal :=
  happen (if !(s.column core).pend || !s.mapFree core then s
    else
      let t := s.modColumn core (fun c => { c with applied := c.applied ++ c.wsBuses, wsBuses := [], pend := false })
      (s.column core).wsBuses.foldl (fun (s : State) b => s.stackEvent (cubeOfCore core) (core % 96) 4 b.2 b.1) t)

/-! Elevators (R353, R354). -/

/-- The elevator that packets sent at an instant from the node of a core take: its own cluster's, or the nearest one that the
node has not heard to drain, ties to the lower cluster number (R353; log 48). -/
def State.elevatorOf (s : State) (k at_ : Nat) : Option Nat :=
  let own := k % 96 / 4
  let open_ := fun (e : Nat) => match tblFind (s.cube (cubeOfCore k)).elevators e with
    | none => true
    | some (t, gone) => !gone && decide (at_ < t + min 1000 (Config.broadcast k e))
  let far := fun (e : Nat) => (e - own) + (own - e)
  ((List.range 24).filter open_).foldl (fun (best : Option Nat) e => match best with
    | none => some e
    | some b => if far e < far b then some e else some b) none

/-- An operation has traffic between dies: it works on an array or the weight store, or reaches a face (R353). -/
def Op.crosses (o : Op) : Bool :=
  (o.engine == 0 && o.started) || o.engine == 6 || o.args.any (fun p => isLocal p.2.base && areaOf p.2.base != 0)

/-- When the packets of an operation were last sent (R353). -/
def State.sentAt (s : State) (o : Op) : Nat := ((tblFind s.retries o.id).map (·.sent)).getD o.issued

/-- The operations that lose packets as the drain of an elevator ends; which have some inside it is left open (R353). -/
def State.losers (s : State) (q cluster : Nat) : List Op :=
  s.ops.filter (fun o => cubeOfCore o.core == q && o.crosses && s.elevatorOf o.core (s.sentAt o) == some cluster &&
    Config.inElevator s.tick o.id)

/-- ELEVATOR_DRAIN_END: 4 µs after its retirement an elevator leaves every table, and the packets inside it are lost (R353). -/
def execElevatorDrainEnd (cube cluster : Nat) (s : State) : Host.Outcome State Fault Refusal :=
  happen (match tblFind (s.cube cube).elevators cluster with
    | some (t, false) =>
      if t + 4000 ≤ s.time then
        let live := s.retries.filter (fun r => s.ops.any (fun o => o.id == r.1))
        { s.modCube cube (fun x => { x with elevators := tblSet x.elevators cluster (t, true) }) with
          retries := (s.losers cube cluster).foldl (fun (l : Tbl Retry) o =>
            tblSet l o.id ⟨((tblFind l o.id).map (·.count)).getD 0, s.sentAt o, true⟩) live }
      else s
    | _ => s)

/-- An operation whose packets are lost makes no other event before its retry (R353, R354). -/
def State.isLost (s : State) (id : Nat) : Bool := ((tblFind s.retries id).map (·.lost)).getD false

/-- The address that an error on an operation's way names: the accumulator tile of a cube operation (R202), else where its
operand in a face begins, or its source (R148; the model's choice, log 66). -/
def Op.errorAt (o : Op) : Word :=
  if o.engine = 0 then o.tile
  else match o.args.find? (fun p => isLocal p.2.base && areaOf p.2.base != 0) with
    | some p => p.2.base
    | none => (tblGet o.args 1 (o.arg 0)).base

/-- A transaction that cannot complete ends its operation as an uncorrectable error does (R148, R202, R219, R349, R353). -/
def State.lostOp (s : State) (o : Op) : State :=
  let s := { s with retries := tblDel s.retries o.id }
  let a := o.errorAt
  match o.engine with
  | 4 => if o.entry.isSome then s.failIteration o a else s.failCopy o a
  | 6 => s.weightError o a
  | _ => s.failOp o a

/-- An operation has traffic over a bus of a column: a product folds over its bundles, the weight store reads or writes banks
behind it, and packets between dies take its elevator (R348, R353). -/
def State.usesBus (s : State) (o : Op) (q n : Nat) : Bool :=
  let (col, iface, bus) := busOf n
  let k := q * 96 + col
  let serves := fun (layer bank : Nat) => bus == 4 + bank / 4 && decide (iface ≤ (s.cube q).dieOf layer)
  if bus < 3 then o.isProduct && o.started && o.core == k && s.foldUses k (o.regs.cube.layers.getLastD 0) iface bus
  else if bus < 8 then
    if o.exposed then o.core == k && serves ((o.aux.toNat - wsBase) / 2 ^ 24 % 8) ((o.aux.toNat - wsBase) / 2 ^ 20 % 16)
    else o.engine == 6 && (s.wstBanks o).any (fun b => b.1 == k && serves b.2.1 b.2.2)
  else o.crosses && cubeOfCore o.core == q

/-- TRANSACTION_RETRY, 16 µs after the lost transaction was issued: it is sent again, at most four times, which changes only
timing; after that it ends its operation with an error (R353, R354). -/
def execTransactionRetry (id : Nat) (s : State) : Host.Outcome State Fault Refusal :=
  happen (match s.ops.find? (fun o => o.id == id), tblFind s.retries id with
    | some o, some r =>
      if !r.lost || decide (s.time < r.sent + 16000) then s
      else if r.count < 4 then { s with retries := tblSet s.retries id ⟨r.count + 1, s.time, false⟩ }
      else s.lostOp o
    | _, _ => s)

/-- A transfer over a bus in demand use meets an uncorrectable error: the bus is retired at once, and the operation concerned
ends as one that reads such an error does (R349). -/
def State.busError (s : State) (q place id : Nat) : State :=
  if !(s.cubeLive q && s.busLive q place) then s
  else
    let t := s.retireBus q place
    match s.ops.find? (fun o => o.id == id && s.usesBus o q place && !o.isProduct) with
    | some o => t.lostOp o
    | none => t

end Sys2Proof.Machine
end

