-- ==== Sys2Proof/Machine/Start.lean ====
section
/-! DEFINITION. Cold and warm starts, fatal errors and the dump (spec 13 R346; spec 14 R379 to R383, R386, R387). -/

namespace Sys2Proof.Machine

def State.modRontal (s : State) (f : Rontal → Rontal) : State := { s with rontal := f s.rontal }

/-! What a start leaves (R379). -/

/-- Contents that a start leaves unpredictable, where a test of the location says so, in canonical form (log 6). -/
def State.unpredictable (s : State) (here : Nat → Bool) : List Host.Cell :=
  ((Config.freeCells s.tick).filter (fun c => here c.1)).foldl (fun m c => memSet m c.1 c.2) []

/-- A location of the weight store. -/
def isWs (l : Nat) : Bool := decide (wsBase ≤ l)
/-- A location of package memory. -/
def isPackage (l : Nat) : Bool := decide (l < 2 ^ 50)

/-- Put runs of memory together. -/
def mergeMem (m : List Host.Cell) (l : List Host.Cell) : List Host.Cell := l.foldl (fun m c => memSet m c.1 c.2) m

/-- Memory after a start: scratchpads unpredictable; without `keep` package memory unpredictable and the weight store all
zero. Memory beyond the module is not touched. -/
def State.memAfter (s : State) (keep : Bool) : List Host.Cell :=
  let old := s.mem.filter (fun c => !isSpad c.1 && (keep || !(isWs c.1 || isPackage c.1)))
  mergeMem old (s.unpredictable (fun l => isSpad l || (!keep && isPackage l)))

/-- The uncorrectable errors that a start leaves in memory. -/
def State.poisonAfter (s : State) (keep : Bool) : List Nat :=
  s.poison.filter (fun q => !isSpad (64 * q) && (keep || !(isWs (64 * q) || isPackage (64 * q))))

/-- A column after a start: what its buses lost stays lost, and the map leaves it out (R350, R351, R379 step 5). -/
def Column.restart (c : Column) (cold : Bool) : Column :=
  { c with guard := if cold then 0 else c.guard, applied := c.applied ++ c.wsBuses, wsBuses := [], pend := false }

/-- The core map of a cube as flash holds it (R380, R391). -/
def State.flashCores (s : State) (q : Nat) : Tbl (Option Nat) :=
  (s.rontal.flashMap.filter (fun p => p.1 / 128 == q)).map (fun p => (p.1 % 128, p.2))

/-- The names of the cores that a map holds. -/
def namesOf (m : Tbl (Option Nat)) : Tbl Nat :=
  m.foldl (fun t p => match p.2 with
    | some k => if k = p.1 then t else tblSet t k p.1
    | none => t) []

/-- A cube after a start: every register at its reset value, but counts kept since a cold start at a warm one; the layer
map, the retired elevators and, with `keep`, the regions stay (R345, R346, R360). -/
def State.cubeAfter (s : State) (q : Nat) (cold keep : Bool) : Cube :=
  let x := s.cube q
  let m := s.flashCores q
  let y : Cube :=
    { Cube.reset with
      cmap := m
      names := namesOf m
      istep := x.istep
      failedDies := x.failedDies
      withdrawn := x.withdrawn
      unused := x.unused
      elevators := x.elevators.map (fun e => (e.1, (e.2.1, true)))
      sensors := x.sensors
      govWindow := s.cycles / 1024
      proposedAt := s.time
      busNext := x.busNext
      busAt := s.time
      govPlim := if s.part.cubes = 1 then 1400 else 1500
      lastProgress := s.cycles }
  let y := if cold then y else
    { y with
      spwCount := x.spwCount
      govChg := x.govChg
      govStep := x.govStep
      govHist := x.govHist
      calm := x.calm }
  if keep then { y with rga := x.rga, rgb := x.rgb } else y

/-! Measurements (R382). -/

/-- The bytes of a measurement register. -/
def measureBytes (v : BitVec 384) : List Byte := leBytes 48 v.toNat

/-- A register extended by the digest of some bytes. -/
def extendMeasure (v : BitVec 384) (bs : List Byte) : BitVec 384 :=
  Config.sha384 (measureBytes v ++ measureBytes (Config.sha384 bs))

/-- A UALink port trained at the last start (R379): it reaches some node. -/
def State.portUp (s : State) (p : Nat) : Bool := (List.range 256).any (fun n => !s.fabric.downLinks.contains (p, n))

/-- What the other steps decided: the identity key, the weight-store map, whether the memories trained, whether the weight store
was initialised. -/
def State.decided (s : State) (keep : Bool) (k : Nat) : List Nat :=
  match k with
  | 2 => [((s.rontal.identity).getD 0).toNat]
  | 5 => s.columns.flatMap (fun (p : Nat × Column) => p.2.applied.flatMap (fun b => [p.1, b.1, b.2]))
  | 6 => [if s.rontal.tier2Down then 0 else 1]
  | 7 => [if keep then 0 else 1]
  | _ => []

/-- What step k loaded or decided: step 3 the image, step 4 the layer map, step 8 the trained ports; how the others' decisions are
written is left to Rontal (log 9). -/
def State.stepData (s : State) (img : Image) (keep : Bool) (k : Nat) : List Byte :=
  if k = 3 then leBytes 4 img.rollback ++ img.body
  else if k = 4 then leBytes 8 (s.layerMap 0).toNat ++ leBytes 8 (s.layerMap 1).toNat
  else if k = 8 then ((List.range s.part.ports).filter s.portUp).map (BitVec.ofNat 8)
  else Config.loaded k (s.decided keep k)

/-- The registers after the steps of a start before step h: register k − 2 takes step k; a start resets them first. -/
def State.measured (s : State) (img : Image) (keep : Bool) (h : Nat) : Vector (BitVec 384) 8 :=
  Vector.ofFn (fun i : Fin 8 => if i.val + 2 < h then extendMeasure 0 (s.stepData img keep (i.val + 2)) else 0)

/-! Starts (R379 to R381). -/

/-- Changes of the core map that flash has yet to take reach it, signed (R380, R391). -/
def State.flushMap (s : State) : State :=
  if s.rontal.persist.isEmpty then s
  else (s.rontal.persist.foldl (fun (s : State) p =>
    let v := p.2.toNat
    s.modRontal (fun r => { r with
      flashMap := tblSet r.flashMap (v % 256) (if v.testBit 15 then none else some (bitsOf v 14 8)) })) s).signDevice

/-- The bytes of an image that its signature covers (R380). -/
def Image.signed (i : Image) : List Byte := leBytes 4 i.rollback ++ i.body

/-- The image that a start takes: of those whose signature verifies and whose rollback number is not below the counter the
one with the highest number (R380). -/
def Rontal.image (r : Rontal) : Option Image :=
  ((r.images.map (·.2)).filter (fun i =>
    Config.verify Config.firmwareKey (Config.sha384 i.signed) i.sig && decide (r.rollback ≤ i.rollback))).foldl
      (fun best i => match best with
        | none => some i
        | some b => if b.rollback < i.rollback then some i else some b) none

/-- The device section's signature verifies (R380). -/
def State.sectionOk (s : State) : Bool :=
  Config.verify (Config.derived 1) (Config.sha384 s.deviceSection) s.rontal.deviceSig

/-- The node number that a start takes: that of the provisioned section, or 0 where its signature fails (R380). -/
def Rontal.node (r : Rontal) : Nat :=
  if Config.verify Config.firmwareKey (Config.sha384 (leBytes 1 r.provNode.toNat ++ r.provBody)) r.provSig then
    r.provNode.toNat
  else 0

/-- Rontal as every start leaves it: nothing runs, fault-domain bits clear, host registers and measurements at reset, no
identity key (R379, R381, R382). -/
def Rontal.restart (r : Rontal) : Rontal :=
  { r with
    halted := false
    hostErr := false
    fdstat := 0
    winBase := 0
    winKey := 0
    winEnc := false
    busy := false
    session := none
    identity := none
    measures := Vector.replicate 8 0
    linkUp := true
    pending := 0
    request := 0
    persist := []
    mailbox := []
    msix := [] }

/-- The start halts at a step: the measurements are those of the steps before (R379, R382). -/
def State.halt (s : State) (img : Image) (keep : Bool) (stage : Nat) : State :=
  s.modRontal (fun r => { r with stage := stage, halted := true, state := 1, measures := s.measured img keep stage })

/-- The machine with no task, no launch and nothing in flight, every register at its reset value, around memory and what
outlives a start (R379). -/
def State.fresh' (s : State) (cold keep : Bool) : State :=
  { State.reset with
    mem := s.memAfter keep
    poison := s.poisonAfter keep
    banks := s.banks.map (fun p => (p.1, { p.2 with open_ := none, refreshed := s.time * 21 }))
    columns := s.columns.map (fun p => (p.1, p.2.restart cold))
    cubes := (List.range s.part.cubes).map (fun q => (q, s.cubeAfter q cold keep))
    regions := if cold then [] else s.regions.map (fun p => (p.1, { p.2 with droop := false, periods := Config.maxMHz }))
    queues := if cold then [] else s.queues.map (fun p => (p.1, { p.2 with en := false }))
    doorbells := if cold then [] else s.doorbells
    raceShadow := if keep then s.raceShadow else []
    intervals := s.intervals
    fabric := { Fabric.reset with
      node := s.rontal.node, members := [s.rontal.node], grants := s.fabric.grants }
    telAt := s.time / 250000
    telAggAt := s.time / 1000000
    fcastAt := s.time
    windowAt := s.time / 1000000
    rontal := s.rontal.restart
    part := s.part
    out := s.out
    time := s.time
    cycles := s.cycles
    cur := s.cur
    inputs := s.inputs
    tick := s.tick
    seq := s.seq }

/-- Step 8: a port that fails reaches no node, and without the host link the start goes on (R379). -/
def State.train (s : State) (failing : List StartFailure) : State :=
  let down := (List.range s.part.ports).filter (fun p => failing.contains (.port p))
  { s with
    fabric := { s.fabric with downLinks := down.flatMap (fun p => (List.range 256).map (fun n => (p, n))) }
    rontal := { s.rontal with linkUp := !failing.contains .hostLink } }

/-- Steps 8 and 9: the links train, the measurements close, the module is ready. -/
def State.ready (s : State) (img : Image) (keep : Bool) (failing : List StartFailure) : State :=
  let t := s.train failing
  t.modRontal (fun r => { r with stage := 9, state := 2, measures := t.measured img keep 10 })

/-- Step 5: the banks behind a weight-store bus that fails its test vanish, and the map is carved without them (R351, R379). -/
def State.testBuses (s : State) (failing : List StartFailure) : State :=
  failing.foldl (fun (s : State) f => match f with
    | .bus k i b =>
      if 96 * s.part.cubes ≤ k ∨ 8 < i ∨ b < 4 ∨ 7 < b then s
      else s.modColumn k (fun c => if c.applied.contains (i, b) then c else { c with applied := c.applied ++ [(i, b)] })
    | _ => s) s

/-- The layer map that self-test gives: the dies of each cube that failed; two or more withdraw the cube (R346). -/
def State.spare (s : State) (failing : List StartFailure) : State :=
  (List.range s.part.cubes).foldl (fun (s : State) q =>
    let bad := (List.range 9).filter (fun d => failing.contains (.die q d))
    s.modCube q (fun x =>
      { x with
        failedDies := if bad.length ≤ 1 then bad else []
        withdrawn := decide (2 ≤ bad.length)
        unused := if bad.length = 1 then bad.headD 8 else 8 })) s

/-- The identity key is derived afresh; the image is taken and the rollback counter raised to its number (R380, R381). -/
def State.loadImage (s : State) (img : Image) : State :=
  s.modRontal (fun r => { r with identity := some (Config.derived 0), rollback := img.rollback })

/-- The whole sequence of a cold start (R346, R379 to R383): each step that fails halts it there. The timebase starts at 0 or
at the value TIMESET gave; the error log and the dump are discarded; only key slot 0 is filled, derived afresh. Where the
device section does not verify, the core maps are the identity. -/
def State.coldRun (s : State) (failing : List StartFailure) : State :=
  let s := if s.sectionOk then s else s.modRontal (fun r => { r with flashMap := [] })
  let t := ({ s with time := s.rontal.timeStart.toNat } : State).fresh' true false
  let t := t.modRontal (fun r =>
    { r with
      errors := []
      errCount := 0
      dump := none
      timeStart := 0
      keys := [(0, (Config.freeHandle (s.tick * 32 + 31)))]
      worn := []
      cold := true
      tier2Down := false })
  let none_ : Image := ⟨0, [], 0⟩
  if failing.contains .power then t.halt none_ false 1
  else if failing.contains .identity then t.halt none_ false 2
  else match s.rontal.image with
    | none => (t.modRontal (fun r => { r with identity := some (Config.derived 0) })).halt none_ false 3
    | some img =>
      let t := ((t.loadImage img).spare failing).signDevice
      if (List.range t.part.cubes).all (fun q => (t.cube q).withdrawn) then t.halt img false 4
      else
        let t := t.testBuses failing
        if failing.contains .hbm then t.halt img false 6
        else
          let t := t.modRontal (fun r => { r with tier2Down := failing.contains .tier2 })
          if failing.contains .store then t.halt img false 7 else t.ready img false failing

/-- COLD_START (R379): because it was asked for, once Rontal has written what it had yet to write to flash, or at power-up,
where a write that the loss of power interrupted leaves the earlier signed copy (R380). -/
def execColdStart (failing : List StartFailure) (s : State) : Host.Outcome State Fault Refusal :=
  happen ((if s.rontal.request.getLsbD 1 then s.flushMap else s).coldRun failing)

/-- The sequence of a warm start, with what fails in it: rails stay on, the stored layer map is used, and with KEEP memory
survives (R379). The timebase goes on (R381). Where the device section does not verify it is a cold start, and the stored
layer map is discarded (R346, R380). -/
def State.warmRun (s : State) (keep : Bool) (failing : List StartFailure) : State :=
  let s' := s.flushMap
  let t := (s'.fresh' false keep).modRontal (fun r => { r with cold := false })
  let none_ : Image := ⟨0, [], 0⟩
  if !s'.sectionOk then s'.coldRun failing
  else if failing.contains .identity then t.halt none_ keep 2
  else match s.rontal.image with
    | none => (t.modRontal (fun r => { r with identity := some (Config.derived 0) })).halt none_ keep 3
    | some img =>
      let t := ((t.loadImage img).signDevice).testBuses failing
      if !keep && failing.contains .store then t.halt img keep 7 else t.ready img keep failing

/-- WARM_START, where the host or the Aqkin port has asked for it (R379). What fails in it is a free value (log 49). -/
def execWarmStart (keep : Bool) (s : State) : Host.Outcome State Fault Refusal :=
  happen (if s.rontal.request.getLsbD 0 && s.rontal.request.getLsbD 2 == keep then
    s.warmRun keep (Config.selfTest s.tick) else s)

/-! Fatal errors and the dump (R386, R387). -/

/-- An entry of the error log, 32 bytes. -/
def ErrEntry.bytes (e : ErrEntry) : List Byte :=
  leBytes 4 e.index.toNat ++ leBytes 1 e.code ++ leBytes 1 e.unit ++ leBytes 1 e.core ++ leBytes 1 e.ctx ++
    leBytes 8 e.time ++ leBytes 8 e.addr.toNat ++ leBytes 8 e.sig.toNat

/-- The trap registers of a context, 0x100 to 0x115, and its CTX.ID. -/
def State.dumpCtx (s : State) (c : Nat) : List Byte :=
  let t := { s with cur := c }
  (List.range 22).flatMap (fun i => leBytes 8 (t.csrRead (0x100 + i)).toNat) ++ leBytes 8 (s.ctxId c)

/-- The cores of the package that are in a core map. -/
def State.liveCores (s : State) : List Nat :=
  ((List.range s.part.cubes).filter s.cubeLive).flatMap (fun q =>
    (List.range 96).filterMap (fun l => (s.mapped q l).map (fun p => q * 96 + p)))

/-- The fatal dump. -/
def State.dumpBytes (s : State) (code : Nat) (addr : Word) : List Byte :=
  let body := s.liveCores.flatMap (fun k => [0, 1, 2, 3].flatMap (fun i => s.dumpCtx (4 * k + i))) ++
    s.rontal.errors.flatMap ErrEntry.bytes
  leBytes 4 1 ++ leBytes 4 code ++ leBytes 8 s.time ++ leBytes 8 addr.toNat ++ leBytes 4 body.length ++ leBytes 36 0 ++ body

/-- A fatal uncorrectable error enters the error log without a message of its own (R387). -/
def State.logFatal (s : State) (addr : Word) : State :=
  { s.logError 2 addr 0 0 0 0 with out := s.out }

/-- Where the dump lies: in cube 0, or in cube 1 where cube 0 is withdrawn (R387; log 50). -/
def State.dumpAt (s : State) : Nat := Config.dumpBase + (if (s.cube 0).withdrawn then 2 ^ 38 else 0)

/-- Memory once the dump is written: its 1 MiB hold what slot 0 makes of it, which is unpredictable (R383, R387; log 6). -/
def State.dumped (s : State) : List Host.Cell :=
  let gone := fun l => decide (s.dumpAt ≤ l) && decide (l < s.dumpAt + 2 ^ 20)
  mergeMem (s.mem.filter (fun c => !gone c.1)) (s.unpredictable gone)

/-! Errors in tables (R386). -/

/-- The 64 bytes at a location lie in a table of the walk that starts at another table (R269). An entry that names a table
has a byte other than 0 at its first location, which memory lists. -/
def inTable (m : List Host.Cell) : List (Nat × Nat × Nat) → Nat → Nat → Bool
  | [], _, _ => false
  | (sh, cnt, nxt) :: rest, tbl, a =>
    overlaps a 64 tbl (32 * cnt) || m.any (fun c =>
      decide (tbl ≤ c.1) && decide (c.1 < tbl + 32 * cnt) && (c.1 - tbl) % 32 == 0 &&
      let e := memRead m c.1 32
      entryOk e (2 ^ sh) nxt && e % 4 == 1 && inTable m rest (bitsOf e 115 64) a)

/-- The address spaces that the hardware walks: those of launches and of the queues that have entries to read, of entries held
back, and that of the telemetry ring (R269, R282, R365). -/
def State.asidsInUse (s : State) : List Nat :=
  (s.launches.map (·.asid) ++
    (s.queues.filter (fun p : Nat × Queue => p.2.en && p.2.head != p.2.tail)).map (fun p => p.2.asid.toNat) ++
    s.heldLaunches.map (·.asid) ++ (if s.telSize = 0#4 then [] else [s.telAgent.asid])).eraseDups

/-- Their root tables (R269). -/
def State.rootsInUse (s : State) : List Nat :=
  ((s.asidsInUse.map (fun n => memRead s.mem (Config.asidBase + 8 * n) 8)).eraseDups).filter (fun r => r != 0)

/-- The 64 bytes at a location hold polder records, root addresses, translation tables in use or saved contexts (R386;
log 26). -/
def State.holdsTables (s : State) (a : Nat) : Bool :=
  overlaps a 64 Config.polderBase (128 * Config.polders) || overlaps a 64 Config.asidBase (8 * 4096) ||
  (!s.saved.isEmpty && overlaps a 64 Config.saveBase Config.saveBytes) ||
  s.rootsInUse.any (fun r => inTable s.mem walkLevels r a)

/-- An uncorrectable error that is fatal (R386). -/
def State.tableError (s : State) : Option Nat :=
  if s.rontal.state = 3#3 then none else (s.poison.map (fun q => 64 * q)).find? s.holdsTables

/-- FATAL_EVENT: 1 thermal, 2 uncorrectable error, 3 link, 4 supply, 5 watchdog (R386). What the arrays were doing is lost with
their power. -/
def execFatalEvent (code : Nat) (addr : BitVec 64) (s : State) : Host.Outcome State Fault Refusal :=
  happen (if s.rontal.state == 3#3 || !(decide (1 ≤ code) && decide (code ≤ 5)) then s
    else
      let t := if code = 2 then s.logFatal addr else s
      let t := { t with ops := t.ops.filter (fun o => o.engine != 0) }
      let t := (List.range 256).foldl State.stopDomain t
      let t := t.launches.foldl State.failLaunch t
      let t := { t with mem := t.dumped }.modRontal (fun r =>
        { r with dump := some (t.dumpBytes code (if code = 2 then addr else 0)), state := 3 })
      t.emit (.msix 1))

end Sys2Proof.Machine
end

