-- ==== Sys2Proof/Machine/Host.lean ====
section
/-! DEFINITION. The host's registers and window, the Rontal mailbox and the Aqkin port (spec 14 R368 to R378, R382 to R387,
R391). -/

namespace Sys2Proof.Machine

/-! BAR0 (R369, R371, R372, R377). -/

/-- DEV.STAT. -/
def State.devStat (s : State) : Word :=
  let r := s.rontal
  fields [(r.state.toNat, 0), (bit r.halted, 3), (r.stage, 8), (bit r.hostErr, 16)]

/-- A write of DEV.CTL asks for a start, which the next COLD_START or WARM_START runs (R379). -/
def State.askStart (s : State) (v : BitVec 3) : State :=
  if v.extractLsb' 0 2 = 0#2 then s else s.modRontal (fun r => { r with request := v })

/-- Q.CTL: SIZE, LOC and ASID do not change while EN = 1 (R372). -/
def Queue.setControl (q : Queue) (v : Word) : Queue :=
  let p := { q with ien := v.getLsbD 3, en := v.getLsbD 0 }
  if q.en then p else { p with asid := v.extractLsb' 32 12, size := v.extractLsb' 16 4, loc := v.getLsbD 1 }

/-- A write to a register of queue n (R372, R374). -/
def State.writeQueue (s : State) (n reg : Nat) (v : Word) : State :=
  let q := s.queue n
  match reg with
  | 0 => if q.en then s else s.setQueue n { q with base := v &&& ~~~0x3F#64 }
  | 8 => s.setQueue n (q.setControl v)
  | 16 => s.postEntries n (v.setWidth 16)
  | _ => s

/-- Acknowledge the stops of the fault domains whose bits a word of DEV.FDSTAT holds (R377). -/
def State.acknowledge (s : State) (word : Nat) (v : Word) : State :=
  s.modRontal (fun r => { r with fdstat := r.fdstat &&& ~~~(v.setWidth 256 <<< (64 * word)) })

/-- The code in the mailbox (R378). -/
def State.mailCode (s : State) : Nat := leNat ((List.range 4).map (fun i => tblGet s.rontal.mailbox i 0))

/-- n bytes of the mailbox from an offset (R378). -/
def State.mailBytes (s : State) (off n : Nat) : Nat := leNat ((List.range n).map (fun i => tblGet s.rontal.mailbox (off + i) 0))

/-- Put bytes into the mailbox. -/
def mailPut (t : Tbl Byte) (off : Nat) (bs : List Byte) : Tbl Byte :=
  bs.zipIdx.foldl (fun t b => tblSet t (off + b.2) b.1) t

/-- A write into the mailbox: bytes of the payload; a code, where no command is under way, makes it busy, status 0 (R378). -/
def State.writeMailbox (s : State) (off : Nat) (v : Word) : State :=
  if off = 0 then
    if s.rontal.busy then s
    else s.modRontal (fun r => { r with
      busy := true, mailbox := mailPut (mailPut r.mailbox 0 (leBytes 4 v.toNat)) 4 (leBytes 4 0) })
  else if off < 64 then s
  else s.modRontal (fun r => { r with mailbox := mailPut r.mailbox off (leBytes 8 v.toNat) })

/-- The host has given a command that Rontal has not executed (R378). -/
def State.given (s : State) (code : Nat) : Bool := s.rontal.busy && s.mailCode == code

/-- WIN.CTL (R371). -/
def State.writeWindow (s : State) (v : Word) : State :=
  s.modRontal (fun r =>
    { r with winBase := v.extractLsb' 36 16, winKey := v.extractLsb' 17 13, winEnc := v.getLsbD 16 })

/-- A host write of 8 bytes at an offset of BAR0; one that no block assigns, and the pending-bit array, ignore it (R369). -/
def State.writeBar (s : State) (off : Nat) (v : Word) : State :=
  if off = 0x0 then (if v.getLsbD 16 then s.modRontal (fun r => { r with hostErr := false }) else s)
  else if off = 0x8 then s.askStart (v.setWidth 3)
  else if 0x40 ≤ off ∧ off < 0x60 ∧ off % 8 = 0 then s.acknowledge ((off - 0x40) / 8) v
  else if 0x1000 ≤ off ∧ off < 0x1800 then s.writeQueue ((off - 0x1000) / 64) (off % 64) v
  else if 0x2000 ≤ off ∧ off < 0x2400 ∧ off % 8 = 0 then s.modRontal (fun r => { r with msix := tblSet r.msix ((off - 0x2000) / 8) v })
  else if 0x4000 ≤ off ∧ off < 0x5000 then s.writeMailbox (off - 0x4000) v
  else if off = 0x8000 then s.writeWindow v
  else s

/-- REGISTER_WRITE: of a control and status register in the scope of the context State.cur, or by the host of BAR0 (R10, R23,
R369). -/
def execRegisterWrite (bar0 : Bool) (n : Nat) (v : BitVec 64) (s : State) : Host.Outcome State Fault Refusal :=
  happen (if bar0 then s.writeBar n v else s.csrWrite n v)

/-- FAULT_DOMAIN_ACKNOWLEDGE: the held launches of the domain are taken again (R377). -/
def execFaultDomainAcknowledge (fdom : BitVec 8) (s : State) : Host.Outcome State Fault Refusal :=
  happen (s.acknowledge (fdom.toNat / 64) (1#64 <<< (fdom.toNat % 64)))

/-! BAR2 (R368, R371). -/

/-- Every byte of a range lies in installed package memory (R370). -/
def State.installed (s : State) (pa n : Nat) : Bool :=
  let ok := fun (a : Nat) => s.inHbm a || (s.hasTier2 && s.inTier2 a)
  ok pa && ok (pa + n - 1)

/-- An operation and size that BAR2 completes: reads and writes, and the AtomicOps FetchAdd, Swap and CAS of 32 and 64 bits
(R368). -/
def windowOp (o size : Nat) : Bool :=
  (decide (o < 2) && size != 0) || ([2, 10, 11].contains o && (size == 4 || size == 8))

/-- Window accesses are encrypted with a key that no slot holds: what they give or store is left open (R371, R383; log 52). -/
def State.winBlind (s : State) : Bool := s.rontal.winEnc && (tblFind s.rontal.keys s.rontal.winKey.toNat).isNone

/-- n bytes that the spec leaves open. -/
def State.openBytes (s : State) (n : Nat) : Nat := leNat ((List.range n).map (fun i => Config.freeByte s.tick i))

/-- HOST_WINDOW_ACCESS: operation 0 reads, 1 writes, 2, 10 and 11 are the AtomicOps FetchAdd, Swap and CAS (R368, R371). A
read of absent memory returns all ones, a write is discarded. -/
def execHostWindowAccess (op : BitVec 8) (offset size data : Nat) (cmp : BitVec 64) (s : State) :
    Host.Outcome State Fault Refusal :=
  let pa := s.rontal.winBase.toNat * 2 ^ 36 + offset
  let o := op.toNat
  happen (if !windowOp o size || decide (2 ^ 36 < offset + size) then s
    else if !s.installed pa size then
      let t := s.modRontal (fun r => { r with hostErr := true })
      if o = 1 then t else t.emit (.hostData (2 ^ (8 * size) - 1))
    else
      let (old, t) := if s.winBlind then (s.openBytes size, if o = 0 then s else (s.foreign pa 1 size (s.openBytes size) 0).2)
        else s.foreign pa o size data cmp
      if o = 1 then t else t.emit (.hostData old))

/-- An AtomicOp request to the host fails: its load completes with an error (R82, R370). -/
def State.atomicFailed (s : State) (id : Nat) : State :=
  match s.loads.find? (fun l => l.id == id) with
  | some l => if l.kind.isAtomic && l.kind.place.any (fun a => a / 2 ^ 50 == 2) then s.landLoad { l with lost := true } else s
  | none => s

/-! The mailbox (R378). -/

/-- A command of the mailbox ends: status, payload, vector 0. -/
def State.mailReply (s : State) (code status : Nat) (payload : List Byte) : State :=
  let t := s.modRontal (fun r =>
    { r with
      busy := false
      mailbox := mailPut (mailPut r.mailbox 64 payload) 4 (leBytes 4 status) })
  (t.emit (.reply code status payload)).emit (.msix 0)

def done_ : Nat := 1
def refused_ : Nat := 2

/-- INFO (R378). -/
def execInfo (s : State) : Host.Outcome State Fault Refusal :=
  happen (if !s.given 1 then s else s.mailReply 1 done_ ([Config.polderBase, Config.asidBase, Config.saveBase, Config.raceShadowBase].flatMap (leBytes 8)))

/-- GROUP: 0 joins, 1 leaves, 2 forms a group of the nodes given, by the handshake; refused without UALink (R324, R343,
R389; log 32). -/
def execGroup (cmd : Nat) (nodes : List Nat) (s : State) : Host.Outcome State Fault Refusal :=
  let ms := sortNodes (s.fabric.node :: nodes)
  happen (if !s.given 2 then s
    else if !s.part.fabric || decide (2 < cmd) || (cmd == 1 && !s.grouped) ||
      (cmd == 2 && !(ms.all (fun n => decide (n < 256)))) then s.mailReply 2 refused_ []
    else match cmd with
      | 0 => ((s.modFabric (fun f => { f with joining := true, acks := [] })).emit (.joinRequest s.ownLimit)).mailReply 2 done_ []
      | 1 => (s.modFabric (fun f => { f with leaving := true })).mailReply 2 done_ []
      | _ => ((s.modFabric (fun f => { f with forming := some ms, acks := [] })).emit
        (.formRequest s.ownLimit s.fabric.seq.toNat ms)).mailReply 2 done_ [])

/-- Memory once a slot is reloaded: the bytes of the pages that use it are unpredictable (R383; log 6). -/
def State.rekeyed (s : State) : List Host.Cell :=
  let gone := fun l => isPackage l && Config.underSlot s.tick l
  mergeMem (s.mem.filter (fun c => !gone c.1)) (s.unpredictable gone)

/-- KEY_LOAD: refused for slot 0, without a session, or where the key does not unwrap; a slot that held a key before makes
the contents of its pages unpredictable (R383; log 52). -/
def execKeyLoad (slot : BitVec 13) (wrapped : BitVec 320) (s : State) : Host.Outcome State Fault Refusal :=
  happen (if !s.given 3 then s
    else match s.rontal.session.bind (fun k => Config.unwrapKey k wrapped) with
    | none => s.mailReply 3 refused_ []
    | some k =>
      if slot = 0#13 then s.mailReply 3 refused_ []
      else
        let t := if slot.toNat ∈ s.rontal.worn then { s with mem := s.rekeyed } else s
        (t.modRontal (fun r => { r with keys := tblSet r.keys slot.toNat k
                                        worn := if slot.toNat ∈ r.worn then r.worn else r.worn ++ [slot.toNat] })).mailReply
          3 done_ [])

/-- KEY_CLEAR: refused for slot 0 (R383). -/
def execKeyClear (slot : BitVec 13) (s : State) : Host.Outcome State Fault Refusal :=
  happen (if !s.given 4 then s
    else if slot = 0#13 then s.mailReply 4 refused_ []
    else (s.modRontal (fun r => { r with keys := tblDel r.keys slot.toNat })).mailReply 4 done_ [])

/-- The measurement registers and a caller's nonce, signed with the identity key, if there is one (R379, R382). -/
def State.report (s : State) (nonce : BitVec 256) : Option (List Byte) :=
  let body := s.rontal.measures.toList.flatMap measureBytes ++ leBytes 32 nonce.toNat
  s.rontal.identity.map (fun k => body ++ leBytes 96 (Config.sign k (Config.sha384 body)).toNat)

/-- ATTEST; without an identity key no attestation is possible (R379, R382). -/
def execAttest (nonce : BitVec 256) (s : State) : Host.Outcome State Fault Refusal :=
  happen (if !s.given 5 then s
    else match s.report nonce with
    | some b => s.mailReply 5 done_ b
    | none => s.mailReply 5 refused_ [])

/-- The error log from an index on, at most n entries, after the index of the oldest entry still held (R387). -/
def State.errorsFrom (s : State) (index : BitVec 32) (n : Nat) : List Byte :=
  let es := s.rontal.errors
  let oldest := (es.head?.map (fun e => e.index.toNat)).getD s.rontal.errCount.toNat
  leBytes 4 oldest ++ ((es.filter (fun e => decide (index.toNat ≤ e.index.toNat))).take n).flatMap ErrEntry.bytes

/-- ERRLOG: as many entries as the payload holds (R378, R387). -/
def execErrlog (index : BitVec 32) (s : State) : Host.Outcome State Fault Refusal :=
  happen (if !s.given 6 then s else s.mailReply 6 done_ (s.errorsFrom index 125))

/-! The Aqkin port (R384, R385). -/

/-- A command of the port is answered. -/
def State.answer (s : State) (code status : Nat) (payload : List Byte) : State := s.emit (.aqkin code status payload)

/-- STATUS. -/
def execStatus (s : State) : Host.Outcome State Fault Refusal :=
  happen (s.answer 1 done_ ([s.devStat, s.layerMap 0, s.layerMap 1, BitVec.ofNat 64 s.rontal.portLost].flatMap
    (fun w => leBytes 8 w.toNat)))

/-- RESET: 0 cold, 1 warm, 2 warm with KEEP (R384). -/
def execReset (kind : BitVec 2) (s : State) : Host.Outcome State Fault Refusal :=
  happen (match kind.toNat with
    | 0 => (s.askStart 2).answer 2 done_ []
    | 1 => (s.askStart 1).answer 2 done_ []
    | 2 => (s.askStart 5).answer 2 done_ []
    | _ => s.answer 2 refused_ [])

/-- TELEMETRY: up to 32 records leave the buffer (R384, R385). -/
def execTelemetry (n : Nat) (s : State) : Host.Outcome State Fault Refusal :=
  let k := min n 32
  happen ((s.modRontal (fun r => { r with port := r.port.drop k })).answer 3 done_
    ((s.rontal.port.take k).flatMap (fun r => leBytes 32 r.toNat)))

/-- DUMP_READ: up to 1,024 bytes of a dump that is present (R384). -/
def execDumpRead (offset len : Nat) (s : State) : Host.Outcome State Fault Refusal :=
  happen (match s.rontal.dump with
    | some d => if len ≤ 1024 then s.answer 4 done_ ((d.drop offset).take len) else s.answer 4 refused_ []
    | none => s.answer 4 refused_ [])

/-- DUMP_CLEAR. -/
def execDumpClear (s : State) : Host.Outcome State Fault Refusal :=
  happen ((s.modRontal (fun r => { r with dump := none })).answer 5 done_ [])

/-- CONFIG_READ: the provisioned section and the device section, each with its signature (R380). -/
def execConfigRead (s : State) : Host.Outcome State Fault Refusal :=
  let r := s.rontal
  happen (s.answer 6 done_ (leBytes 1 r.provNode.toNat ++ r.provBody ++ leBytes 96 r.provSig.toNat ++ s.deviceSection ++
    leBytes 96 r.deviceSig.toNat))

/-- CONFIG_WRITE: slot 0 is the provisioned section, slots 1 and 2 the images; the signature has to verify, and the start that
follows applies it (R380, R384). -/
def execConfigWrite (node : BitVec 8) (slot : Nat) (rollback : Nat) (body : List (BitVec 8)) (sig : BitVec 768) (s : State) :
    Host.Outcome State Fault Refusal :=
  let signed := if slot = 0 then leBytes 1 node.toNat ++ body else leBytes 4 rollback ++ body
  happen (if decide (2 < slot) || !Config.verify Config.firmwareKey (Config.sha384 signed) sig then s.answer 7 refused_ []
    else if slot = 0 then
      (s.modRontal (fun r => { r with provNode := node, provBody := body, provSig := sig })).answer 7 done_ []
    else (s.modRontal (fun r => { r with images := tblSet r.images (slot - 1) ⟨rollback, body, sig⟩ })).answer 7 done_ [])

/-- The physical core that a logical number may return to: the one it had, or else the one of its own number (R391). -/
def State.restorable (s : State) (q l : Nat) : Option Nat :=
  let free := fun (p : Nat) => (s.logicalOf (q * 96 + p)).isNone
  match (List.range 96).find? (fun p => free p && s.logical (q * 96 + p) == l) with
  | some p => some p
  | none => if free l then some l else none

/-- CMAP_RESTORE: needs a session (R384, R391). -/
def execCmapRestore (cube : Nat) (logical : BitVec 7) (s : State) : Host.Outcome State Fault Refusal :=
  let l := logical.toNat
  happen (if s.rontal.session.isNone || decide (95 < l) || decide (s.part.cubes ≤ cube) then s.answer 8 refused_ []
    else if (s.mapped cube l).isSome then s.answer 8 done_ []
    else match s.restorable cube l with
      | none => s.answer 8 refused_ []
      | some p => (s.mapCore (p * 256 + cube * 128 + l)).answer 8 done_ [])

/-- TIMESET: before step 9 of a cold start, so where a cold start has halted or been asked for (R381, R384). -/
def execTimeset (v : BitVec 64) (s : State) : Host.Outcome State Fault Refusal :=
  happen (if (s.rontal.state == 1#3 && s.rontal.cold) || s.rontal.request.getLsbD 1 then
      (s.modRontal (fun r => { r with timeStart := v })).answer 9 done_ []
    else s.answer 9 refused_ [])

/-- ERRLOG_READ: up to 32 entries (R384, R387). -/
def execErrlogRead (index : BitVec 32) (n : Nat) (s : State) : Host.Outcome State Fault Refusal :=
  happen (s.answer 10 done_ (s.errorsFrom index (min n 32)))

/-- GET_MEASUREMENTS of SPDM (R382). -/
def execGetMeasurements (nonce : BitVec 256) (s : State) : Host.Outcome State Fault Refusal :=
  happen (match s.report nonce with
    | some b => s.answer 0xE0 done_ b
    | none => s.answer 0xE0 refused_ [])

/-- SPDM_SECURED_SESSION: a secured session is established, under a session key (R383; log 9). -/
def execSpdmSecuredSession (s : State) : Host.Outcome State Fault Refusal :=
  happen (s.modRontal (fun r => { r with session := some (Config.sessionKey s.tick) }))

end Sys2Proof.Machine
end

