-- ==== Sys2Proof/Machine/Scalar.lean ====
section
/-! DEFINITION. Scalar arithmetic: immediates (spec 03 R78), register forms (R79), multiply and divide
(R80), PTGT and the compares (R97). -/

namespace Sys2Proof.Machine

/-! Shared arithmetic. -/

/-- A result of latency 1, or transient where T = 1 (R58, R79). -/
def State.alu (s : State) (d : BitVec 5) (t : BitVec 1) (v : Word) : State :=
  if t = 1#1 then s.modMe (fun x => x.putT d v) else s.put d v 1

/-- Shifts by n in the plain form, over the low 32 bits in the .w form (R78, R79). -/
def shl (x : BitVec 1) (a : Word) (n : Nat) : Word :=
  if x = 0#1 then a <<< n else (a.setWidth 32 <<< n).signExtend 64
def shr (x : BitVec 1) (a : Word) (n : Nat) : Word :=
  if x = 0#1 then a >>> n else (a.setWidth 32 >>> n).signExtend 64
def sar (x : BitVec 1) (a : Word) (n : Nat) : Word :=
  if x = 0#1 then a.sshiftRight n else ((a.setWidth 32).sshiftRight n).signExtend 64

/-- Leading zeros of the low n bits. -/
def leadZeros (v : Nat) : Nat → Nat
  | 0 => 0
  | n + 1 => if v.testBit n then 0 else 1 + leadZeros v n
/-- Trailing zeros among bits k, k + 1, … of n bits. -/
def trailZeros (v k : Nat) : Nat → Nat
  | 0 => 0
  | n + 1 => if v.testBit k then 0 else 1 + trailZeros v (k + 1) n
/-- Set bits among the low n bits. -/
def popCount (v : Nat) : Nat → Nat
  | 0 => 0
  | n + 1 => (if v.testBit n then 1 else 0) + popCount v n

/-- Division of R80 at n bits: by zero all ones, the most negative by -1 itself. -/
def quotS {n : Nat} (a b : BitVec n) : BitVec n := if b = 0#n then BitVec.allOnes n else a.sdiv b
def quotU {n : Nat} (a b : BitVec n) : BitVec n := if b = 0#n then BitVec.allOnes n else a / b
/-- Remainder of R80 at n bits: by zero the dividend; it takes the sign of the dividend. -/
def remS {n : Nat} (a b : BitVec n) : BitVec n := if b = 0#n then a else a.srem b
def remU {n : Nat} (a b : BitVec n) : BitVec n := if b = 0#n then a else a % b

/-- Bits 127:64 of an exact product (R80). -/
def highProduct (a b : Int) : Word := BitVec.ofInt 64 (a * b / 2 ^ 64)

/-! Immediates (R78). -/

def execAddi (d : BitVec 5) (a : BitVec 5) (i : BitVec 12) (s : State) : Host.Outcome State Fault Refusal :=
  always (fun s => s.put d (s.sr a + imm12 i) 1) s
def execAddiW (d : BitVec 5) (a : BitVec 5) (i : BitVec 12) (s : State) : Host.Outcome State Fault Refusal :=
  always (fun s => s.put d (sextW (s.sr a + imm12 i)) 1) s
def execAndi (d : BitVec 5) (a : BitVec 5) (i : BitVec 12) (s : State) : Host.Outcome State Fault Refusal :=
  always (fun s => s.put d (s.sr a &&& imm12 i) 1) s
def execOri (d : BitVec 5) (a : BitVec 5) (i : BitVec 12) (s : State) : Host.Outcome State Fault Refusal :=
  always (fun s => s.put d (s.sr a ||| imm12 i) 1) s
def execXori (d : BitVec 5) (a : BitVec 5) (i : BitVec 12) (s : State) : Host.Outcome State Fault Refusal :=
  always (fun s => s.put d (s.sr a ^^^ imm12 i) 1) s
def execSlli (d : BitVec 5) (a : BitVec 5) (x : BitVec 1) (n : BitVec 6) (s : State) : Host.Outcome State Fault Refusal :=
  always (fun s => s.put d (shl x (s.sr a) n.toNat) 1) s
def execSrli (d : BitVec 5) (a : BitVec 5) (x : BitVec 1) (n : BitVec 6) (s : State) : Host.Outcome State Fault Refusal :=
  always (fun s => s.put d (shr x (s.sr a) n.toNat) 1) s
def execSrai (d : BitVec 5) (a : BitVec 5) (x : BitVec 1) (n : BitVec 6) (s : State) : Host.Outcome State Fault Refusal :=
  always (fun s => s.put d (sar x (s.sr a) n.toNat) 1) s
def execLi (d : BitVec 5) (i : BitVec 17) (s : State) : Host.Outcome State Fault Refusal :=
  always (fun s => s.put d (imm17 i) 1) s
def execLui (d : BitVec 5) (i : BitVec 17) (s : State) : Host.Outcome State Fault Refusal :=
  always (fun s => s.put d (imm17 i <<< 17) 1) s
def execLsi (d : BitVec 5) (i : BitVec 17) (s : State) : Host.Outcome State Fault Refusal :=
  always (fun s => s.put d (s.sr d <<< 17 ||| i.setWidth 64) 1) s

/-! Register forms (R79). -/

def execAdd (d : BitVec 5) (a : BitVec 5) (b : BitVec 5) (t : BitVec 1) (s : State) : Host.Outcome State Fault Refusal :=
  always (fun s => s.alu d t (s.sr a + s.sr b)) s
def execSub (d : BitVec 5) (a : BitVec 5) (b : BitVec 5) (t : BitVec 1) (s : State) : Host.Outcome State Fault Refusal :=
  always (fun s => s.alu d t (s.sr a - s.sr b)) s
def execAnd (d : BitVec 5) (a : BitVec 5) (b : BitVec 5) (t : BitVec 1) (s : State) : Host.Outcome State Fault Refusal :=
  always (fun s => s.alu d t (s.sr a &&& s.sr b)) s
def execOr (d : BitVec 5) (a : BitVec 5) (b : BitVec 5) (t : BitVec 1) (s : State) : Host.Outcome State Fault Refusal :=
  always (fun s => s.alu d t (s.sr a ||| s.sr b)) s
def execXor (d : BitVec 5) (a : BitVec 5) (b : BitVec 5) (t : BitVec 1) (s : State) : Host.Outcome State Fault Refusal :=
  always (fun s => s.alu d t (s.sr a ^^^ s.sr b)) s
def execAndn (d : BitVec 5) (a : BitVec 5) (b : BitVec 5) (t : BitVec 1) (s : State) : Host.Outcome State Fault Refusal :=
  always (fun s => s.alu d t (s.sr a &&& ~~~(s.sr b))) s
def execSll (d : BitVec 5) (a : BitVec 5) (b : BitVec 5) (t : BitVec 1) (s : State) : Host.Outcome State Fault Refusal :=
  always (fun s => s.alu d t (shl 0 (s.sr a) ((s.sr b).toNat % 64))) s
def execSrl (d : BitVec 5) (a : BitVec 5) (b : BitVec 5) (t : BitVec 1) (s : State) : Host.Outcome State Fault Refusal :=
  always (fun s => s.alu d t (shr 0 (s.sr a) ((s.sr b).toNat % 64))) s
def execSra (d : BitVec 5) (a : BitVec 5) (b : BitVec 5) (t : BitVec 1) (s : State) : Host.Outcome State Fault Refusal :=
  always (fun s => s.alu d t (sar 0 (s.sr a) ((s.sr b).toNat % 64))) s
def execMin (d : BitVec 5) (a : BitVec 5) (b : BitVec 5) (t : BitVec 1) (s : State) : Host.Outcome State Fault Refusal :=
  always (fun s => s.alu d t (if (s.sr a).slt (s.sr b) then s.sr a else s.sr b)) s
def execMax (d : BitVec 5) (a : BitVec 5) (b : BitVec 5) (t : BitVec 1) (s : State) : Host.Outcome State Fault Refusal :=
  always (fun s => s.alu d t (if (s.sr a).slt (s.sr b) then s.sr b else s.sr a)) s
def execMinu (d : BitVec 5) (a : BitVec 5) (b : BitVec 5) (t : BitVec 1) (s : State) : Host.Outcome State Fault Refusal :=
  always (fun s => s.alu d t (if (s.sr a).ult (s.sr b) then s.sr a else s.sr b)) s
def execMaxu (d : BitVec 5) (a : BitVec 5) (b : BitVec 5) (t : BitVec 1) (s : State) : Host.Outcome State Fault Refusal :=
  always (fun s => s.alu d t (if (s.sr a).ult (s.sr b) then s.sr b else s.sr a)) s
def execClz (d : BitVec 5) (a : BitVec 5) (t : BitVec 1) (s : State) : Host.Outcome State Fault Refusal :=
  always (fun s => s.alu d t (BitVec.ofNat 64 (leadZeros (s.sr a).toNat 64))) s
def execCtz (d : BitVec 5) (a : BitVec 5) (t : BitVec 1) (s : State) : Host.Outcome State Fault Refusal :=
  always (fun s => s.alu d t (BitVec.ofNat 64 (trailZeros (s.sr a).toNat 0 64))) s
def execPopc (d : BitVec 5) (a : BitVec 5) (t : BitVec 1) (s : State) : Host.Outcome State Fault Refusal :=
  always (fun s => s.alu d t (BitVec.ofNat 64 (popCount (s.sr a).toNat 64))) s
def execSextB (d : BitVec 5) (a : BitVec 5) (t : BitVec 1) (s : State) : Host.Outcome State Fault Refusal :=
  always (fun s => s.alu d t (((s.sr a).setWidth 8).signExtend 64)) s
def execSextH (d : BitVec 5) (a : BitVec 5) (t : BitVec 1) (s : State) : Host.Outcome State Fault Refusal :=
  always (fun s => s.alu d t (((s.sr a).setWidth 16).signExtend 64)) s
def execSextW (d : BitVec 5) (a : BitVec 5) (t : BitVec 1) (s : State) : Host.Outcome State Fault Refusal :=
  always (fun s => s.alu d t (sextW (s.sr a))) s
def execZextB (d : BitVec 5) (a : BitVec 5) (t : BitVec 1) (s : State) : Host.Outcome State Fault Refusal :=
  always (fun s => s.alu d t (((s.sr a).setWidth 8).setWidth 64)) s
def execZextH (d : BitVec 5) (a : BitVec 5) (t : BitVec 1) (s : State) : Host.Outcome State Fault Refusal :=
  always (fun s => s.alu d t (((s.sr a).setWidth 16).setWidth 64)) s
def execZextW (d : BitVec 5) (a : BitVec 5) (t : BitVec 1) (s : State) : Host.Outcome State Fault Refusal :=
  always (fun s => s.alu d t (((s.sr a).setWidth 32).setWidth 64)) s
def execSadd1 (d : BitVec 5) (a : BitVec 5) (b : BitVec 5) (t : BitVec 1) (s : State) : Host.Outcome State Fault Refusal :=
  always (fun s => s.alu d t (s.sr a + (s.sr b <<< 1))) s
def execSadd2 (d : BitVec 5) (a : BitVec 5) (b : BitVec 5) (t : BitVec 1) (s : State) : Host.Outcome State Fault Refusal :=
  always (fun s => s.alu d t (s.sr a + (s.sr b <<< 2))) s
def execSadd3 (d : BitVec 5) (a : BitVec 5) (b : BitVec 5) (t : BitVec 1) (s : State) : Host.Outcome State Fault Refusal :=
  always (fun s => s.alu d t (s.sr a + (s.sr b <<< 3))) s
def execSadd4 (d : BitVec 5) (a : BitVec 5) (b : BitVec 5) (t : BitVec 1) (s : State) : Host.Outcome State Fault Refusal :=
  always (fun s => s.alu d t (s.sr a + (s.sr b <<< 4))) s
def execAddW (d : BitVec 5) (a : BitVec 5) (b : BitVec 5) (t : BitVec 1) (s : State) : Host.Outcome State Fault Refusal :=
  always (fun s => s.alu d t (sextW (s.sr a + s.sr b))) s
def execSubW (d : BitVec 5) (a : BitVec 5) (b : BitVec 5) (t : BitVec 1) (s : State) : Host.Outcome State Fault Refusal :=
  always (fun s => s.alu d t (sextW (s.sr a - s.sr b))) s
def execSllW (d : BitVec 5) (a : BitVec 5) (b : BitVec 5) (t : BitVec 1) (s : State) : Host.Outcome State Fault Refusal :=
  always (fun s => s.alu d t (shl 1 (s.sr a) ((s.sr b).toNat % 32))) s
def execSrlW (d : BitVec 5) (a : BitVec 5) (b : BitVec 5) (t : BitVec 1) (s : State) : Host.Outcome State Fault Refusal :=
  always (fun s => s.alu d t (shr 1 (s.sr a) ((s.sr b).toNat % 32))) s
def execSraW (d : BitVec 5) (a : BitVec 5) (b : BitVec 5) (t : BitVec 1) (s : State) : Host.Outcome State Fault Refusal :=
  always (fun s => s.alu d t (sar 1 (s.sr a) ((s.sr b).toNat % 32))) s
def execClzW (d : BitVec 5) (a : BitVec 5) (t : BitVec 1) (s : State) : Host.Outcome State Fault Refusal :=
  always (fun s => s.alu d t (BitVec.ofNat 64 (leadZeros (s.sr a).toNat 32))) s
def execCtzW (d : BitVec 5) (a : BitVec 5) (t : BitVec 1) (s : State) : Host.Outcome State Fault Refusal :=
  always (fun s => s.alu d t (BitVec.ofNat 64 (trailZeros (s.sr a).toNat 0 32))) s
def execPopcW (d : BitVec 5) (a : BitVec 5) (t : BitVec 1) (s : State) : Host.Outcome State Fault Refusal :=
  always (fun s => s.alu d t (BitVec.ofNat 64 (popCount (s.sr a).toNat 32))) s

/-! Multiply and divide (R80). -/

def execMul (d : BitVec 5) (a : BitVec 5) (b : BitVec 5) (s : State) : Host.Outcome State Fault Refusal :=
  always (fun s => s.put d (s.sr a * s.sr b) 3) s
def execMulh (d : BitVec 5) (a : BitVec 5) (b : BitVec 5) (s : State) : Host.Outcome State Fault Refusal :=
  always (fun s => s.put d (highProduct (s.sr a).toInt (s.sr b).toInt) 3) s
def execMulhu (d : BitVec 5) (a : BitVec 5) (b : BitVec 5) (s : State) : Host.Outcome State Fault Refusal :=
  always (fun s => s.put d (highProduct (s.sr a).toNat (s.sr b).toNat) 3) s
def execMulhsu (d : BitVec 5) (a : BitVec 5) (b : BitVec 5) (s : State) : Host.Outcome State Fault Refusal :=
  always (fun s => s.put d (highProduct (s.sr a).toInt (s.sr b).toNat) 3) s
def execMulW (d : BitVec 5) (a : BitVec 5) (b : BitVec 5) (s : State) : Host.Outcome State Fault Refusal :=
  always (fun s => s.put d (sextW (s.sr a * s.sr b)) 3) s
def execDiv (d : BitVec 5) (a : BitVec 5) (b : BitVec 5) (s : State) : Host.Outcome State Fault Refusal :=
  always (fun s => s.put d (quotS (s.sr a) (s.sr b)) 20) s
def execDivu (d : BitVec 5) (a : BitVec 5) (b : BitVec 5) (s : State) : Host.Outcome State Fault Refusal :=
  always (fun s => s.put d (quotU (s.sr a) (s.sr b)) 20) s
def execRem (d : BitVec 5) (a : BitVec 5) (b : BitVec 5) (s : State) : Host.Outcome State Fault Refusal :=
  always (fun s => s.put d (remS (s.sr a) (s.sr b)) 20) s
def execRemu (d : BitVec 5) (a : BitVec 5) (b : BitVec 5) (s : State) : Host.Outcome State Fault Refusal :=
  always (fun s => s.put d (remU (s.sr a) (s.sr b)) 20) s
def execDivW (d : BitVec 5) (a : BitVec 5) (b : BitVec 5) (s : State) : Host.Outcome State Fault Refusal :=
  always (fun s => s.put d ((quotS ((s.sr a).setWidth 32) ((s.sr b).setWidth 32)).signExtend 64) 20) s
def execDivuW (d : BitVec 5) (a : BitVec 5) (b : BitVec 5) (s : State) : Host.Outcome State Fault Refusal :=
  always (fun s => s.put d ((quotU ((s.sr a).setWidth 32) ((s.sr b).setWidth 32)).signExtend 64) 20) s
def execRemW (d : BitVec 5) (a : BitVec 5) (b : BitVec 5) (s : State) : Host.Outcome State Fault Refusal :=
  always (fun s => s.put d ((remS ((s.sr a).setWidth 32) ((s.sr b).setWidth 32)).signExtend 64) 20) s
def execRemuW (d : BitVec 5) (a : BitVec 5) (b : BitVec 5) (s : State) : Host.Outcome State Fault Refusal :=
  always (fun s => s.put d ((remU ((s.sr a).setWidth 32) ((s.sr b).setWidth 32)).signExtend 64) 20) s

/-! PTGT and the compares (R63, R97). -/

def execPtgt (d : BitVec 5) (i : BitVec 17) (s : State) : Host.Outcome State Fault Refusal :=
  always (fun s => s.put d (s.me.pc + (imm17 i <<< 2)) 1) s
def execCmpEq (d : BitVec 5) (a : BitVec 5) (b : BitVec 5) (x : BitVec 1) (s : State) : Host.Outcome State Fault Refusal :=
  always (fun s => s.put d (compare .eq x (s.sr a) (s.sr b)) 1) s
def execCmpNe (d : BitVec 5) (a : BitVec 5) (b : BitVec 5) (x : BitVec 1) (s : State) : Host.Outcome State Fault Refusal :=
  always (fun s => s.put d (compare .ne x (s.sr a) (s.sr b)) 1) s
def execCmpLt (d : BitVec 5) (a : BitVec 5) (b : BitVec 5) (x : BitVec 1) (s : State) : Host.Outcome State Fault Refusal :=
  always (fun s => s.put d (compare .lt x (s.sr a) (s.sr b)) 1) s
def execCmpGe (d : BitVec 5) (a : BitVec 5) (b : BitVec 5) (x : BitVec 1) (s : State) : Host.Outcome State Fault Refusal :=
  always (fun s => s.put d (compare .ge x (s.sr a) (s.sr b)) 1) s
def execCmpLtu (d : BitVec 5) (a : BitVec 5) (b : BitVec 5) (x : BitVec 1) (s : State) : Host.Outcome State Fault Refusal :=
  always (fun s => s.put d (compare .ltu x (s.sr a) (s.sr b)) 1) s
def execCmpGeu (d : BitVec 5) (a : BitVec 5) (b : BitVec 5) (x : BitVec 1) (s : State) : Host.Outcome State Fault Refusal :=
  always (fun s => s.put d (compare .geu x (s.sr a) (s.sr b)) 1) s

end Sys2Proof.Machine
end

