-- ==== Sys2Proof/Machine/Dispatch.lean ====
section
/-! DEFINITION. The dispatch: one arm per constructor of Instr, each a direct call of that
instruction's meaning. -/

namespace Sys2Proof.Machine

/-- One instruction word, performed by the context State.cur, or one operation or event. -/
def exec (i : Instr) (s : State) : Host.Outcome State Fault Refusal :=
  match i with
  | .addi d a imm => Sys2Proof.Machine.execAddi d a imm s
  | .addiW d a imm => Sys2Proof.Machine.execAddiW d a imm s
  | .andi d a imm => Sys2Proof.Machine.execAndi d a imm s
  | .ori d a imm => Sys2Proof.Machine.execOri d a imm s
  | .xori d a imm => Sys2Proof.Machine.execXori d a imm s
  | .slli d a x n => Sys2Proof.Machine.execSlli d a x n s
  | .srli d a x n => Sys2Proof.Machine.execSrli d a x n s
  | .srai d a x n => Sys2Proof.Machine.execSrai d a x n s
  | .li d imm => Sys2Proof.Machine.execLi d imm s
  | .lui d imm => Sys2Proof.Machine.execLui d imm s
  | .lsi d imm => Sys2Proof.Machine.execLsi d imm s
  | .add d a b t => Sys2Proof.Machine.execAdd d a b t s
  | .sub d a b t => Sys2Proof.Machine.execSub d a b t s
  | .and d a b t => Sys2Proof.Machine.execAnd d a b t s
  | .or d a b t => Sys2Proof.Machine.execOr d a b t s
  | .xor d a b t => Sys2Proof.Machine.execXor d a b t s
  | .andn d a b t => Sys2Proof.Machine.execAndn d a b t s
  | .sll d a b t => Sys2Proof.Machine.execSll d a b t s
  | .srl d a b t => Sys2Proof.Machine.execSrl d a b t s
  | .sra d a b t => Sys2Proof.Machine.execSra d a b t s
  | .min d a b t => Sys2Proof.Machine.execMin d a b t s
  | .max d a b t => Sys2Proof.Machine.execMax d a b t s
  | .minu d a b t => Sys2Proof.Machine.execMinu d a b t s
  | .maxu d a b t => Sys2Proof.Machine.execMaxu d a b t s
  | .clz d a t => Sys2Proof.Machine.execClz d a t s
  | .ctz d a t => Sys2Proof.Machine.execCtz d a t s
  | .popc d a t => Sys2Proof.Machine.execPopc d a t s
  | .sextB d a t => Sys2Proof.Machine.execSextB d a t s
  | .sextH d a t => Sys2Proof.Machine.execSextH d a t s
  | .sextW d a t => Sys2Proof.Machine.execSextW d a t s
  | .zextB d a t => Sys2Proof.Machine.execZextB d a t s
  | .zextH d a t => Sys2Proof.Machine.execZextH d a t s
  | .zextW d a t => Sys2Proof.Machine.execZextW d a t s
  | .sadd1 d a b t => Sys2Proof.Machine.execSadd1 d a b t s
  | .sadd2 d a b t => Sys2Proof.Machine.execSadd2 d a b t s
  | .sadd3 d a b t => Sys2Proof.Machine.execSadd3 d a b t s
  | .sadd4 d a b t => Sys2Proof.Machine.execSadd4 d a b t s
  | .addW d a b t => Sys2Proof.Machine.execAddW d a b t s
  | .subW d a b t => Sys2Proof.Machine.execSubW d a b t s
  | .sllW d a b t => Sys2Proof.Machine.execSllW d a b t s
  | .srlW d a b t => Sys2Proof.Machine.execSrlW d a b t s
  | .sraW d a b t => Sys2Proof.Machine.execSraW d a b t s
  | .clzW d a t => Sys2Proof.Machine.execClzW d a t s
  | .ctzW d a t => Sys2Proof.Machine.execCtzW d a t s
  | .popcW d a t => Sys2Proof.Machine.execPopcW d a t s
  | .mul d a b => Sys2Proof.Machine.execMul d a b s
  | .mulh d a b => Sys2Proof.Machine.execMulh d a b s
  | .mulhu d a b => Sys2Proof.Machine.execMulhu d a b s
  | .mulhsu d a b => Sys2Proof.Machine.execMulhsu d a b s
  | .mulW d a b => Sys2Proof.Machine.execMulW d a b s
  | .div d a b => Sys2Proof.Machine.execDiv d a b s
  | .divu d a b => Sys2Proof.Machine.execDivu d a b s
  | .rem d a b => Sys2Proof.Machine.execRem d a b s
  | .remu d a b => Sys2Proof.Machine.execRemu d a b s
  | .divW d a b => Sys2Proof.Machine.execDivW d a b s
  | .divuW d a b => Sys2Proof.Machine.execDivuW d a b s
  | .remW d a b => Sys2Proof.Machine.execRemW d a b s
  | .remuW d a b => Sys2Proof.Machine.execRemuW d a b s
  | .ldB d b o => Sys2Proof.Machine.execLdB d b o s
  | .ldH d b o => Sys2Proof.Machine.execLdH d b o s
  | .ldW d b o => Sys2Proof.Machine.execLdW d b o s
  | .ldD d b o => Sys2Proof.Machine.execLdD d b o s
  | .ldBu d b o => Sys2Proof.Machine.execLdBu d b o s
  | .ldHu d b o => Sys2Proof.Machine.execLdHu d b o s
  | .ldWu d b o => Sys2Proof.Machine.execLdWu d b o s
  | .stB d b o => Sys2Proof.Machine.execStB d b o s
  | .stH d b o => Sys2Proof.Machine.execStH d b o s
  | .stW d b o => Sys2Proof.Machine.execStW d b o s
  | .stD d b o => Sys2Proof.Machine.execStD d b o s
  | .hld d b o => Sys2Proof.Machine.execHld d b o s
  | .hst d b o => Sys2Proof.Machine.execHst d b o s
  | .hdrop d b => Sys2Proof.Machine.execHdrop d b s
  | .aadd d a b z => Sys2Proof.Machine.execAadd d a b z s
  | .aand d a b z => Sys2Proof.Machine.execAand d a b z s
  | .aor d a b z => Sys2Proof.Machine.execAor d a b z s
  | .axor d a b z => Sys2Proof.Machine.execAxor d a b z s
  | .amin d a b z => Sys2Proof.Machine.execAmin d a b z s
  | .amax d a b z => Sys2Proof.Machine.execAmax d a b z s
  | .aminu d a b z => Sys2Proof.Machine.execAminu d a b z s
  | .amaxu d a b z => Sys2Proof.Machine.execAmaxu d a b z s
  | .aswap d a b z => Sys2Proof.Machine.execAswap d a b z s
  | .acas d a b z => Sys2Proof.Machine.execAcas d a b z s
  | .bind a b => Sys2Proof.Machine.execBind a b s
  | .acq a c => Sys2Proof.Machine.execAcq a c s
  | .rel a c => Sys2Proof.Machine.execRel a c s
  | .fenceAcq c => Sys2Proof.Machine.execFenceAcq c s
  | .fenceRel c => Sys2Proof.Machine.execFenceRel c s
  | .fence c => Sys2Proof.Machine.execFence c s
  | .lfence => Sys2Proof.Machine.execLfence s
  | .ifence => Sys2Proof.Machine.execIfence s
  | .ptgt d imm => Sys2Proof.Machine.execPtgt d imm s
  | .cmpEq d a b x => Sys2Proof.Machine.execCmpEq d a b x s
  | .cmpNe d a b x => Sys2Proof.Machine.execCmpNe d a b x s
  | .cmpLt d a b x => Sys2Proof.Machine.execCmpLt d a b x s
  | .cmpGe d a b x => Sys2Proof.Machine.execCmpGe d a b x s
  | .cmpLtu d a b x => Sys2Proof.Machine.execCmpLtu d a b x s
  | .cmpGeu d a b x => Sys2Proof.Machine.execCmpGeu d a b x s
  | .br a b k => Sys2Proof.Machine.execBr a b k s
  | .brZ a b k => Sys2Proof.Machine.execBrZ a b k s
  | .brl d a k => Sys2Proof.Machine.execBrl d a k s
  | .jr a k => Sys2Proof.Machine.execJr a k s
  | .jtab a b k => Sys2Proof.Machine.execJtab a b k s
  | .vany d p => Sys2Proof.Machine.execVany d p s
  | .vall d p => Sys2Proof.Machine.execVall d p s
  | .estat d n => Sys2Proof.Machine.execEstat d n s
  | .lset l a => Sys2Proof.Machine.execLset l a s
  | .lstr l j r t => Sys2Proof.Machine.execLstr l j r t s
  | .lbody l n => Sys2Proof.Machine.execLbody l n s
  | .lidx l d => Sys2Proof.Machine.execLidx l d s
  | .lexit l => Sys2Proof.Machine.execLexit l s
  | .lfl l f => Sys2Proof.Machine.execLfl l f s
  | .nop => Sys2Proof.Machine.execNop s
  | .stall n => Sys2Proof.Machine.execStall n s
  | .trap n => Sys2Proof.Machine.execTrap n s
  | .brk n => Sys2Proof.Machine.execBrk n s
  | .rft => Sys2Proof.Machine.execRft s
  | .csrr x n => Sys2Proof.Machine.execCsrr x n s
  | .csrw x n => Sys2Proof.Machine.execCsrw x n s
  | .yield => Sys2Proof.Machine.execYield s
  | .idle => Sys2Proof.Machine.execIdle s
  | .tlbi x k => Sys2Proof.Machine.execTlbi x k s
  | .stest x => Sys2Proof.Machine.execStest x s
  | .ststat x => Sys2Proof.Machine.execStstat x s
  | .cmapw x => Sys2Proof.Machine.execCmapw x s
  | .hmov d a => Sys2Proof.Machine.execHmov d a s
  | .hofs d a b => Sys2Proof.Machine.execHofs d a b s
  | .hseq d b => Sys2Proof.Machine.execHseq d b s
  | .hlive d a => Sys2Proof.Machine.execHlive d a s
  | .hea d a b => Sys2Proof.Machine.execHea d a b s
  | .hset d a imm => Sys2Proof.Machine.execHset d a imm s
  | .hget d a imm => Sys2Proof.Machine.execHget d a imm s
  | .ewr c a b => Sys2Proof.Machine.execEwr c a b s
  | .erd c a b => Sys2Proof.Machine.execErd c a b s
  | .edrain => Sys2Proof.Machine.execEdrain s
  | .efence => Sys2Proof.Machine.execEfence s
  | .cmm c a b => Sys2Proof.Machine.execCmm c a b s
  | .cmmh c a b => Sys2Proof.Machine.execCmmh c a b s
  | .cldb a h => Sys2Proof.Machine.execCldb a h s
  | .czero c => Sys2Proof.Machine.execCzero c s
  | .crd c a => Sys2Proof.Machine.execCrd c a s
  | .cfsel a => Sys2Proof.Machine.execCfsel a s
  | .vaddFp c a b f m => Sys2Proof.Machine.execVaddFp c a b f m s
  | .vsubFp c a b f m => Sys2Proof.Machine.execVsubFp c a b f m s
  | .vmulFp c a b f m => Sys2Proof.Machine.execVmulFp c a b f m s
  | .vminFp c a b f m => Sys2Proof.Machine.execVminFp c a b f m s
  | .vmaxFp c a b f m => Sys2Proof.Machine.execVmaxFp c a b f m s
  | .vfma c a b f m => Sys2Proof.Machine.execVfma c a b f m s
  | .vfms c a b f m => Sys2Proof.Machine.execVfms c a b f m s
  | .vfnma c a b f m => Sys2Proof.Machine.execVfnma c a b f m s
  | .vabs c a f m => Sys2Proof.Machine.execVabs c a f m s
  | .vneg c a f m => Sys2Proof.Machine.execVneg c a f m s
  | .vrcp c a m => Sys2Proof.Machine.execVrcp c a m s
  | .vrsq c a m => Sys2Proof.Machine.execVrsq c a m s
  | .vexp2 c a m => Sys2Proof.Machine.execVexp2 c a m s
  | .vlog2 c a m => Sys2Proof.Machine.execVlog2 c a m s
  | .vaddInt c a b f m => Sys2Proof.Machine.execVaddInt c a b f m s
  | .vsubInt c a b f m => Sys2Proof.Machine.execVsubInt c a b f m s
  | .vmulInt c a b f m => Sys2Proof.Machine.execVmulInt c a b f m s
  | .vminInt c a b f m => Sys2Proof.Machine.execVminInt c a b f m s
  | .vmaxInt c a b f m => Sys2Proof.Machine.execVmaxInt c a b f m s
  | .vadds c a b f m => Sys2Proof.Machine.execVadds c a b f m s
  | .vsubs c a b f m => Sys2Proof.Machine.execVsubs c a b f m s
  | .vand c a b f m => Sys2Proof.Machine.execVand c a b f m s
  | .vor c a b f m => Sys2Proof.Machine.execVor c a b f m s
  | .vxor c a b f m => Sys2Proof.Machine.execVxor c a b f m s
  | .vshl c a b f m => Sys2Proof.Machine.execVshl c a b f m s
  | .vsra c a b f m => Sys2Proof.Machine.execVsra c a b f m s
  | .vsrl c a b f m => Sys2Proof.Machine.execVsrl c a b f m s
  | .vcmpEq p a b f m => Sys2Proof.Machine.execVcmpEq p a b f m s
  | .vcmpNe p a b f m => Sys2Proof.Machine.execVcmpNe p a b f m s
  | .vcmpLt p a b f m => Sys2Proof.Machine.execVcmpLt p a b f m s
  | .vcmpLe p a b f m => Sys2Proof.Machine.execVcmpLe p a b f m s
  | .vcmpGt p a b f m => Sys2Proof.Machine.execVcmpGt p a b f m s
  | .vcmpGe p a b f m => Sys2Proof.Machine.execVcmpGe p a b f m s
  | .vcmpUo p a b f m => Sys2Proof.Machine.execVcmpUo p a b f m s
  | .vsel c a b => Sys2Proof.Machine.execVsel c a b s
  | .pand p q r m => Sys2Proof.Machine.execPand p q r m s
  | .por p q r m => Sys2Proof.Machine.execPor p q r m s
  | .pxor p q r m => Sys2Proof.Machine.execPxor p q r m s
  | .pnot p q m => Sys2Proof.Machine.execPnot p q m s
  | .pset p m => Sys2Proof.Machine.execPset p m s
  | .pclr p m => Sys2Proof.Machine.execPclr p m s
  | .vcvt c a r m => Sys2Proof.Machine.execVcvt c a r m s
  | .vqnt c a m => Sys2Proof.Machine.execVqnt c a m s
  | .vdq c a m => Sys2Proof.Machine.execVdq c a m s
  | .vrsum c a f m => Sys2Proof.Machine.execVrsum c a f m s
  | .vrmax c a f m => Sys2Proof.Machine.execVrmax c a f m s
  | .vrmin c a f m => Sys2Proof.Machine.execVrmin c a f m s
  | .vgather c a b m => Sys2Proof.Machine.execVgather c a b m s
  | .vscatter c a b m => Sys2Proof.Machine.execVscatter c a b m s
  | .vperm c a b m => Sys2Proof.Machine.execVperm c a b m s
  | .vmov c a m => Sys2Proof.Machine.execVmov c a m s
  | .vfill c a m => Sys2Proof.Machine.execVfill c a m s
  | .viota c m => Sys2Proof.Machine.execViota c m s
  | .xtr c a => Sys2Proof.Machine.execXtr c a s
  | .xtrc c a => Sys2Proof.Machine.execXtrc c a s
  | .upst c a => Sys2Proof.Machine.execUpst c a s
  | .uvtag a b => Sys2Proof.Machine.execUvtag a b s
  | .cpy c a b => Sys2Proof.Machine.execCpy c a b s
  | .cpym c a b => Sys2Proof.Machine.execCpym c a b s
  | .rrot c a b => Sys2Proof.Machine.execRrot c a b s
  | .ccan a => Sys2Proof.Machine.execCcan a s
  | .waitc c => Sys2Proof.Machine.execWaitc c s
  | .sbind c q b => Sys2Proof.Machine.execSbind c q b s
  | .ssch a => Sys2Proof.Machine.execSsch a s
  | .sadv => Sys2Proof.Machine.execSadv s
  | .sres a => Sys2Proof.Machine.execSres a s
  | .ginit c a => Sys2Proof.Machine.execGinit c a s
  | .gwait c a b => Sys2Proof.Machine.execGwait c a b s
  | .gread c a => Sys2Proof.Machine.execGread c a s
  | .gbar => Sys2Proof.Machine.execGbar s
  | .wact a => Sys2Proof.Machine.execWact a s
  | .wpre a => Sys2Proof.Machine.execWpre a s
  | .wref a => Sys2Proof.Machine.execWref a s
  | .wld c a => Sys2Proof.Machine.execWld c a s
  | .wst c a => Sys2Proof.Machine.execWst c a s
  | .vpub a b => Sys2Proof.Machine.execVpub a b s
  | .vswt a => Sys2Proof.Machine.execVswt a s
  | .temit c a b => Sys2Proof.Machine.execTemit c a b s
  | .jopen a => Sys2Proof.Machine.execJopen a s
  | .jacc c a => Sys2Proof.Machine.execJacc c a s
  | .jarr c a => Sys2Proof.Machine.execJarr c a s
  | .jwait a => Sys2Proof.Machine.execJwait a s
  | .kpt => Sys2Proof.Machine.execKpt s
  | .coll a => Sys2Proof.Machine.execColl a s
  | .collJ a b => Sys2Proof.Machine.execCollJ a b s
  | .csig c a => Sys2Proof.Machine.execCsig c a s
  | .afw a => Sys2Proof.Machine.execAfw a s
  | .stallStep c => Sys2Proof.Machine.execStallStep c s
  | .shadowQueueLanding c => Sys2Proof.Machine.execShadowQueueLanding c s
  | .transientExpiry c => Sys2Proof.Machine.execTransientExpiry c s
  | .loadDataReturn id => Sys2Proof.Machine.execLoadDataReturn id s
  | .loopIterationEnd c => Sys2Proof.Machine.execLoopIterationEnd c s
  | .asynchronousTrap c => Sys2Proof.Machine.execAsynchronousTrap c s
  | .idleWake c => Sys2Proof.Machine.execIdleWake c s
  | .vectorOperationCompletion id => Sys2Proof.Machine.execVectorOperationCompletion id s
  | .transposeOperationCompletion id => Sys2Proof.Machine.execTransposeOperationCompletion id s
  | .upstCompletion id => Sys2Proof.Machine.execUpstCompletion id s
  | .cubeOperationStart id => Sys2Proof.Machine.execCubeOperationStart id s
  | .cubeOperationCompletion id => Sys2Proof.Machine.execCubeOperationCompletion id s
  | .copyLanding id recv => Sys2Proof.Machine.execCopyLanding id recv s
  | .scheduleIterationStart c entry => Sys2Proof.Machine.execScheduleIterationStart c entry s
  | .scheduleIterationLanding id => Sys2Proof.Machine.execScheduleIterationLanding id s
  | .wldLanding id => Sys2Proof.Machine.execWldLanding id s
  | .wstCompletion id => Sys2Proof.Machine.execWstCompletion id s
  | .guardRefresh bank => Sys2Proof.Machine.execGuardRefresh bank s
  | .gaugeTimeout c => Sys2Proof.Machine.execGaugeTimeout c s
  | .doorbell q tail => Sys2Proof.Machine.execDoorbell q tail s
  | .launchBegin => Sys2Proof.Machine.execLaunchBegin s
  | .groupPlacement l => Sys2Proof.Machine.execGroupPlacement l s
  | .preemptionDeadline c => Sys2Proof.Machine.execPreemptionDeadline c s
  | .save g => Sys2Proof.Machine.execSave g s
  | .resume g => Sys2Proof.Machine.execResume g s
  | .taskEnd c => Sys2Proof.Machine.execTaskEnd c s
  | .stepBudgetWindow => Sys2Proof.Machine.execStepBudgetWindow s
  | .quantumExpiry core => Sys2Proof.Machine.execQuantumExpiry core s
  | .progressPromise c => Sys2Proof.Machine.execProgressPromise c s
  | .recomputeProducerCompletion l => Sys2Proof.Machine.execRecomputeProducerCompletion l s
  | .stragglerKill c => Sys2Proof.Machine.execStragglerKill c s
  | .deadlockDetection cube => Sys2Proof.Machine.execDeadlockDetection cube s
  | .spillwayChunkReturn core queue => Sys2Proof.Machine.execSpillwayChunkReturn core queue s
  | .fabricWindowAccess node op offset size data cmp => Sys2Proof.Machine.execFabricWindowAccess node op offset size data cmp s
  | .windowAccessTimeout id => Sys2Proof.Machine.execWindowAccessTimeout id s
  | .collectiveTransferSend id => Sys2Proof.Machine.execCollectiveTransferSend id s
  | .collectiveFold id => Sys2Proof.Machine.execCollectiveFold id s
  | .collectiveCompletion id => Sys2Proof.Machine.execCollectiveCompletion id s
  | .linkFailure port node => Sys2Proof.Machine.execLinkFailure port node s
  | .versionPublication region ver => Sys2Proof.Machine.execVersionPublication region ver s
  | .loweringAnnouncement node limit at_ => Sys2Proof.Machine.execLoweringAnnouncement node limit at_ s
  | .raiseProposal node limit at_ => Sys2Proof.Machine.execRaiseProposal node limit at_ s
  | .raiseGrant node => Sys2Proof.Machine.execRaiseGrant node s
  | .ceilingChange => Sys2Proof.Machine.execCeilingChange s
  | .heartbeatSend => Sys2Proof.Machine.execHeartbeatSend s
  | .heartbeat node seq limit members => Sys2Proof.Machine.execHeartbeat node seq limit members s
  | .memberEviction node => Sys2Proof.Machine.execMemberEviction node s
  | .joinRequest node limit => Sys2Proof.Machine.execJoinRequest node limit s
  | .departure node => Sys2Proof.Machine.execDeparture node s
  | .weirReq limit => Sys2Proof.Machine.execWeirReq limit s
  | .pwrDidt cube limit => Sys2Proof.Machine.execPwrDidt cube limit s
  | .registerWrite bar0 n v => Sys2Proof.Machine.execRegisterWrite bar0 n v s
  | .sensorReading cube die quarters => Sys2Proof.Machine.execSensorReading cube die quarters s
  | .governorWindow cube power => Sys2Proof.Machine.execGovernorWindow cube power s
  | .droopAlarm region => Sys2Proof.Machine.execDroopAlarm region s
  | .droopAlarmClear region => Sys2Proof.Machine.execDroopAlarmClear region s
  | .forecastUpdate => Sys2Proof.Machine.execForecastUpdate s
  | .forecastExpiry c => Sys2Proof.Machine.execForecastExpiry c s
  | .telemetrySample => Sys2Proof.Machine.execTelemetrySample s
  | .telemetryAggregate => Sys2Proof.Machine.execTelemetryAggregate s
  | .busTestRun cube => Sys2Proof.Machine.execBusTestRun cube s
  | .busTestCompletion cube pass demand => Sys2Proof.Machine.execBusTestCompletion cube pass demand s
  | .wsMapApplication core => Sys2Proof.Machine.execWsMapApplication core s
  | .elevatorDrainEnd cube cluster => Sys2Proof.Machine.execElevatorDrainEnd cube cluster s
  | .transactionRetry id => Sys2Proof.Machine.execTransactionRetry id s
  | .fatalEvent code addr => Sys2Proof.Machine.execFatalEvent code addr s
  | .coldStart failing => Sys2Proof.Machine.execColdStart failing s
  | .warmStart keep => Sys2Proof.Machine.execWarmStart keep s
  | .faultDomainAcknowledge fdom => Sys2Proof.Machine.execFaultDomainAcknowledge fdom s
  | .hostWindowAccess op offset size data cmp => Sys2Proof.Machine.execHostWindowAccess op offset size data cmp s
  | .info => Sys2Proof.Machine.execInfo s
  | .group cmd nodes => Sys2Proof.Machine.execGroup cmd nodes s
  | .keyLoad slot wrapped => Sys2Proof.Machine.execKeyLoad slot wrapped s
  | .keyClear slot => Sys2Proof.Machine.execKeyClear slot s
  | .attest nonce => Sys2Proof.Machine.execAttest nonce s
  | .errlog index => Sys2Proof.Machine.execErrlog index s
  | .status => Sys2Proof.Machine.execStatus s
  | .reset kind => Sys2Proof.Machine.execReset kind s
  | .telemetry n => Sys2Proof.Machine.execTelemetry n s
  | .dumpRead offset len => Sys2Proof.Machine.execDumpRead offset len s
  | .dumpClear => Sys2Proof.Machine.execDumpClear s
  | .configRead => Sys2Proof.Machine.execConfigRead s
  | .configWrite node slot rollback body sig => Sys2Proof.Machine.execConfigWrite node slot rollback body sig s
  | .cmapRestore cube logical => Sys2Proof.Machine.execCmapRestore cube logical s
  | .timeset v => Sys2Proof.Machine.execTimeset v s
  | .errlogRead index n => Sys2Proof.Machine.execErrlogRead index n s
  | .getMeasurements nonce => Sys2Proof.Machine.execGetMeasurements nonce s
  | .testDrained cube => Sys2Proof.Machine.execTestDrained cube s
  | .testEnd cube => Sys2Proof.Machine.execTestEnd cube s
  | .testAbort cube => Sys2Proof.Machine.execTestAbort cube s
  | .coreMapPersist => Sys2Proof.Machine.execCoreMapPersist s
  | .copyFault id => Sys2Proof.Machine.execCopyFault id s
  | .storePerformed id => Sys2Proof.Machine.execStorePerformed id s
  | .jaccCompletion id => Sys2Proof.Machine.execJaccCompletion id s
  | .collectiveTransferArrival core sender chunk digest data => Sys2Proof.Machine.execCollectiveTransferArrival core sender chunk digest data s
  | .clockStretch region => Sys2Proof.Machine.execClockStretch region s
  | .crossingBubble region => Sys2Proof.Machine.execCrossingBubble region s
  | .spdmSecuredSession => Sys2Proof.Machine.execSpdmSecuredSession s

end Sys2Proof.Machine
end

