-- ==== Sys2Proof/Machine/Bundle.lean ====
section
/-! DEFINITION. The issue of a bundle (spec 02 R42 to R49, R392; spec 01 R30 to R38): stages 1 to 6 in order, then the
effects of its words, then the step itself. -/

namespace Sys2Proof.Machine

/-- The state in which a word has been performed. No word faults or is refused. -/
def State.after (s : State) (i : Instr) : State :=
  match exec i s with
  | .next t => t
  | .fault _ => s
  | .refused _ => s

/-! Stage 5 and the outcomes of stage 6 (R49, R392). -/

/-- The place of a word's slot class in the order of R49, row 8. -/
def checkRank (i : Instr) : Nat :=
  match slotOf i with
  | .scalar => 0
  | .memory => 1
  | .control => 2
  | .engine => 3
  | .prefix_ => 4

/-- The words of a list by rank, in word order within a rank. -/
def byRank (f : Instr → Nat) (n : Nat) (is : List Instr) : List Instr :=
  (List.range n).flatMap (fun r => is.filter (fun i => f i == r))

/-- The trap is the outcome of a wait, which stage 6 takes (R337, R392). -/
def Trap.late (t : Trap) : Bool := t.cause == cGaugeOverrun || t.cause == cGaugeTimeout || t.coll != 0#32

/-- The records that a word's checks fetched stay in the record cache of the core (R266). -/
def State.keepRecords (s t : State) : State :=
  let r := (t.core (coreOf s.cur)).recCache
  if r = (s.core (coreOf s.cur)).recCache then s else s.modCore (coreOf s.cur) (fun k => { k with recCache := r })

/-- What the words of a bundle find on the state before it: the traps of their checks and waits; of each word that waits, how
it leaves the task (R301); the state with the records fetched. -/
structure Found where
  traps : List Trap
  waits : List Ending
  state : State

/-- Perform each word on the state before the bundle, for what its checks and its wait find (R392). -/
def State.checkWords (s : State) : List Instr → Found
  | [] => ⟨[], [], s⟩
  | i :: r =>
    let t := s.after i
    match t.mark with
    | .trapped u => let f := s.checkWords r; { f with traps := u :: f.traps }
    | .waits => let f := (s.keepRecords t).checkWords r; { f with waits := t.me.ending :: f.waits }
    | .ran => (s.keepRecords t).checkWords r

/-- The trap a bundle takes: a check's before a wait's outcome, each in order (R49, R392). -/
def firstTrap (ts : List Trap) : Option Trap :=
  match ts.find? (fun t => !t.late) with
  | some t => some t
  | none => ts.head?

/-! The effects (R32, R46). Words that only read what the bundle changes come first, so that they read state as it
stood before it; then scalar words, the memory word, the engine words, and the control words that change state. The engine
and control words find memory as the memory word found it. -/

/-- The place of a word in the order in which the model performs a bundle. -/
def effectRank (i : Instr) : Nat :=
  match i with
  | .csrr _ _ | .ststat _ | .vany _ _ | .vall _ _ | .estat _ _ | .erd _ _ _ | .lidx _ _
  | .br _ _ _ | .brZ _ _ _ | .brl _ _ _ | .jr _ _ | .jtab _ _ _ => 0
  | .sbind _ _ _ => 15
  | .ewr _ _ _ => 16
  | .hseq _ _ => 17
  | _ =>
    match slotOf i with
    | .scalar => 1
    | .memory => 2
    | .engine => 3 + targetOf i
    | .control => 18
    | .prefix_ => 18

/-- The words whose wait names the context's earlier accesses and operations. -/
def waitsForEarlier (i : Instr) : Bool :=
  slotOf i == .memory ||
  match i with
  | .brk _ | .tlbi _ _ | .efence | .gbar | .vpub _ _ | .jarr _ _ | .coll _ | .collJ _ _ => true
  | _ => false

/-- Do something without those: what a bundle waits for was issued before it (R392). -/
def State.asBefore (s : State) (f : State → State) : State :=
  let t := f { s with
    loads := s.loads.filter (fun l => !s.ofBundle l.ctx l.id)
    stores := s.stores.filter (fun w => !s.ofBundle w.ctx w.id)
    ops := s.ops.filter (fun o => !s.ofBundle o.ctx o.id)
    colls := s.colls.filter (fun o => !s.ofBundle o.ctx o.id) }
  { t with
    loads := t.loads ++ s.loads.filter (fun l => s.ofBundle l.ctx l.id)
    stores := t.stores ++ s.stores.filter (fun w => s.ofBundle w.ctx w.id)
    ops := t.ops ++ s.ops.filter (fun o => s.ofBundle o.ctx o.id)
    colls := t.colls ++ s.colls.filter (fun o => s.ofBundle o.ctx o.id) }

/-- A word's effect within its bundle. RFT returns at the end of the bundle and its stall steps (R292). -/
def State.effectOf (s : State) (i : Instr) : State :=
  match i with
  | .rft => { s.modMe (fun x => { x with edges := [.leave] }) with mark := .ran }
  | i => if waitsForEarlier i then s.asBefore (fun s => s.after i) else s.after i

/-- Perform the words in order until one waits or traps. -/
def State.performWords (s : State) : List Instr → State
  | [] => { s with mark := .ran }
  | i :: r =>
    let t := s.effectOf i
    match t.mark with
    | .ran => t.performWords r
    | _ => t

/-- Do something without the accesses and the local store of the current bundle, which stand afterwards; `old` is memory
before the bundle. -/
def State.beside (s : State) (old : State) (f : State → State) : State :=
  let t := f { s with
    mem := old.mem
    poison := old.poison
    loads := s.loads.filter (fun l => !s.ofBundle l.ctx l.id)
    stores := s.stores.filter (fun w => !s.ofBundle w.ctx w.id) }
  { t with
    mem := memOverlay old.mem s.mem t.mem
    poison := t.poison.filter (fun q => s.poison.contains q || !old.poison.contains q)
    loads := t.loads ++ s.loads.filter (fun l => s.ofBundle l.ctx l.id)
    stores := t.stores ++ s.stores.filter (fun w => s.ofBundle w.ctx w.id) }

/-- Perform the words of a bundle: those that read, the scalar words and the memory word, then the others (R32, R392). -/
def State.performBundle (s : State) (is : List Instr) : State :=
  let first := byRank effectRank 3 is
  let rest := (byRank effectRank 19 is).filter (fun i => decide (3 ≤ effectRank i))
  if first.isEmpty then s.performWords rest
  else
    let t := s.performWords first
    match t.mark with
    | .ran => if rest.isEmpty then t else t.beside s (fun t => t.performWords rest)
    | _ => t

/-! Read ports (R38). -/

/-- Reads refused in all cycles when n reads fall on a bank of two ports. -/
def refusals : Nat → Nat → Nat
  | 0, _ => 0
  | f + 1, n => if n ≤ 2 then 0 else (n - 2) + refusals f (n - 2)

/-- Distinct registers other than s0 of a bank that a bundle reads. -/
def portReads (is : List Instr) (bank : Nat) : Nat :=
  ((inOrder (is.flatMap scalarReads)).filter (fun r => r != 0#5 && r.toNat % 4 == bank)).length

/-- The loss counters, which saturate (R24, R38). -/
def Ctx.losePorts (x : Ctx) (is : List Instr) : Ctx :=
  { x with loss := Vector.ofFn (fun i : Fin 4 =>
      BitVec.ofNat 32 (min (2 ^ 32 - 1) (x.loss[i].toNat + refusals 32 (portReads is i.val)))) }

/-! The bundle. -/

/-- The register that awaits the link of a transfer after a delay bundle: none where the bundle writes it (R98). -/
def Xfer.awaits (t : Xfer) (p : Parsed) : Option (BitVec 5) :=
  t.link.filter (fun r => !(p.on.flatMap scalarWrites).contains r)

/-- The last delay bundle of a BRL whose link could not be told before tells it, unless its register has been written
since (R98). -/
def Ctx.linkNow (y x : Ctx) (p : Parsed) : Ctx :=
  match x.xfer with
  | some t => match t.awaits p with
    | some r => if t.left = 1 then y.landS r (x.pc + BitVec.ofNat 64 p.size) else y
    | none => y
  | none => y

/-- What a bundle leaves in its context beyond the effects of its words: the PC moves on, a transfer pending before
it comes nearer, stall steps are owed, the ends of loop bodies are noted. `x` is the context before the bundle. After an
IFENCE the core's fetch buffers hold nothing, its own bundle neither (R96). While a handler runs no body's end is noted,
so that a level which its own LBODY makes active goes through no iteration end (the model's choice, log 66). -/
def State.issued (s : State) (x : Ctx) (p : Parsed) : State :=
  let ends := s.bodyEnds s.cur x.pc 6
  let s := s.keepCode s.cur x.pc p.raw
  let s := if p.on.contains .ifence then s.modCore (coreOf s.cur) (fun k => { k with fetched := [] }) else s
  s.modMe (fun y =>
    { (y.losePorts p.on).linkNow x p with
      pc := x.pc + BitVec.ofNat 64 p.size
      xfer := match x.xfer with
        | some t => some { t with left := t.left - 1, link := (t.awaits p).filter (fun _ => decide (1 < t.left)) }
        | none => y.xfer
      owed := y.owed + p.stalls
      edges := if y.edges.isEmpty && !x.inh then ends else y.edges
      safe := p.live
      blocked := false
      waitFrom := none
      atBar := false
      lastIssue := s.cycles })

/-- The current context waits (R40, R392). -/
def State.block (s : State) (bar : Bool) : State :=
  s.modMe (fun x => { x with blocked := true, waitFrom := some (x.waitFrom.getD s.time), atBar := bar })

/-- Progress of a cube, for the deadlock detector (R306). -/
def State.progress (s : State) (q : Nat) : State := s.modCube q (fun x => { x with lastProgress := s.cycles })

/-- Stages 5 and 6 of R392 and, where neither stops the bundle, its step. -/
def State.issueParsed (s : State) (p : Parsed) : State :=
  let s := { s with issue := s.seq }
  let x := s.me
  let f := s.checkWords (byRank checkRank 5 p.on)
  let s := f.state
  let wait := fun (e : Ending) => (s.modMe (fun y => { y with ending := e })).block (p.on.contains .gbar)
  match firstTrap f.traps, f.waits with
  | some t, _ => s.precise t
  | none, e :: r => wait (((e :: r).find? (fun e => e != .none)).getD .none)
  | none, [] =>
    let u := s.modMe (fun x => { x with scbSkip := x.scbSkip && x.inh, killPoint := false })
    let t := u.performBundle p.on
    match t.mark with
    | .trapped u => s.precise u
    | .waits => wait t.me.ending
    | .ran => (((t.issued x p).progress (cubeOf s.cur)).stepOver s.cur).settle s.cur

/-- STALL_SHORT, with SCB.HIT (R37). -/
def State.stallShort (s : State) (w : PendWrite) : State :=
  (s.modMe (fun x =>
    { x with
      scbLeft := BitVec.ofNat 8 w.left
      scbFile := if w.file = .handle then 1#1 else 0#1
      scbReg := w.reg })).precise { cause := cStallShort }

/-- The MCHECK attached to a register: it is taken, and the register is busy no more (R82). -/
def State.takeAttached (s : State) (f : RegFile) (r : BitVec 5) (a : Word) : State :=
  (s.modMe (fun x =>
    { x.setBusy f r false with
      busyErr := x.busyErr.filter (fun e => !(e.1 == f && e.2.1 == r)) })).takeTrap s.cur
        { cause := cMcheck, addr := a }

/-- A context goes to issue the bundle at its PC (R392). -/
def State.issueBundle (s : State) (c : Nat) : State :=
  let s := { s with cur := c }
  match s.ahead c with
  | .trap t => s.precise t
  | .room => s.stepOver c
  | .short w => s.stallShort w
  | .attached f r a => s.takeAttached f r a
  | .busy => s.block false
  | .go p => s.issueParsed p

/-- A context with the slot makes a step, or meets what keeps it from one: an owed stall step, else its bundle
(R30, R31). -/
def State.coreStep (s : State) (c : Nat) : State :=
  let s := { s.giveSlot c with cur := c }
  if (s.ctx c).owed != 0 then ((s.modCtx c (fun x => { x with owed := x.owed - 1 })).stepOver c).settle c
  else s.issueBundle c

/-- The bundle at the PC of a context would still wait. -/
def State.stillWaits (s : State) (c : Nat) : Bool :=
  let x := (s.issueBundle c).ctx c
  x.blocked && x.recompute.isNone && x.ending == .none

end Sys2Proof.Machine
end

