-- ==== Sys2Proof/Machine/Moves.lean ====
section
/-! DEFINITION. What the machine may do next: a step of a core's selected context, an event of the machine itself that
is due, or the next input from outside. Where several moves are open no rule orders them (log 5). -/

namespace Sys2Proof.Machine

/-- An event of the machine itself. The parameters are those of its constructor of Instr. -/
inductive Event where
  | loopIterationEnd (c : Nat)
  | asynchronousTrap (c : Nat)
  | idleWake (c : Nat)
  | gaugeTimeout (c : Nat)
  | preemptionDeadline (c : Nat)
  | save (g : Nat)
  | taskEnd (c : Nat)
  | progressPromise (c : Nat)
  | stragglerKill (c : Nat)
  | forecastExpiry (c : Nat)
  | scheduleIterationStart (c entry : Nat)
  | cubeOperationStart (id : Nat)
  | cubeOperationCompletion (id : Nat)
  | vectorOperationCompletion (id : Nat)
  | transposeOperationCompletion (id : Nat)
  | upstCompletion (id : Nat)
  | copyFault (id : Nat)
  | scheduleIterationLanding (id : Nat)
  | copyLanding (id recv : Nat)
  | wldLanding (id : Nat)
  | wstCompletion (id : Nat)
  | jaccCompletion (id : Nat)
  | loadDataReturn (id : Nat)
  | windowAccessTimeout (id : Nat)
  | storePerformed (id : Nat)
  | collectiveTransferSend (id : Nat)
  | collectiveFold (id : Nat)
  | collectiveCompletion (id : Nat)
  | quantumExpiry (core : Nat)
  | spillwayChunkReturn (core queue : Nat)
  | wsMapApplication (core : Nat)
  | deadlockDetection (cube : Nat)
  | governorWindow (cube power : Nat)
  | busTestRun (cube : Nat)
  | testDrained (cube : Nat)
  | testEnd (cube : Nat)
  | testAbort (cube : Nat)
  | elevatorDrainEnd (cube cluster : Nat)
  | transactionRetry (id : Nat)
  | droopAlarm (region : Nat)
  | droopAlarmClear (region : Nat)
  | fatalEvent (code : Nat) (addr : BitVec 64)
  | groupPlacement (l : Nat)
  | recomputeProducerCompletion (l : Nat)
  | resume (g : Nat)
  | guardRefresh (bank : Nat)
  | launchBegin
  | stepBudgetWindow
  | ceilingChange
  | heartbeatSend
  | departure (node : Nat)
  | forecastUpdate
  | telemetrySample
  | telemetryAggregate
  | coreMapPersist
  | warmStart (keep : Bool)
  | coldStart (failing : List StartFailure)
  | info
  | group (cmd : Nat) (nodes : List Nat)
  | keyLoad (slot : BitVec 13) (wrapped : BitVec 320)
  | keyClear (slot : BitVec 13)
  | attest (nonce : BitVec 256)
  | errlog (index : BitVec 32)
  | mailRefusal
  | memberEviction (node : Nat)
  deriving DecidableEq, Repr

/-- An event happens. -/
def Event.run (e : Event) (s : State) : Host.Outcome State Fault Refusal :=
  match e with
  | .loopIterationEnd c => execLoopIterationEnd c s
  | .asynchronousTrap c => execAsynchronousTrap c s
  | .idleWake c => execIdleWake c s
  | .gaugeTimeout c => execGaugeTimeout c s
  | .preemptionDeadline c => execPreemptionDeadline c s
  | .save g => execSave g s
  | .taskEnd c => execTaskEnd c s
  | .progressPromise c => execProgressPromise c s
  | .stragglerKill c => execStragglerKill c s
  | .forecastExpiry c => execForecastExpiry c s
  | .scheduleIterationStart c entry => execScheduleIterationStart c entry s
  | .cubeOperationStart id => execCubeOperationStart id s
  | .cubeOperationCompletion id => execCubeOperationCompletion id s
  | .vectorOperationCompletion id => execVectorOperationCompletion id s
  | .transposeOperationCompletion id => execTransposeOperationCompletion id s
  | .upstCompletion id => execUpstCompletion id s
  | .copyFault id => execCopyFault id s
  | .scheduleIterationLanding id => execScheduleIterationLanding id s
  | .copyLanding id recv => execCopyLanding id recv s
  | .wldLanding id => execWldLanding id s
  | .wstCompletion id => execWstCompletion id s
  | .jaccCompletion id => execJaccCompletion id s
  | .loadDataReturn id => execLoadDataReturn id s
  | .windowAccessTimeout id => execWindowAccessTimeout id s
  | .storePerformed id => execStorePerformed id s
  | .collectiveTransferSend id => execCollectiveTransferSend id s
  | .collectiveFold id => execCollectiveFold id s
  | .collectiveCompletion id => execCollectiveCompletion id s
  | .quantumExpiry core => execQuantumExpiry core s
  | .spillwayChunkReturn core queue => execSpillwayChunkReturn core queue s
  | .wsMapApplication core => execWsMapApplication core s
  | .deadlockDetection cube => execDeadlockDetection cube s
  | .governorWindow cube power => execGovernorWindow cube power s
  | .busTestRun cube => execBusTestRun cube s
  | .testDrained cube => execTestDrained cube s
  | .testEnd cube => execTestEnd cube s
  | .testAbort cube => execTestAbort cube s
  | .elevatorDrainEnd cube cluster => execElevatorDrainEnd cube cluster s
  | .transactionRetry id => execTransactionRetry id s
  | .droopAlarm region => execDroopAlarm region s
  | .droopAlarmClear region => execDroopAlarmClear region s
  | .fatalEvent code addr => execFatalEvent code addr s
  | .groupPlacement l => execGroupPlacement l s
  | .recomputeProducerCompletion l => execRecomputeProducerCompletion l s
  | .resume g => execResume g s
  | .guardRefresh bank => execGuardRefresh bank s
  | .launchBegin => execLaunchBegin s
  | .stepBudgetWindow => execStepBudgetWindow s
  | .ceilingChange => execCeilingChange s
  | .heartbeatSend => execHeartbeatSend s
  | .departure node => execDeparture node s
  | .forecastUpdate => execForecastUpdate s
  | .telemetrySample => execTelemetrySample s
  | .telemetryAggregate => execTelemetryAggregate s
  | .coreMapPersist => execCoreMapPersist s
  | .warmStart keep => execWarmStart keep s
  | .coldStart failing => execColdStart failing s
  | .info => execInfo s
  | .group cmd nodes => execGroup cmd nodes s
  | .keyLoad slot wrapped => execKeyLoad slot wrapped s
  | .keyClear slot => execKeyClear slot s
  | .attest nonce => execAttest nonce s
  | .errlog index => execErrlog index s
  | .mailRefusal => .next (s.mailReply s.mailCode refused_ [])
  | .memberEviction node => execMemberEviction node s

/-- An input takes effect; without the host link nothing comes from the host (R379). -/
def Input.run (e : Input) (s : State) : Host.Outcome State Fault Refusal :=
  match e with
  | .registerWrite n v => if s.rontal.linkUp then execRegisterWrite true n v s else .next s
  | .doorbell q tail => if s.rontal.linkUp then execDoorbell q tail s else .next s
  | .faultDomainAcknowledge fdom => if s.rontal.linkUp then execFaultDomainAcknowledge fdom s else .next s
  | .hostWindowAccess op offset size data cmp =>
    if s.rontal.linkUp then execHostWindowAccess op offset size data cmp s else .next s
  | .hostAtomicFailure id => .next (s.atomicFailed id)
  | .status => execStatus s
  | .reset kind => execReset kind s
  | .telemetry n => execTelemetry n s
  | .dumpRead offset len => execDumpRead offset len s
  | .dumpClear => execDumpClear s
  | .configRead => execConfigRead s
  | .configWrite node slot rollback body sig => execConfigWrite node slot rollback body sig s
  | .cmapRestore cube logical => execCmapRestore cube logical s
  | .timeset v => execTimeset v s
  | .errlogRead index n => execErrlogRead index n s
  | .getMeasurements nonce => execGetMeasurements nonce s
  | .spdmSecuredSession => execSpdmSecuredSession s
  | .fabricWindowAccess node op offset size data cmp => execFabricWindowAccess node op offset size data cmp s
  | .linkFailure port node => execLinkFailure port node s
  | .versionPublication node region ver => if s.fabric.members.contains node then execVersionPublication region ver s else .next s
  | .loweringAnnouncement node limit at_ => execLoweringAnnouncement node limit at_ s
  | .raiseProposal node limit at_ => execRaiseProposal node limit at_ s
  | .raiseGrant node => execRaiseGrant node s
  | .raiseGrantOf proposer node limit at_ => .next (s.grantedFor proposer node limit at_)
  | .loweringAcknowledgement node limit at_ => .next (s.loweringKnown node limit at_)
  | .grantTable node entries => .next (s.keepGrants node entries)
  | .joinAcknowledgement node joiner limit seq members => .next (s.joinKnown node joiner limit seq members)
  | .formRequest node limit seq nodes => .next (s.formWith node limit seq nodes)
  | .heartbeat node seq limit members => execHeartbeat node seq limit members s
  | .joinRequest node limit => execJoinRequest node limit s
  | .departure node => execDeparture node s
  | .collectiveTransferArrival node core sender chunk digest data => .next (s.transferComes core ⟨sender, chunk, digest, data, node⟩)
  | .collectiveAcknowledgement core receiver chunk => .next (s.ackTransfer core receiver chunk)
  | .scheduleSwitch core digest chunk => .next (s.agreeSwitch core digest chunk)
  | .sensorReading cube sensor quarters => execSensorReading cube sensor quarters s
  | .periodCount region n => .next (s.countPeriods region n)
  | .clockStretch region => execClockStretch region s
  | .crossingBubble region => execCrossingBubble region s
  | .busTestCompletion cube pass demand => execBusTestCompletion cube pass demand s
  | .busError cube place id => .next (s.busError cube place id)
  | .fatalEvent code addr => execFatalEvent code addr s
  | .coldStart failing => execColdStart failing s

/-- A move: the selected context of a core, an event, or the head of State.inputs. -/
inductive Move where
  | core (c : Nat)
  | event (e : Event)
  | input (e : Input)
  deriving DecidableEq, Repr

/-! Contexts. -/

/-- Drop repetitions that stand side by side. -/
def squeeze : List Nat → List Nat
  | [] => []
  | [a] => [a]
  | a :: b :: r => if a = b then squeeze (b :: r) else a :: squeeze (b :: r)

/-- The cores of which some context has a row. -/
def State.busyCores (s : State) : List Nat :=
  squeeze ((s.ctxs.map (fun p : Nat × Ctx => coreOf p.1)).filter (fun k => decide (k < 96 * s.part.cubes)))

/-- A context may make its step: no WLD of it is due (R237), and at a boundary nothing that a boundary admits first
is due: a kill (R303), a forced stop (R288), the end of a quantum, a promised slot (R285), an asynchronous trap (R294). -/
def State.mayStep (s : State) (c : Nat) : Bool :=
  !s.wldDue c &&
  ((s.ctx c).owed != 0 ||
    (!s.killDue c && !s.forceDue c && !s.quantumDue (coreOf c) && !s.asyncDue c &&
      !([0, 1, 2, 3].any (fun i => s.promiseDue (4 * coreOf c + i)))))

/-! Events of the machine itself (95, first paragraph). -/

/-- Events that concern an operation in flight. -/
def opEvents (o : Op) : List Event :=
  match o.engine with
  | 0 => [.cubeOperationStart o.id, .cubeOperationCompletion o.id]
  | 1 => [.vectorOperationCompletion o.id]
  | 2 => [.transposeOperationCompletion o.id]
  | 3 => [.upstCompletion o.id]
  | 4 => .copyFault o.id :: .scheduleIterationLanding o.id :: o.recvs.map (fun r => .copyLanding o.id r)
  | 6 => [.wldLanding o.id, .wstCompletion o.id]
  | _ => [.jaccCompletion o.id]

/-- Events that concern a context. -/
def ctxEvents (p : Nat × Ctx) : List Event :=
  let c := p.1
  [.loopIterationEnd c, .asynchronousTrap c, .idleWake c, .gaugeTimeout c, .preemptionDeadline c, .save c, .taskEnd c,
   .progressPromise c, .stragglerKill c, .forecastExpiry c] ++
  (List.range p.2.eng.copy.sched.length).map (fun k => .scheduleIterationStart c k)

/-- Events that concern a cube; the power of a governor window is a free value (R361; log 4). -/
def State.cubeEvents (s : State) (q : Nat) : List Event :=
  [.deadlockDetection q, .governorWindow q (s.draw (128 + q)).toNat, .busTestRun q, .testDrained q, .testEnd q,
   .testAbort q] ++
  (s.cube q).elevators.map (fun e : Nat × (Nat × Bool) => .elevatorDrainEnd q e.1) ++
  (if (s.cube q).hot then [.fatalEvent 1 0] else [])

/-- Weight-store banks whose guard refresh may be due: those with a row of their own, and, once the guard time since
the start has run out, every other (R238). -/
def State.refreshEvents (s : State) : List Event :=
  (s.banks.map (fun p : Nat × Bank => .guardRefresh p.1)) ++
  (if 96000 ≤ s.time * 21 then (List.range (s.part.cubes * 12288)).map (fun b => .guardRefresh b) else [])

/-- The mailbox command that the host has given, its parameters in the payload as log 53 lays them out (R378). -/
def State.mailEvents (s : State) : List Event :=
  let p := s.mailBytes
  if !s.rontal.busy then []
  else match s.mailCode with
    | 1 => [.info]
    | 2 => [.group (p 64 1) ((List.range (p 65 1)).map (fun i => p (66 + i) 1))]
    | 3 => [.keyLoad (BitVec.ofNat 13 (p 64 2)) (BitVec.ofNat 320 (p 72 40))]
    | 4 => [.keyClear (BitVec.ofNat 13 (p 64 2))]
    | 5 => [.attest (BitVec.ofNat 256 (p 64 32))]
    | 6 => [.errlog (BitVec.ofNat 32 (p 64 4))]
    | _ => [.mailRefusal]

/-- The start that has been asked for; what fails in it is left open (R379). -/
def State.startEvents (s : State) : List Event :=
  (if s.rontal.request.getLsbD 1 then [.coldStart (Config.selfTest s.tick)] else []) ++
  (if s.rontal.request.getLsbD 0 then [.warmStart (s.rontal.request.getLsbD 2)] else [])

/-- Events of the module as a whole. -/
def State.moduleEvents (s : State) : List Event :=
  [.launchBegin, .stepBudgetWindow, .ceilingChange, .heartbeatSend, .departure s.fabric.node, .forecastUpdate,
   .telemetrySample, .telemetryAggregate, .coreMapPersist] ++
  s.startEvents ++ s.mailEvents ++
  s.fabric.members.map (fun n => .memberEviction n)

/-- Every event of the machine that might be due. -/
def State.candidates (s : State) : List Event :=
  s.loads.flatMap (fun l => [.loadDataReturn l.id, .windowAccessTimeout l.id]) ++
  s.stores.map (fun w => .storePerformed w.id) ++
  s.ops.flatMap (fun o => if s.isLost o.id then [.transactionRetry o.id] else opEvents o) ++
  s.colls.flatMap (fun o => [.collectiveTransferSend o.id, .collectiveFold o.id, .collectiveCompletion o.id]) ++
  s.ctxs.flatMap ctxEvents ++
  s.cores.flatMap (fun p => [.quantumExpiry p.1, .spillwayChunkReturn p.1 0, .spillwayChunkReturn p.1 1,
    .spillwayChunkReturn p.1 2, .spillwayChunkReturn p.1 3]) ++
  s.columns.map (fun p => .wsMapApplication p.1) ++
  s.regions.flatMap (fun p => [.droopAlarm p.1, .droopAlarmClear p.1]) ++
  (List.range s.part.cubes).flatMap s.cubeEvents ++
  s.launches.flatMap (fun l => [.groupPlacement l.id, .recomputeProducerCompletion l.id]) ++
  (List.range s.saved.length).map (fun g => .resume g) ++
  s.refreshEvents ++ s.moduleEvents

/-- An event is due: it changes the state. -/
def State.due (s : State) (e : Event) : Bool :=
  match e.run s with
  | .next t => decide (t ≠ s)
  | .fault _ => true
  | .refused _ => true

/-- The kills that are due: a straggler dies at the first point that admits it, before anything moves it on (R303). -/
def State.kills (s : State) : List Move :=
  (s.ctxs.filter (fun p => s.killDue p.1)).map (fun p : Nat × Ctx => .event (.stragglerKill p.1))

/-- The moves open in a state where no kill is due. -/
def State.freeMoves (s : State) : List Move :=
  ((s.busyCores.filterMap s.selected).filter s.mayStep).map Move.core ++
  (s.candidates.filter s.due).map Move.event ++
  (match s.inputs with
   | [] => []
   | e :: _ => [.input e])

/-- Something that issued in a step of the machine has waited for long. -/
def State.overdue (s : State) (id born : Nat) : Bool := decide (born + Config.patience id ≤ s.tick)

/-- The events that bring what is in flight to its end. -/
def State.flights (s : State) : List Event :=
  s.loads.flatMap (fun l => [.loadDataReturn l.id, .windowAccessTimeout l.id]) ++
  s.stores.map (fun w => .storePerformed w.id) ++
  s.ops.flatMap (fun o => if s.isLost o.id then [.transactionRetry o.id] else opEvents o) ++
  s.colls.flatMap (fun o => [.collectiveTransferSend o.id, .collectiveFold o.id, .collectiveCompletion o.id])

/-- Once a write of a store, an atomic, an engine operation or a collective has waited for long, what is in flight goes
first: a pending write is performed in the end (R246; log 5). -/
def State.pressing (s : State) : List Move :=
  if s.stores.any (fun w => s.overdue w.id w.born) || s.loads.any (fun l => l.kind.isAtomic && s.overdue l.id l.born) ||
      s.ops.any (fun o => s.overdue o.id o.born) || s.colls.any (fun o => !o.done && s.overdue o.id o.born) then
    (s.flights.filter s.due).map Move.event
  else []

/-- A fatal error in a table stops the package before anything else moves (R386; log 26). -/
def State.fatals (s : State) : List Move :=
  (s.tableError.map (fun a => Move.event (.fatalEvent 2 (BitVec.ofNat 64 a)))).toList

/-- The moves open in a state. -/
def State.moves (s : State) : List Move :=
  if !s.fatals.isEmpty then s.fatals
  else if !s.kills.isEmpty then s.kills
  else if !s.pressing.isEmpty then s.pressing
  else s.freeMoves

/-- The move made: the only one open, or one of several (log 5). -/
def State.chosen (s : State) : Option Move :=
  match s.moves with
  | [] => none
  | [m] => some m
  | ms => ms[Config.choice s.tick % ms.length]?

/-! After a move. -/

/-- The cubes in whose memory a copy lands for a receiver (R306). -/
def Op.homes (o : Op) (r : Nat) : List Nat :=
  (((o.destAt r).pages.map (·.2)).filter (fun l => decide (l < 2 ^ 50))).map homeCube

/-- The cubes in which an event is progress (R306). -/
def State.progressOf (s : State) (e : Event) : List Nat :=
  let ofOp := fun (id : Nat) => (s.ops.filter (fun o => o.id == id)).map (fun o => cubeOf o.ctx)
  match e with
  | .loadDataReturn id => (s.loads.filter (fun l => l.id == id)).map (fun l => cubeOf l.ctx)
  | .vectorOperationCompletion id | .transposeOperationCompletion id | .upstCompletion id | .cubeOperationStart id
  | .cubeOperationCompletion id | .wldLanding id | .wstCompletion id | .jaccCompletion id | .copyFault id
  | .scheduleIterationLanding id => ofOp id
  | .copyLanding id r => cubeOfCore r :: ofOp id ++ (s.ops.filter (fun o => o.id == id)).flatMap (fun o => o.homes r)
  | .scheduleIterationStart c _ => [cubeOf c]
  | .collectiveTransferSend id | .collectiveFold id | .collectiveCompletion id =>
    (s.colls.filter (fun o => o.id == id)).map (fun o => cubeOf o.ctx)
  | _ => []

/-- The cube whose memory a write from outside reaches (R306). -/
def writtenCube (op pa : Nat) : List Nat := if op = 0 then [] else [homeCube pa]

/-- The cubes in which an input is progress: that in which it lands (R306). -/
def State.arrivalsOf (s : State) (e : Input) : List Nat :=
  match e with
  | .collectiveTransferArrival node core sender chunk digest data =>
    if s.lands core ⟨sender, chunk, digest, data, node⟩ then [cubeOfCore core] else []
  | .collectiveAcknowledgement core _ _ => [cubeOfCore core]
  | .fabricWindowAccess _ op offset _ _ _ => (s.exposed offset 1 true).toList.flatMap (writtenCube op.toNat)
  | .hostWindowAccess op offset _ _ _ => writtenCube op.toNat (s.rontal.winBase.toNat * 2 ^ 36 + offset)
  | _ => []

/-- A blocked context that waits no more is ready again (R285), unless a kill is due to it (R303). -/
def State.wake (s : State) (c : Nat) : State :=
  let x := s.ctx c
  if x.blocked && x.task.isSome && x.recompute.isNone && x.ending == .none && !s.killDue c && !s.stillWaits c then
    s.modCtx c (fun x => { x with blocked := false, readyAt := s.cycles })
  else s

/-- Rows that a resumed context waits for reopen as their banks close (R235); contexts that wait no more wake. -/
def State.wakeAll (s : State) : State :=
  let s := s.ctxs.foldl (fun (s : State) p => if p.2.rowsOwed.isEmpty then s else s.reopenRows p.1) s
  (s.ctxs.map (·.1)).foldl State.wake s

/-- Time passes between two moves (R355, R358; log 7). -/
def State.passTime (s : State) : State :=
  { s with
    time := s.time + Config.elapsedNs s.tick
    cycles := s.cycles + Config.elapsedCycles s.tick
    tick := s.tick + 1 }

/-- Make a move. -/
def State.make (s : State) (m : Move) : Host.Outcome State Fault Refusal :=
  match m with
  | .core c => .next (s.coreStep c)
  | .event e => e.run ((s.progressOf e).foldl State.progress s)
  | .input e => e.run ((s.arrivalsOf e).foldl State.progress { s with inputs := s.inputs.tail })

/-- A task stands in a context that the part does not have. -/
def State.misplaced (s : State) : Bool := s.ctxs.any (fun p => p.2.task.isSome && decide (s.numCtxs ≤ p.1))

/-! A state whose next step runs a given word. -/

/-- Where the page table of that state lies, and the page of its code (R269, R370). -/
def bootRoot : Nat := 0x3000000
def bootCode : Nat := 0x100000000

def bootTable : Nat := bootRoot + 0x40000

/-- The leaf of a 4 GiB page with every permission (R270). -/
def bootLeaf : Nat := 2 + 4 + 8 + 16 + 32 + bootCode * 2 ^ 64

/-- The launch of that state: one task, in supervisor mode, with all of the scratchpad and the accumulator. -/
def bootLaunch : Launch where
  id := 0
  record := 0
  queue := none
  polder := 0
  asid := 0
  prio := 0
  fdom := 0
  version := 0
  code := 0
  pclass := 0
  super := true
  group := 1
  tasks := 1
  spad := generalEnd
  sporg := 0
  acc0 := 0
  accn := 64
  sched := 0
  img := 0
  imgn := 0
  dmap := 0
  dmapn := 0
  addrs := [0]
  done := none
  nextGroup := 1
  ended := 0
  failed := false
  depth := 0
  consumer := none
  begun := 1

/-- The bytes of the bundle: the word, and where it does not end its bundle an addi of s0 to s0, which does. -/
def bootBundle (w : Nat) : Nat := if w.testBit 31 then w else w + 0x80400000 * 2 ^ 32

/-- The memory of that state: the root of address space 0, its two tables' entries, the bundle, and after it zeros. -/
def bootMem (m : List Host.Cell) (w : Nat) : List Host.Cell :=
  memWrite (memWrite (memWrite (memWrite (memZero m bootCode 64) (Config.asidBase) 8 bootRoot)
    bootRoot 32 (1 + bootTable * 2 ^ 64)) bootTable 32 bootLeaf) bootCode 12 (bootBundle w)

/-- A context that stands at the start of that code with nothing to wait for. -/
def Ctx.boot (x : Ctx) : Ctx :=
  { x with
    pc := 0
    mode := .supervisor
    task := some ⟨0, 0, 0, 0⟩
    shadow := []
    bypass := []
    owed := 0
    edges := []
    after := none
    safe := none
    killPoint := false
    xfer := none
    busyS := 0
    busyH := 0
    busyErr := []
    asyncs := []
    join := none
    asleep := false
    yielded := false
    preempt := .none
    rowsOwed := []
    waitFrom := none
    blocked := false
    ending := .none
    recompute := none }

/-- The state: context 0 runs a task whose code is the bundle; nothing else is under way. -/
def State.boot (s : State) (w : Nat) : State :=
  { s with
    mem := bootMem s.mem w
    ctxs := [(0, (s.ctx 0).boot)]
    launches := [bootLaunch]
    loads := []
    stores := []
    ops := []
    colls := []
    waiting := []
    saved := []
    inputs := []
    seq := max 1 s.seq }

end Sys2Proof.Machine
end

