-- ==== Sys2Proof/Machine/Step.lean ====
section
/-! DEFINITION. One step of the machine: one move, then what it lets go on, then the passing of time. -/

namespace Sys2Proof.Machine

/-- One step: the chosen move, if any is open (log 5). -/
def step (s : State) : Host.Outcome State Fault Refusal :=
  if s.misplaced then .fault .noSuchContext
  else match s.chosen with
    | none => .next s.passTime
    | some m => match s.make m with
      | .next t => .next t.wakeAll.passTime
      | .fault f => .fault f
      | .refused r => .refused r

/-- The state whose next step fetches and runs the word (log 11): a launch's only task, in supervisor mode, on context 0,
whose code is the word, with another to end the bundle where it does not. -/
def State.withFetchWord (s : State) (nbits w : Nat) : State := s.boot (w % 2 ^ nbits)

end Sys2Proof.Machine
end

