-- ==== Sys2Proof/Safety.lean ====
section
/-! DEFINITION. What claims call a well-kept state, and the shapes in which they say what a word does. -/

namespace Sys2Proof.Machine

/-- Memory is in its canonical form (log 1). -/
abbrev Memory.wf (m : List Host.Cell) : Bool := memWf m

/-- The state after a word whose whole effect is a change of the context that executes it. -/
def State.ran (s : State) (f : Ctx → Ctx) : State := { s.modMe f with mark := .ran }

/-- The state after a word that only queues a scalar write of some latency (R32); one to s0 is discarded (R15). -/
def State.wrote (s : State) (d : BitVec 5) (v : Word) (lat : Nat) : State := s.ran (fun x => x.putS d v lat)

/-- The state after a word whose result has latency 1, or is transient where T = 1 (R35, R79). -/
def State.made (s : State) (d : BitVec 5) (t : BitVec 1) (v : Word) : State :=
  s.ran (fun x => if t = 1#1 then x.putT d v else x.putS d v 1)

/-- The state after a word that takes a precise trap (R49, R291). -/
def State.trapped (s : State) (t : Trap) : State := { s.precise t with mark := .trapped t }

/-- The state after a word that waits (R40, R392). -/
def State.postponed (s : State) : State := { s with mark := .waits }

/-- A word that no instruction has: it does not decode, and a bundle that holds it traps ILLEGAL_OP (R49 row 3, R53). -/
def illegalOp (w : BitVec 32) : Prop :=
  (∃ e, decode w = .error e) ∧ ∀ (s : State) (c : Nat) (b : Bundle),
    s.fetchBundle c (s.ctx c).pc = .ok b → w ∈ b.words → s.ahead c = .trap { cause := cIllegalOp }

/-- Nothing outside the contexts differs, but for the mark of the last word. -/
def State.onlyContexts (s t : State) : Prop := t = { s with ctxs := t.ctxs, mark := t.mark }

/-- No context but the one that executes differs. -/
def State.onlyMe (s t : State) : Prop := s.onlyContexts t ∧ ∀ c, c ≠ s.cur → t.ctx c = s.ctx c

/-- The value of n bytes read, sign-extended or zero-extended to 64 bits (R81). -/
def widened (signed : Bool) (n v : Nat) : Word :=
  if signed then BitVec.ofInt 64 ((v : Int).bmod (2 ^ (8 * n))) else BitVec.ofNat 64 v

/-- The current context may access the n bytes at a local address now: aligned, in its area and allotments, in no busy
range (R25, R29, R40, R81). -/
def State.nearFree (s : State) (a : Word) (n : Nat) : Prop :=
  isLocal a = true ∧ a.toNat % n = 0 ∧ s.localAt s.cur (coreOf s.cur) a n = .ok (spadLoc (coreOf s.cur) a.toNat) ∧
  s.rangeBusy (coreOf s.cur) none (spadLoc (coreOf s.cur) a.toNat) n = false

/-- The current context may access the n bytes at a global address: aligned, translated to p, permitted, no race trap
(R81, R269 to R271, R274). -/
def State.farFree (s : State) (acc : Acc) (atomic : Bool) (a : Word) (n : Nat) (p : Place) : Prop :=
  isLocal a = false ∧ a.toNat % n = 0 ∧ s.globalAt (s.agentOf s.cur) acc a = .ok p ∧
  s.raceTrap s.cur p a (acc == .write) atomic = .ok ()

/-- A word of the current context has made register d of the scalar file await load l (R34, R47): l joins the loads not
returned, the writes to d on their way are dropped, and no other register, write or busy bit, and nothing else but the
record caches of the cores, changes. -/
def State.awaits (s t : State) (d : BitVec 5) (l : PendLoad) : Prop :=
  t = { s with ctxs := t.ctxs, cores := t.cores, loads := s.loads ++ [l], seq := s.seq + 1, mark := .ran } ∧
  (∀ c, c ≠ s.cur → t.ctx c = s.ctx c) ∧ (d = 0#5 → t.me = s.me) ∧
  (d ≠ 0#5 → t.me.busy .scalar d = true ∧
    t.me.shadow = s.me.shadow.filter (fun w => !(w.file == .scalar && w.reg == d))) ∧
  t.me = { s.me with shadow := t.me.shadow, bypass := t.me.bypass, busyS := t.me.busyS } ∧
  (∀ r, r ≠ d → t.me.busy .scalar r = s.me.busy .scalar r) ∧
  t.me.bypass.filter (fun b => b.reg != d) = s.me.bypass.filter (fun b => b.reg != d)

/-- A word of the current context has put operation o in flight on an engine (R22, R46): it has the next number, the word,
and the engine registers as they stand. -/
def State.sentOff (s t : State) (e : Nat) (i : Instr) (o : Op) : Prop :=
  t.ops = s.ops ++ [o] ∧ t.seq = s.seq + 1 ∧ t.mark = .ran ∧
  o.id = s.seq ∧ o.ctx = s.cur ∧ o.engine = e ∧ o.instr = i ∧ o.regs = s.me.eng ∧ o.started = false

/-- Nothing but the operations in flight and what the cores hold (chain entries, cached records) differs. -/
def State.onlyEngines (s t : State) : Prop :=
  t = { s with ops := t.ops, cores := t.cores, seq := t.seq, mark := t.mark }

/-- Handle register r names a plain tensor of extents (e0, e1, 1, 1) of a format in the core's scratchpad that an engine may
take as an operand now: valid, aligned, not dropped, without a layout record, inside its area and allotments, none of its
bytes busy in another engine (R17, R20, R27, R29, R40). -/
def State.operand (s : State) (eng : Nat) (r : BitVec 5) (fmt e0 e1 : Nat) : Prop :=
  let h := s.hr r
  handleOk h = true ∧ hKind h = kPlain ∧ hFmt h = fmt ∧ hLrec h = 0 ∧ hD h = false ∧ hW h = false ∧
  isLocal (hBase h) = true ∧ handleAligned h = true ∧ extents h = (e0, e1, 1, 1) ∧ 1 ≤ e0 ∧ 1 ≤ e1 ∧
  s.localAt s.cur (coreOf s.cur) (hBase h) (spanOf h none) = .ok (spadLoc (coreOf s.cur) (hBase h).toNat) ∧
  s.rangeBusy (coreOf s.cur) (some eng) (spadLoc (coreOf s.cur) (hBase h).toNat) (spanOf h none) = false

/-- An operand as issue took it is a plain row of n elements of b bytes each in a scratchpad (R19). -/
def Opnd.isRow (o : Opnd) (n b : Nat) : Prop :=
  fmtBits (hFmt o.h) = some (8 * b) ∧ extents o.h = (n, 1, 1, 1) ∧ o.lay = Option.none ∧ isLocal o.base = true ∧
  o.base.toNat % 2 ^ 30 + n * b ≤ 2 ^ 30

/-- An operand as issue took it is a plain tile of e0 by e1 elements of b bytes each in a scratchpad, its rows apart (R19). -/
def Opnd.isTile (o : Opnd) (e0 e1 b : Nat) : Prop :=
  fmtBits (hFmt o.h) = some (8 * b) ∧ extents o.h = (e0, e1, 1, 1) ∧ 1 ≤ e0 ∧ 1 ≤ e1 ∧
  o.lay = Option.none ∧ isLocal o.base = true ∧ e0 * b ≤ hStride o.h 1 ∧ o.base.toNat % 2 ^ 30 + e1 * hStride o.h 1 ≤ 2 ^ 30

/-- The bytes of such a tile: where they begin and how far they reach. -/
def Opnd.tileBytes (o : Opnd) (e1 : Nat) : Nat × Nat := (spadLoc o.core o.base.toNat, e1 * hStride o.h 1)

/-- The numerator of a finite value with its sign. -/
def signed (neg : Bool) (n : Nat) : Int := if neg then -(n : Int) else n

/-- One value lies below another, as numbers, of which a NaN is none (R156). -/
def Num.below : Num → Num → Prop
  | .nan, _ => False
  | _, .nan => False
  | .inf s, .inf t => s = true ∧ t = false
  | .inf s, .fin _ _ _ => s = true
  | .fin _ _ _, .inf t => t = false
  | .fin s n d, .fin t m e => signed s n * e < signed t m * d

/-- v is the integer nearest to a / d, the even one of two that are (R122). -/
def roundsTo (a : Int) (d : Nat) (v : Int) : Prop :=
  2 * (a - v * d).natAbs ≤ d ∧ (2 * (a - v * d).natAbs = d → v % 2 = 0)

/-- v is a / d rounded to an integer under a mode (R122). -/
def roundsBy (m : Rnd) (a : Int) (d : Nat) (v : Int) : Prop :=
  match m with
  | .rne => roundsTo a d v
  | .rz => v = a.tdiv d
  | .ru => v = -(-a / d)
  | .rd => v = a / d

/-- What stands at place j of level k of the reduction tree over lanes v (R137). -/
def treeAt {α : Type} (op : α → α → α) (v : Nat → α) : Nat → Nat → α
  | 0, j => v j
  | k + 1, j => op (treeAt op v k (2 * j)) (treeAt op v k (2 * j + 1))

/-- The stream binding of a context by its number. -/
def Ctx.binding (x : Ctx) (n : Nat) : Binding := x.binds.toList.getD n Binding.reset

/-- How many operations of an engine a context has completed (R102). -/
def Ctx.completed (x : Ctx) (e : Nat) : Nat := x.doneCnt.toList.getD e 0

end Sys2Proof.Machine
end

