-- ==== Sys2Proof/Certificates/Slice0/Obligations.lean ====
section
/-! DEFINITION. The statements for the provers. -/

open Sys2Proof Sys2Proof.Machine

/-! Scalar arithmetic (spec 03 R78 to R80, R97). -/

/-- R78: each immediate word writes the value of its row, with latency 1, and changes nothing else; a shift whose imm12[11:7]
is not 0, or of 32 bits by more than 31, traps ILLEGAL_OP. The example's words build 2 ^ 40 + 435. -/
def Obligations.ImmediateWords : Prop :=
  ∀ (s : State) (d a : BitVec 5) (i : BitVec 12) (n : BitVec 6) (j : BitVec 17),
    let A := s.sr a
    exec (.addi d a i) s = .next (s.wrote d (BitVec.ofInt 64 (A.toInt + i.toInt)) 1) ∧
    exec (.addiW d a i) s = .next (s.wrote d (BitVec.ofInt 64 ((A.toInt + i.toInt).bmod (2 ^ 32))) 1) ∧
    exec (.andi d a i) s = .next (s.wrote d (A &&& BitVec.ofInt 64 i.toInt) 1) ∧
    exec (.ori d a i) s = .next (s.wrote d (A ||| BitVec.ofInt 64 i.toInt) 1) ∧
    exec (.xori d a i) s = .next (s.wrote d (A ^^^ BitVec.ofInt 64 i.toInt) 1) ∧
    exec (.slli d a 0#1 n) s = .next (s.wrote d (BitVec.ofNat 64 (A.toNat * 2 ^ n.toNat)) 1) ∧
    exec (.srli d a 0#1 n) s = .next (s.wrote d (BitVec.ofNat 64 (A.toNat / 2 ^ n.toNat)) 1) ∧
    exec (.srai d a 0#1 n) s = .next (s.wrote d (BitVec.ofInt 64 (A.toInt / 2 ^ n.toNat)) 1) ∧
    exec (.slli d a 1#1 n) s =
      .next (s.wrote d (BitVec.ofInt 64 (((A.toNat * 2 ^ n.toNat : Nat) : Int).bmod (2 ^ 32))) 1) ∧
    exec (.srli d a 1#1 n) s =
      .next (s.wrote d (BitVec.ofInt 64 (((A.toNat % 2 ^ 32 / 2 ^ n.toNat : Nat) : Int).bmod (2 ^ 32))) 1) ∧
    exec (.srai d a 1#1 n) s =
      .next (s.wrote d (BitVec.ofInt 64 (((A.toNat : Int).bmod (2 ^ 32)) / 2 ^ n.toNat)) 1) ∧
    exec (.li d j) s = .next (s.wrote d (BitVec.ofInt 64 j.toInt) 1) ∧
    exec (.lui d j) s = .next (s.wrote d (BitVec.ofInt 64 (j.toInt * 2 ^ 17)) 1) ∧
    exec (.lsi d j) s = .next (s.wrote d (BitVec.ofNat 64 ((s.sr d).toNat * 2 ^ 17 + j.toNat)) 1) ∧
    (∀ w : BitVec 32, 6 ≤ (fld w 22 6).toNat → (fld w 22 6).toNat ≤ 8 → (fld w 7 5 ≠ 0#5 ∨ fld w 5 2 = 3#2) → illegalOp w) ∧
    (decode 0x82480040#32 = .ok (.li 4#5 64#17) ∧ decode 0x82C80000#32 = .ok (.lsi 4#5 0#17) ∧
      decode 0x82C801B3#32 = .ok (.lsi 4#5 0x1B3#17) ∧ (64 * 2 ^ 17 + 0) * 2 ^ 17 + 0x1B3 = 2 ^ 40 + 435)

/-- R79: the register words of arithmetic, logic, shifts and comparisons of size give the value of their row, with latency
1 or as a transient, and change nothing else; the unassigned functions of major 0x10, and a unary one with b ≠ 0, trap
ILLEGAL_OP.

R79: counts of leading zeros, trailing zeros and set bits, over 64 bits or the low 32, and the extensions. -/
def Obligations.RegisterWords : Prop :=
  (∀ (s : State) (d a b : BitVec 5) (t : BitVec 1),
     let A := s.sr a
     let B := s.sr b
     let word := fun (v : Int) => BitVec.ofInt 64 (v.bmod (2 ^ 32))
     exec (.add d a b t) s = .next (s.made d t (BitVec.ofNat 64 (A.toNat + B.toNat))) ∧
     exec (.sub d a b t) s = .next (s.made d t (BitVec.ofInt 64 (A.toInt - B.toInt))) ∧
     exec (.and d a b t) s = .next (s.made d t (A &&& B)) ∧
     exec (.or d a b t) s = .next (s.made d t (A ||| B)) ∧
     exec (.xor d a b t) s = .next (s.made d t (A ^^^ B)) ∧
     exec (.andn d a b t) s = .next (s.made d t (A &&& ~~~B)) ∧
     exec (.sll d a b t) s = .next (s.made d t (BitVec.ofNat 64 (A.toNat * 2 ^ (B.toNat % 64)))) ∧
     exec (.srl d a b t) s = .next (s.made d t (BitVec.ofNat 64 (A.toNat / 2 ^ (B.toNat % 64)))) ∧
     exec (.sra d a b t) s = .next (s.made d t (BitVec.ofInt 64 (A.toInt / 2 ^ (B.toNat % 64)))) ∧
     exec (.min d a b t) s = .next (s.made d t (BitVec.ofInt 64 (min A.toInt B.toInt))) ∧
     exec (.max d a b t) s = .next (s.made d t (BitVec.ofInt 64 (max A.toInt B.toInt))) ∧
     exec (.minu d a b t) s = .next (s.made d t (BitVec.ofNat 64 (min A.toNat B.toNat))) ∧
     exec (.maxu d a b t) s = .next (s.made d t (BitVec.ofNat 64 (max A.toNat B.toNat))) ∧
     exec (.sadd1 d a b t) s = .next (s.made d t (BitVec.ofNat 64 (A.toNat + 2 * B.toNat))) ∧
     exec (.sadd2 d a b t) s = .next (s.made d t (BitVec.ofNat 64 (A.toNat + 4 * B.toNat))) ∧
     exec (.sadd3 d a b t) s = .next (s.made d t (BitVec.ofNat 64 (A.toNat + 8 * B.toNat))) ∧
     exec (.sadd4 d a b t) s = .next (s.made d t (BitVec.ofNat 64 (A.toNat + 16 * B.toNat))) ∧
     exec (.addW d a b t) s = .next (s.made d t (word (A.toInt + B.toInt))) ∧
     exec (.subW d a b t) s = .next (s.made d t (word (A.toInt - B.toInt))) ∧
     exec (.sllW d a b t) s = .next (s.made d t (word ((A.toNat * 2 ^ (B.toNat % 32) : Nat) : Int))) ∧
     exec (.srlW d a b t) s = .next (s.made d t (word ((A.toNat % 2 ^ 32 / 2 ^ (B.toNat % 32) : Nat) : Int))) ∧
     exec (.sraW d a b t) s = .next (s.made d t (BitVec.ofInt 64 ((A.toNat : Int).bmod (2 ^ 32) / 2 ^ (B.toNat % 32)))) ∧
     ∀ w : BitVec 32, fld w 22 6 = 0x10#6 → let fn := (fld w 0 6).toNat
       (0x1A ≤ fn ∧ fn ≤ 0x1F ∨ 0x22 ≤ fn ∧ fn ≤ 0x25 ∨ 0x29 ≤ fn ∧ fn ≤ 0x2C ∨ 0x30 ≤ fn ∨
         ((0x0D ≤ fn ∧ fn ≤ 0x15 ∨ 0x2D ≤ fn ∧ fn ≤ 0x2F) ∧ fld w 7 5 ≠ 0#5)) → illegalOp w) ∧
  (∀ (s : State) (d a : BitVec 5) (t : BitVec 1),
     let A := (s.sr a).toNat
     let made := fun (n : Nat) => Host.Outcome.next (s.made d t (BitVec.ofNat 64 n))
     let ext := fun (v : Int) => Host.Outcome.next (s.made d t (BitVec.ofInt 64 v))
     let lead := fun (w : Nat) => if A % 2 ^ w = 0 then w else w - 1 - Nat.log2 (A % 2 ^ w)
     let ones := fun (w : Nat) => ((List.range w).filter (fun i => A.testBit i)).length
     exec (.clz d a t) s = made (lead 64) ∧ exec (.clzW d a t) s = made (lead 32) ∧
     (∀ w : Nat, (w = 64 ∨ w = 32) → ∃ n : Nat, n ≤ w ∧ (∀ i, i < n → A.testBit i = false) ∧
       (n < w → A.testBit n = true) ∧ exec (if w = 64 then .ctz d a t else .ctzW d a t) s = made n) ∧
     exec (.popc d a t) s = made (ones 64) ∧ exec (.popcW d a t) s = made (ones 32) ∧
     exec (.sextB d a t) s = ext ((A : Int).bmod (2 ^ 8)) ∧
     exec (.sextH d a t) s = ext ((A : Int).bmod (2 ^ 16)) ∧
     exec (.sextW d a t) s = ext ((A : Int).bmod (2 ^ 32)) ∧
     exec (.zextB d a t) s = made (A % 2 ^ 8) ∧
     exec (.zextH d a t) s = made (A % 2 ^ 16) ∧
     exec (.zextW d a t) s = made (A % 2 ^ 32))

/-- R59, R80: the function codes of major 0x11. The multiply words write bits of the exact product with latency 3; the divide
words write the quotient rounded toward 0 or the remainder with latency 20, and for a zero divisor all ones or the dividend.
None waits; each takes one entry of the shadow queue. -/
def Obligations.MultiplyAndDivide : Prop :=
  ∀ (s : State) (d a b : BitVec 5),
    let A := s.sr a
    let B := s.sr b
    let a32 : Int := (A.toNat : Int).bmod (2 ^ 32)
    let b32 : Int := (B.toNat : Int).bmod (2 ^ 32)
    let word := fun (v : Int) => BitVec.ofInt 64 (v.bmod (2 ^ 32))
    let ua := A.toNat % 2 ^ 32
    let ub := B.toNat % 2 ^ 32
    exec (.mul d a b) s = .next (s.wrote d (BitVec.ofInt 64 (A.toInt * B.toInt)) 3) ∧
    exec (.mulh d a b) s = .next (s.wrote d (BitVec.ofInt 64 (A.toInt * B.toInt / 2 ^ 64)) 3) ∧
    exec (.mulhu d a b) s = .next (s.wrote d (BitVec.ofNat 64 (A.toNat * B.toNat / 2 ^ 64)) 3) ∧
    exec (.mulhsu d a b) s = .next (s.wrote d (BitVec.ofInt 64 (A.toInt * B.toNat / 2 ^ 64)) 3) ∧
    exec (.mulW d a b) s = .next (s.wrote d (word (A.toInt * B.toInt)) 3) ∧
    exec (.div d a b) s =
      .next (s.wrote d (if B = 0#64 then BitVec.ofInt 64 (-1) else BitVec.ofInt 64 (A.toInt.tdiv B.toInt)) 20) ∧
    exec (.rem d a b) s = .next (s.wrote d (BitVec.ofInt 64 (A.toInt.tmod B.toInt)) 20) ∧
    exec (.divu d a b) s =
      .next (s.wrote d (if B = 0#64 then BitVec.ofInt 64 (-1) else BitVec.ofNat 64 (A.toNat / B.toNat)) 20) ∧
    exec (.remu d a b) s = .next (s.wrote d (BitVec.ofNat 64 (A.toNat % B.toNat)) 20) ∧
    exec (.divW d a b) s = .next (s.wrote d (if b32 = 0 then BitVec.ofInt 64 (-1) else word (a32.tdiv b32)) 20) ∧
    exec (.remW d a b) s = .next (s.wrote d (BitVec.ofInt 64 (a32.tmod b32)) 20) ∧
    exec (.divuW d a b) s = .next (s.wrote d (if ub = 0 then BitVec.ofInt 64 (-1) else word ((ua / ub : Nat) : Int)) 20) ∧
    exec (.remuW d a b) s = .next (s.wrote d (word ((ua % ub : Nat) : Int)) 20) ∧
    (∀ w : BitVec 32, fld w 22 6 = 0x11#6 → let fn := (fld w 0 7).toNat
      (fn = 0 → decode w = .ok (.mul (fld w 17 5) (fld w 12 5) (fld w 7 5))) ∧
      (fn = 1 → decode w = .ok (.mulh (fld w 17 5) (fld w 12 5) (fld w 7 5))) ∧
      (fn = 2 → decode w = .ok (.mulhu (fld w 17 5) (fld w 12 5) (fld w 7 5))) ∧
      (fn = 3 → decode w = .ok (.mulhsu (fld w 17 5) (fld w 12 5) (fld w 7 5))) ∧
      (fn = 4 → decode w = .ok (.mulW (fld w 17 5) (fld w 12 5) (fld w 7 5))) ∧
      (fn = 8 → decode w = .ok (.div (fld w 17 5) (fld w 12 5) (fld w 7 5))) ∧
      (fn = 9 → decode w = .ok (.divu (fld w 17 5) (fld w 12 5) (fld w 7 5))) ∧
      (fn = 0xA → decode w = .ok (.rem (fld w 17 5) (fld w 12 5) (fld w 7 5))) ∧
      (fn = 0xB → decode w = .ok (.remu (fld w 17 5) (fld w 12 5) (fld w 7 5))) ∧
      (fn = 0xC → decode w = .ok (.divW (fld w 17 5) (fld w 12 5) (fld w 7 5))) ∧
      (fn = 0xD → decode w = .ok (.divuW (fld w 17 5) (fld w 12 5) (fld w 7 5))) ∧
      (fn = 0xE → decode w = .ok (.remW (fld w 17 5) (fld w 12 5) (fld w 7 5))) ∧
      (fn = 0xF → decode w = .ok (.remuW (fld w 17 5) (fld w 12 5) (fld w 7 5))) ∧
      (5 ≤ fn → (fn ≤ 7 ∨ 0x10 ≤ fn) → illegalOp w)) ∧
    ∀ (x : Ctx), d ≠ 0#5 → ∀ i ∈ [Instr.mul d a b, .mulh d a b, .mulhu d a b, .mulhsu d a b, .mulW d a b, .div d a b, .divu d a b,
      .rem d a b, .remu d a b, .divW d a b, .divuW d a b, .remW d a b, .remuW d a b],
      (x.lacksRoom [i] = true ↔ 8 ≤ x.shadow.length)

/-- R97: PTGT writes the address of the first word of its own bundle plus four times its immediate; a compare writes 1
where its relation holds of all 64 bits, or of the low 32 in the .w form, and 0 otherwise; all with latency 1. -/
def Obligations.TargetsAndCompares : Prop :=
  ∀ (s : State) (d a b : BitVec 5) (x : BitVec 1) (i : BitVec 17),
    let A := s.sr a
    let B := s.sr b
    let sa : Int := if x = 0#1 then A.toInt else (A.toNat : Int).bmod (2 ^ 32)
    let sb : Int := if x = 0#1 then B.toInt else (B.toNat : Int).bmod (2 ^ 32)
    let ua : Nat := if x = 0#1 then A.toNat else A.toNat % 2 ^ 32
    let ub : Nat := if x = 0#1 then B.toNat else B.toNat % 2 ^ 32
    let holds := fun (p : Prop) (_ : Decidable p) => Host.Outcome.next (s.wrote d (if p then 1#64 else 0#64) 1)
    exec (.ptgt d i) s = .next (s.wrote d (BitVec.ofInt 64 (s.me.pc.toInt + i.toInt * 4)) 1) ∧
    exec (.cmpEq d a b x) s = holds (ua = ub) inferInstance ∧
    exec (.cmpNe d a b x) s = holds (ua ≠ ub) inferInstance ∧
    exec (.cmpLt d a b x) s = holds (sa < sb) inferInstance ∧
    exec (.cmpGe d a b x) s = holds (sb ≤ sa) inferInstance ∧
    exec (.cmpLtu d a b x) s = holds (ua < ub) inferInstance ∧
    exec (.cmpGeu d a b x) s = holds (ub ≤ ua) inferInstance ∧
    ∀ w : BitVec 32, fld w 22 6 = 0x1B#6 → let fn := (fld w 0 7).toNat
      6 ≤ fn → (fn ≤ 7 ∨ 0xE ≤ fn) → illegalOp w

/-- The frame of every scalar word of majors 0x01 to 0x11, 0x1A and 0x1B: no other context, no memory, no flag, no special
or engine register changes, and of its own context at most one write to register D joins those on their way. -/
def Obligations.ScalarWordsFrame : Prop :=
  ∀ (i : Instr) (s t : State), (i.isWord = true ∧ (majorOf i ≤ 0x11 ∨ majorOf i = 0x1A ∨ majorOf i = 0x1B)) →
    exec i s = .next t →
    s.onlyMe t ∧ t.mark = .ran ∧ (∀ a : Nat, memGet t.mem a = memGet s.mem a) ∧
    t.me = { s.me with shadow := t.me.shadow, bypass := t.me.bypass } ∧
    (fieldD i = 0#5 → t.me = s.me) ∧
    ∃ (ws : List PendWrite) (bs : List Bypass), ws.length + bs.length ≤ 1 ∧
      t.me.shadow = s.me.shadow ++ ws ∧ (∀ w ∈ ws, w.file = .scalar ∧ w.reg = fieldD i) ∧
      t.me.bypass = s.me.bypass ++ bs ∧ (∀ b ∈ bs, b.reg = fieldD i)

/-- R15, R32: a queued scalar write of latency n is seen n steps later and not before; one to s0 is never seen.

R35: a transient result is read in the three steps after its own and in no other; its own bundle and the fourth step
read what they read without it.

Some clauses rest on choices of the model (log 17). -/
def Obligations.ScalarResultsLand : Prop :=
  (∀ (x : Ctx) (d : BitVec 5) (v : Word) (lat k : Nat), 1 ≤ lat →
     (∀ w ∈ x.shadow, ¬(w.file = .scalar ∧ w.reg = d)) → (∀ b ∈ x.bypass, b.reg ≠ d) →
     (k < lat → (Nat.repeat Ctx.tick k (x.putS d v lat)).sreg d = x.sreg d) ∧
     (d ≠ 0#5 → (Nat.repeat Ctx.tick lat (x.putS d v lat)).sreg d = v) ∧
     (d = 0#5 → (Nat.repeat Ctx.tick k (x.putS d v lat)).sreg d = 0#64)) ∧
  (∀ (x : Ctx) (d : BitVec 5) (v : Word), d ≠ 0#5 → (∀ w ∈ x.shadow, ¬(w.file = .scalar ∧ w.reg = d)) →
     (x.putT d v).sreg d = x.sreg d ∧
     (∀ k, 1 ≤ k → k ≤ 3 → (Nat.repeat Ctx.tick k (x.putT d v)).sreg d = v) ∧
     (Nat.repeat Ctx.tick 4 (x.putT d v)).sreg d = vget x.regs d)

/-! Loads, stores and atomics (spec 03 R81 to R85, R92). -/

/-- R81, R32: a scalar load from a local address reads scratchpad and queues the value for its register, 5 steps later; it
changes nothing else.

R81, R34: a scalar load from a global address makes its register busy, drops the writes to it that were on their way and
joins the loads that have not returned; no register's value, no other register's queued write, transient or busy bit changes,
and nothing else but what a race report writes.

Some clauses rest on choices of the model (log 24). -/
def Obligations.ScalarLoads : Prop :=
  (∀ (s : State) (d b : BitVec 5) (o : BitVec 10),
     ∀ q ∈ [(Instr.ldB d b o, 0, true), (.ldH d b o, 1, true), (.ldW d b o, 2, true), (.ldD d b o, 3, true),
       (.ldBu d b o, 0, false), (.ldHu d b o, 1, false), (.ldWu d b o, 2, false)],
     let a := s.sr b + (o.signExtend 64 <<< q.2.1)
     let n := 2 ^ q.2.1
     let l := spadLoc (coreOf s.cur) a.toNat
     s.nearFree a n → s.poisoned l n = false →
     exec q.1 s = .next (s.wrote d (widened q.2.2 n (memRead s.mem l n)) 5)) ∧
  (∀ (s : State) (d b : BitVec 5) (o : BitVec 10) (p : Place),
     ∀ q ∈ [(Instr.ldB d b o, 0, true), (.ldH d b o, 1, true), (.ldW d b o, 2, true), (.ldD d b o, 3, true),
       (.ldBu d b o, 0, false), (.ldHu d b o, 1, false), (.ldWu d b o, 2, false)],
     let a := s.sr b + (o.signExtend 64 <<< q.2.1)
     let n := 2 ^ q.2.1
     s.farFree .read false a n p →
     ∃ t : State, exec q.1 s = .next t ∧ t.mark = .ran ∧
       t.loads = s.loads ++ [⟨s.seq, s.cur, .scalar, d, .mem p.loc n q.2.2, a, s.time, false, none, s.tick⟩] ∧ t.seq = s.seq + 1 ∧
       (d ≠ 0#5 → t.me.busy .scalar d = true) ∧
       t = { s.raceNote s.cur p a false false with ctxs := t.ctxs, loads := t.loads, seq := t.seq, mark := t.mark } ∧
       (s.checks p.leaf = false →
         t = { s with ctxs := t.ctxs, loads := t.loads, seq := t.seq, mark := t.mark }) ∧
       (∀ c, c ≠ s.cur → t.ctx c = s.ctx c) ∧
       t.me = { s.me with shadow := t.me.shadow, bypass := t.me.bypass, busyS := t.me.busyS } ∧
       (∀ r, r ≠ d → t.me.busy .scalar r = s.me.busy .scalar r) ∧ (d = 0#5 → t.me = s.me) ∧
       (d ≠ 0#5 → t.me.shadow = s.me.shadow.filter (fun w => !(w.file == .scalar && w.reg == d))) ∧
       t.me.bypass.filter (fun b => b.reg != d) = s.me.bypass.filter (fun b => b.reg != d))

/-- R34, R82, R83: the data of a pending load return: its register holds what the context sees at the bytes, or the old
value of an atomic, and is busy no more; no other register changes, and memory changes only under an atomic.

R82: a load whose data return with an uncorrectable error changes no register: the register stays busy, the error is
attached to it and enters the error log.

Some clauses rest on choices of the model (logs 3, 24). -/
def Obligations.LoadsReturn : Prop :=
  (∀ (s : State) (l : PendLoad), s.loads.find? (fun k => k.id == l.id) = some l → s.mayReturn l = true →
     s.loadError l = false → l.kind ≠ .arrival →
     ∃ t : State, exec (.loadDataReturn l.id) s = .next t ∧
       t.loads = s.loads.filter (fun k => k.id != l.id) ∧ (t.ctx l.ctx).busy l.file l.reg = false ∧
       (∀ c, c ≠ l.ctx → t.ctx c = s.ctx c) ∧
       (∀ r, ¬(l.file = .scalar ∧ r = l.reg) → vget (t.ctx l.ctx).regs r = vget (s.ctx l.ctx).regs r) ∧
       (∀ r, ¬(l.file = .handle ∧ r = l.reg) → vget (t.ctx l.ctx).hregs r = vget (s.ctx l.ctx).hregs r) ∧
       (∀ a n sg, l.kind = .mem a n sg → t.mem = s.mem ∧ (l.file = .scalar → l.reg ≠ 0#5 →
         vget (t.ctx l.ctx).regs l.reg = extend sg n (s.view l.ctx l.id a n))) ∧
       (∀ v, (l.kind = .value v ∨ ∃ a, l.kind = .handle v a) → t.mem = s.mem ∧
         (l.file = .handle → vget (t.ctx l.ctx).hregs l.reg = v) ∧
         (l.file = .scalar → l.reg ≠ 0#5 → vget (t.ctx l.ctx).regs l.reg = v.setWidth 64)) ∧
       (∀ op a n v w, l.kind = .atomic op a n v w →
         (l.file = .scalar → l.reg ≠ 0#5 → vget (t.ctx l.ctx).regs l.reg = extend true n (memRead s.mem a n)) ∧
         (∀ j, j < n → memGet t.mem (a + j) =
           BitVec.ofNat 8 (atomicNew op n (memRead s.mem a n) v.toNat w.toNat / 256 ^ j)) ∧
         (∀ b, (b < a ∨ a + n ≤ b) → memGet t.mem b = memGet s.mem b))) ∧
  (∀ (s : State) (l : PendLoad), s.loads.find? (fun k => k.id == l.id) = some l → s.mayReturn l = true →
     s.loadError l = true →
     ∃ t : State, exec (.loadDataReturn l.id) s = .next t ∧ t.mem = s.mem ∧
       t.loads = s.loads.filter (fun k => k.id != l.id) ∧
       (t.ctx l.ctx) = { s.ctx l.ctx with busyErr := (t.ctx l.ctx).busyErr } ∧
       ((s.ctx l.ctx).busy l.file l.reg = true →
         (t.ctx l.ctx).busyErr = (s.ctx l.ctx).busyErr ++ [(l.file, l.reg, l.addr)]) ∧
       t.rontal.errCount = s.rontal.errCount + 1)

/-- R81, R84: a store to a local address writes the low bytes of its register there, little-endian, and no other byte; it
changes nothing else.

R81, R83, R84: a store to a global address joins the context's stores that are not yet performed; memory does not
change yet, nor, where the page is not race-checked, does anything else.

R83, R246, R247: a pending store whose context's earlier accesses to its bytes have taken effect is performed at the next
wider scope (core, cluster, cube) and changes no memory of the package; performed at package scope, its bytes, and no others,
hold its data.

Some clauses rest on choices of the model (logs 3, 23). -/
def Obligations.ScalarStores : Prop :=
  (∀ (s : State) (d b : BitVec 5) (o : BitVec 10),
     ∀ q ∈ [(Instr.stB d b o, 0, (s.sr d).toNat), (.stH d b o, 1, (s.sr d).toNat), (.stW d b o, 2, (s.sr d).toNat),
       (.stD d b o, 3, (s.sr d).toNat), (.hst d b o, 5, (s.hr d).toNat)],
     let a := s.sr b + (o.signExtend 64 <<< q.2.1)
     let n := 2 ^ q.2.1
     let l := spadLoc (coreOf s.cur) a.toNat
     s.nearFree a n →
     ∃ t : State, exec q.1 s = .next t ∧ t = { s with mem := t.mem, mark := .ran } ∧
       (∀ j, j < n → memGet t.mem (l + j) = BitVec.ofNat 8 (q.2.2 / 256 ^ j)) ∧
       (∀ x, (x < l ∨ l + n ≤ x) → memGet t.mem x = memGet s.mem x)) ∧
  (∀ (s : State) (d b : BitVec 5) (o : BitVec 10) (p : Place),
     ∀ q ∈ [(Instr.stB d b o, 0, (s.sr d).toNat), (.stH d b o, 1, (s.sr d).toNat), (.stW d b o, 2, (s.sr d).toNat),
       (.stD d b o, 3, (s.sr d).toNat), (.hst d b o, 5, (s.hr d).toNat)],
     let a := s.sr b + (o.signExtend 64 <<< q.2.1)
     let n := 2 ^ q.2.1
     s.farFree .write false a n p →
     ∃ (t : State) (w : PendStore), exec q.1 s = .next t ∧ t.mark = .ran ∧ t.stores = s.stores ++ [w] ∧
       w.id = s.seq ∧ w.ctx = s.cur ∧ w.addr = a ∧ w.loc = p.loc ∧ w.size = n ∧ w.data = q.2.2 % 2 ^ (8 * n) ∧
       t.loads = s.loads ∧ (s.checks p.leaf = false →
         t = { s with stores := t.stores, seq := s.seq + 1, mark := .ran })) ∧
  (∀ (s : State) (w : PendStore), s.stores.find? (fun v => v.id == w.id) = some w → s.mayPerform w = true →
     (w.level < 3 → ∃ t : State, exec (.storePerformed w.id) s = .next t ∧
       t.stores = s.stores.filter (fun v => v.id != w.id) ++ [{ w with level := w.level + 1 }] ∧
       t = { s with stores := t.stores, raceShadow := t.raceShadow }) ∧
     (3 ≤ w.level → ∃ t : State, exec (.storePerformed w.id) s = .next t ∧ t.stores = s.stores.filter (fun v => v.id != w.id) ∧
       t = { s with stores := t.stores, raceShadow := t.raceShadow, mem := t.mem, poison := t.poison, out := t.out } ∧
       (w.loc / 2 ^ 50 ≠ 3 → t.out = s.out) ∧
       (∀ j, j < w.size → memGet t.mem (w.loc + j) = BitVec.ofNat 8 (w.data / 256 ^ j)) ∧
       (∀ x, (x < w.loc ∨ w.loc + w.size ≤ x) → memGet t.mem x = memGet s.mem x)))

/-- R81, R84, R92: an access that is not aligned to its size traps ALIGN at its address, before any other check. -/
def Obligations.MisalignedAccessTraps : Prop :=
  ∀ (s : State) (d a b : BitVec 5) (o : BitVec 10) (z : BitVec 1),
    (∀ q ∈ [(Instr.ldB d b o, 0), (.ldH d b o, 1), (.ldW d b o, 2), (.ldD d b o, 3), (.ldBu d b o, 0), (.ldHu d b o, 1),
      (.ldWu d b o, 2), (.stB d b o, 0), (.stH d b o, 1), (.stW d b o, 2), (.stD d b o, 3), (.hst d b o, 5)],
      let x := s.sr b + (o.signExtend 64 <<< q.2)
      x.toNat % 2 ^ q.2 ≠ 0 → exec q.1 s = .next (s.trapped { cause := cAlign, addr := x })) ∧
    (∀ i ∈ [Instr.aadd d a b z, .aand d a b z, .aor d a b z, .axor d a b z, .amin d a b z, .amax d a b z,
      .aminu d a b z, .amaxu d a b z, .aswap d a b z, .acas d a b z],
      (s.sr a).toNat % (if z = 0#1 then 4 else 8) ≠ 0 →
      exec i s = .next (s.trapped { cause := cAlign, addr := s.sr a }))

/-- R92: an atomic on a local address writes the result of its row to memory, no other byte, and queues the old value,
sign-extended, for its register; one on a global address joins the loads that have not returned.

Some clauses rest on choices of the model (logs 3, 24). -/
def Obligations.Atomics : Prop :=
  ∀ (s : State) (d a b : BitVec 5) (z : BitVec 1) (p : Place),
    let n := if z = 0#1 then 4 else 8
    let A := s.sr a
    let W : Nat := 2 ^ (8 * n)
    let x := (s.sr b).toNat % W
    let sg := fun (v : Nat) => (v : Int).bmod W
    ∀ q ∈ [(Instr.aadd d a b z, 0, fun old : Nat => (old + x) % W), (.aand d a b z, 1, fun old => old &&& x),
      (.aor d a b z, 2, fun old => old ||| x), (.axor d a b z, 3, fun old => old ^^^ x),
      (.amin d a b z, 4, fun old => if sg old < sg x then old else x),
      (.amax d a b z, 5, fun old => if sg old < sg x then x else old),
      (.aminu d a b z, 6, fun old => min old x), (.amaxu d a b z, 7, fun old => max old x),
      (.aswap d a b z, 8, fun _ => x),
      (.acas d a b z, 9, fun old => if old = (s.sr d).toNat % W then x else old)],
    (let l := spadLoc (coreOf s.cur) A.toNat
     let old := memRead s.mem l n
     s.nearFree A n → s.poisoned l n = false →
      ∃ m : List Host.Cell, exec q.1 s = .next { s.wrote d (BitVec.ofInt 64 (sg old)) 5 with mem := m } ∧
        (∀ j, j < n → memGet m (l + j) = BitVec.ofNat 8 (q.2.2 old / 256 ^ j)) ∧
        (∀ y, (y < l ∨ l + n ≤ y) → memGet m y = memGet s.mem y)) ∧
    (s.farFree .write true A n p → (p.loc / 2 ^ 50 = 2 → q.2.1 = 0 ∨ q.2.1 = 8 ∨ q.2.1 = 9) →
      ∃ t : State, exec q.1 s = .next t ∧ t.mark = .ran ∧
        t.loads = s.loads ++ [⟨s.seq, s.cur, .scalar, d, .atomic q.2.1 p.loc n (s.sr b) (s.sr d), A, s.time, false,
          s.noteOf s.cur p, s.tick⟩] ∧
        t.me.regs = s.me.regs ∧ (d ≠ 0#5 → t.me.busy .scalar d = true) ∧
        (s.checks p.leaf = false → t.mem = s.mem))

/-- R17, R84, R85: HLD loads 32 bytes into a handle register, reserved bits as 0, with bit 240 raised where the record that a
nonzero TREC names is dropped, after its context's earlier accesses to those bytes; HDROP enters PRODUCER and the DROPPED bit of a tensor record as one store of 9 bytes.

Some clauses rest on choices of the model (log 24). -/
def Obligations.HandleLoadAndDrop : Prop :=
  (∀ (s : State) (d b : BitVec 5) (o : BitVec 10) (v : Handle) (k : Option (Nat × BitVec 512)),
    let a := s.sr b + (o.signExtend 64 <<< 5)
    let l := spadLoc (coreOf s.cur) a.toNat
    let raw := BitVec.ofNat 256 (s.view s.cur s.seq l 32)
    s.me.boundBy d = none → s.nearFree a 32 → s.olderLoad s.cur s.seq l 32 = false → s.poisoned l 32 = false →
    s.hldValue raw = .ok (v, k) →
    v.extractLsb' 253 3 = 0#3 ∧ v.extractLsb' 245 3 = 0#3 ∧
    (∀ n, n < 245 → n ≠ 240 → v.getLsbD n = raw.getLsbD n) ∧ (∀ n, 248 ≤ n → n < 253 → v.getLsbD n = raw.getLsbD n) ∧
    (hTrec raw = 0 → v.getLsbD 240 = raw.getLsbD 240) ∧
    (∀ loc r, hTrec raw ≠ 0 → s.recordAt s.cur (s.tensorAddr s.cur (hTrec raw)) = .ok (loc, r) →
      v.getLsbD 240 = (raw.getLsbD 240 || r.getLsbD 384)) ∧
    ∃ t : State, exec (.hld d b o) s = .next t ∧ t = { s with ctxs := t.ctxs, cores := t.cores, mark := .ran } ∧
      (k = none → t.cores = s.cores) ∧ (∀ c, c ≠ s.cur → t.ctx c = s.ctx c) ∧
      t.me = { s.me with shadow := s.me.shadow ++ [⟨.handle, d, v, 6⟩] }) ∧
  (∀ (s : State) (d b : BitVec 5) (o : BitVec 10) (p : Place) (v : Handle) (k : Option (Nat × BitVec 512)),
    let a := s.sr b + (o.signExtend 64 <<< 5)
    s.me.boundBy d = none → s.farFree .read false a 32 p → s.olderLoad s.cur s.seq p.loc 32 = false →
    (s.poisoned p.loc 32 = false → s.hldValue (BitVec.ofNat 256 (s.view s.cur s.seq p.loc 32)) = .ok (v, k)) →
    (s.poisoned p.loc 32 = true → v = 0 ∧ k = none) →
    ∃ t : State, exec (.hld d b o) s = .next t ∧ t.mark = .ran ∧ t.me.busy .handle d = true ∧ t.me.hregs = s.me.hregs ∧
      t.loads = s.loads ++ [⟨s.seq, s.cur, .handle, d, .handle v p.loc, a, s.time, s.poisoned p.loc 32, none, s.tick⟩] ∧
      (k = none → t.cores = s.cores) ∧ (∀ c, c ≠ s.cur → t.ctx c = s.ctx c) ∧
      t.me = { s.me with shadow := t.me.shadow, busyH := t.me.busyH } ∧
      t.me.shadow = s.me.shadow.filter (fun w => !(w.file == .handle && w.reg == d)) ∧
      (∀ r, r ≠ d → t.me.busy .handle r = s.me.busy .handle r) ∧
      (s.checks p.leaf = false → t.mem = s.mem)) ∧
  (∀ (s : State) (d b : BitVec 5) (p : Place),
    let n := (s.sr d).toNat
    let l := s.sr b
    isLocal l = false → l.toNat % 64 = 0 → 1 ≤ n → n ≤ s.effField 8 (s.polderOf s.cur) 50 2 →
    s.globalAt (s.tableAgent s.cur) .write (s.tensorAddr s.cur n) = .ok p →
    s.raceTrap s.cur { p with loc := p.loc + 40 } (s.tensorAddr s.cur n + 40#64) true false = .ok () →
    ∃ (t : State) (w : PendStore), exec (.hdrop d b) s = .next t ∧
      t = { s.raceNote s.cur { p with loc := p.loc + 40 } (s.tensorAddr s.cur n + 40#64) true false with
        stores := s.stores ++ [w], seq := s.seq + 1, mark := .ran } ∧
      (s.checks p.leaf = false → t = { s with stores := s.stores ++ [w], seq := s.seq + 1, mark := .ran }) ∧
      w.loc = p.loc + 40 ∧ w.size = 9 ∧ w.data % 2 ^ 64 = l.toNat ∧
      w.data / 2 ^ 64 = s.view s.cur s.seq (p.loc + 48) 1 ||| 1)

/-! Binding, locks and fences (spec 03 R93 to R96; spec 08 R254). -/

/-- R254: the table after a BIND keeps its rows in their places, holds the new entry, and binds every byte outside the new
region to the same objects as before; no other entry shares a byte with the new one.

R93, R254: BIND enters the region of a plain handle, its object and the binder into the bind table: its rows then hold the
new table, and the two BIND bytes of a gauge that is the object hold the number of the new entry. It changes no other byte and
nothing but memory; a table that cannot hold the result traps PROT and stays as it is, and an empty handle does nothing.

Some clauses rest on choices of the model (logs 12, 33). -/
def Obligations.BindInstruction : Prop :=
  (∀ (e : BindEntry) (rows after : List (Nat × Option BindEntry)), e.lo.toNat ≤ e.hi.toNat →
     bindResult e rows = some after →
     after.map (·.1) = rows.map (·.1) ∧
     (∃ r ∈ after, r.2 = some e) ∧
     (∀ r ∈ after, ∀ x, r.2 = some x → x = e ∨ regionsMeet x e = false) ∧
     (∀ (y obj : Word) (binder : Nat), (y.toNat < e.lo.toNat ∨ e.hi.toNat < y.toNat) →
       ((∃ r ∈ after, ∃ x, r.2 = some x ∧ x.obj = obj ∧ x.binder = binder ∧ x.lo.toNat ≤ y.toNat ∧ y.toNat ≤ x.hi.toNat) ↔
        (∃ r ∈ rows, ∃ x, r.2 = some x ∧ x.obj = obj ∧ x.binder = binder ∧ x.lo.toNat ≤ y.toNat ∧ y.toNat ≤ x.hi.toNat)))) ∧
  (∀ (s : State) (a b : BitVec 5) (lay : Option (Layout × Nat × BitVec 512)) (rows : List (Nat × Option BindEntry)),
     let h := s.hr b
     let n := spanOf h (lay.map (·.1))
     let e : BindEntry := ⟨s.sr a, hBase h + BitVec.ofNat 64 (n - 1), hBase h, s.agent s.cur⟩
     let tab := s.bindTable s.cur
     let gauge := spadLoc (clusterCore (coreOf s.cur) (ccoreOf (s.sr a))) (s.sr a).toNat
     let g := memRead s.mem gauge 16
     let isGauge := isLocal (s.sr a) = true ∧ localOk (s.sr a) = true ∧ (s.sr a).toNat % 16 = 0 ∧ bitsOf g 125 112 = 0 ∧
       1 ≤ g % 2 ^ 32 ∧ g % 2 ^ 32 < 2 ^ 30 ∧ g.testBit 127 = true
     let mayBe := isLocal (s.sr a) = true ∧ (s.sr a).toNat % 16 = 0 ∧ bitsOf g 125 112 = 0
     checkHandle 31#5 [kPlain] h = .ok () →
     (emptyHandle h = true → exec (.bind a b) s = .next { s with mark := .ran }) ∧
     (emptyHandle h = false → s.layoutFor s.cur 31#5 h = .ok lay → spanFits (hBase h) n = true →
       s.bindEntries (s.tableAgent s.cur) tab.1 tab.2 = .ok rows →
       (bindResult e rows = none → exec (.bind a b) s = .next (s.trapped { cause := cProt })) ∧
       (∀ after, bindResult e rows = some after → s.bindWrites (s.tableAgent s.cur) tab.1 0 rows after = .ok () →
         ∃ t : State, exec (.bind a b) s = .next t ∧ t = { s with mem := t.mem, mark := .ran } ∧
           (∀ y, (∀ r ∈ rows, y < r.1 ∨ r.1 + 32 ≤ y) → (y < gauge + 12 ∨ gauge + 14 ≤ y) →
             memGet t.mem y = memGet s.mem y) ∧
           (rows.Pairwise (fun p q => p.1 + 32 ≤ q.1 ∨ q.1 + 32 ≤ p.1) →
             (∀ r ∈ rows, r.1 + 32 ≤ gauge ∨ gauge + 16 ≤ r.1) →
             (∀ r ∈ after, bindEntry (memRead t.mem r.1 32) = r.2) ∧
             (isGauge → ∃ k r, after[k]? = some (r, some e) ∧ memRead t.mem (gauge + 12) 2 = (k + 1) % 2 ^ 16) ∧
             (¬mayBe → memRead t.mem (gauge + 12) 2 = memRead s.mem (gauge + 12) 2)))))

/-- R94, R95: ACQ of a free lock writes the context's owner value to the 8 bytes of the lock word, one that holds the lock
traps PROT, and ACQ of a lock another holds waits; REL by the owner writes 0 once the covered writes are performed and waits
until then, and by any other context traps PROT. Neither changes a register nor, but for what a race report writes, another
byte.

Some clauses rest on choices of the model (logs 3, 23, 33). -/
def Obligations.Locks : Prop :=
  ∀ (s : State) (a : BitVec 5) (c : BitVec 3) (t : Target) (v : Nat),
    s.lockAt (s.sr a) = .ok (t, v) →
    (v = s.ownerValue s.cur → exec (.acq a c) s = .next (s.trapped { cause := cProt, addr := s.sr a })) ∧
    (v ≠ s.ownerValue s.cur → exec (.rel a c) s = .next (s.trapped { cause := cProt, addr := s.sr a })) ∧
    (s.lockReady t (s.sr a) = .ok () →
      (v ≠ 0 → v ≠ s.ownerValue s.cur → exec (.acq a c) s = .next s.postponed) ∧
      (v = s.ownerValue s.cur → s.coveredDone s.cur (s.sr a) c.toNat = false → exec (.rel a c) s = .next s.postponed) ∧
      (∀ q ∈ [(Instr.acq a c, decide (v = 0), s.ownerValue s.cur),
          (.rel a c, decide (v = s.ownerValue s.cur) && s.coveredDone s.cur (s.sr a) c.toNat, 0)], q.2.1 = true →
        ∃ u : State, exec q.1 s = .next u ∧ u.mark = .ran ∧ memRead u.mem t.loc 8 = q.2.2 ∧
          (∀ k, k ≠ s.cur → u.ctx k = s.ctx k) ∧ u.me = { s.me with race := u.me.race } ∧
          u.loads = s.loads ∧ u.ops = s.ops ∧ u.colls = s.colls ∧
          u.stores.map (fun w => { w with seen := [] }) = s.stores.map (fun w => { w with seen := [] }) ∧
          ((∀ p, t = .far p → s.checks p.leaf = false) →
            ∀ y, (y < t.loc ∨ t.loc + 8 ≤ y) → memGet u.mem y = memGet s.mem y)))

/-- R96, R251: each fence goes on exactly when its condition holds, and otherwise waits: no load or atomic of the context
outstanding; every store it made or has seen performed at the scope, its atomics returned and its engine work done; or both.
One that goes on changes only what the race detector holds of the context, the record cache of the core (LFENCE) or the
fetch buffers of the core (IFENCE); an acquiring one has observed every store that the context sees performed at its scope
(log 23).

R111, R337: EDRAIN joins the cube's operations; EFENCE goes on once every operation the context issued has completed,
iterations of a schedule apart, and waits until then; it takes the oldest fault in flight of a collective.

Some clauses rest on choices of the model (logs 13, 22, 23, 33). -/
def Obligations.FencesAndDrains : Prop :=
  (∀ (s : State) (c : BitVec 3),
     let returned := ∀ l ∈ s.loads, l.ctx ≠ s.cur
     let stored := fun (scope : Nat) => (∀ w ∈ s.stores, (w.ctx = s.cur ∨ s.cur ∈ w.seen) → scope ≤ w.level) ∧
       ∀ l ∈ s.loads, l.ctx = s.cur → l.kind.isAtomic = false
     let worked := (∀ o ∈ s.ops, o.ctx = s.cur → o.entry ≠ none ∨ o.exposed = true ∨ o.silent = true) ∧ ∀ o ∈ s.colls, o.ctx = s.cur → o.done = true
     (∀ q ∈ [(Instr.fenceAcq c, returned), (.fenceRel c, stored c.toNat ∧ worked), (.fence c, returned ∧ stored c.toNat ∧ worked)],
       (¬q.2 → exec q.1 s = .next s.postponed) ∧
       (q.2 → ∃ t : State, exec q.1 s = .next t ∧
         t = { s with ctxs := t.ctxs, stores := t.stores, intervals := s.intervals + 1, mark := .ran } ∧
         (q.1 = .fenceRel c → t.stores = s.stores) ∧
         t.stores.map (fun w => { w with seen := [] }) = s.stores.map (fun w => { w with seen := [] }) ∧
         (q.1 ≠ .fenceRel c → ∀ w ∈ t.stores, w.ctx ≠ s.cur → 1 ≤ c.toNat → c.toNat ≤ w.level → w.level ≠ 0 →
           sameInstance w.level w.ctx s.cur = true → s.cur ∈ w.seen) ∧
         (∀ k, k ≠ s.cur → t.ctx k = s.ctx k) ∧ t.me = { s.me with race := t.me.race })) ∧
     (∀ q ∈ [(Instr.lfence, 5, { s.core (coreOf s.cur) with recCache := [] }),
         (.ifence, 1, { s.core (coreOf s.cur) with fetched := [] })],
       (¬stored q.2.1 → exec q.1 s = .next s.postponed) ∧
       (stored q.2.1 → ∃ t : State, exec q.1 s = .next t ∧ t = { s with cores := t.cores, mark := .ran } ∧
         (∀ k, k ≠ coreOf s.cur → t.core k = s.core k) ∧ t.core (coreOf s.cur) = q.2.2))) ∧
  (∀ s : State,
     let worked := (∀ o ∈ s.ops, o.ctx = s.cur → o.entry ≠ none ∨ o.exposed = true ∨ o.silent = true) ∧ ∀ o ∈ s.colls, o.ctx = s.cur → o.done = true
     let waited := fun (f : EngFault) => f.engine == 5 && !(s.me.inh && f.cause == cMemberSilent)
     (∃ (t : State) (o : Op), exec .edrain s = .next t ∧ s.sentOff t 0 .edrain o ∧
       t = { s with ops := t.ops, seq := t.seq, mark := .ran }) ∧
     (s.me.faults.find? waited = none →
       (worked → exec .efence s = .next { s with mark := .ran }) ∧
       (¬worked → exec .efence s = .next s.postponed)) ∧
     (∀ f, s.me.faults.find? waited = some f → exec .efence s = .next (s.trapped
       { cause := f.cause, fcode := f.fcode, engine := 5#5, async := f.cause == cMemberSilent, coll := f.coll })))

/-! Transfers, votes, engine status and loops (spec 03 R98 to R108). -/

/-- R98, R64: a transfer records its aligned target, its delay count and whether it is taken; BRL also writes the address
after its bundle and delay bundles, with latency 1. Where a delay bundle cannot be fetched yet, the register takes a free value
and, unless another write to it is on its way, the link once the last delay bundle issues (log 4). A misaligned target traps ALIGN.

R99: JTAB takes the entry of its index, or the default entry at offset 8 where the index is not below the count, as the
target of a taken transfer; a misaligned target traps ALIGN. No register, load or operation changes and, but for what a race
report writes, no memory.

R48, R100: at the end of a bundle with no delay bundle left a taken transfer moves the PC to its target and leaves no
transfer pending, and outside a handler every loop level goes idle; one not taken leaves PC and levels as they are.

Some clauses rest on choices of the model (logs 4, 16, 21). -/
def Obligations.ControlTransfers : Prop :=
  (∀ (s : State) (d a b : BitVec 5) (k : BitVec 2),
     let A := s.sr a
     let gone := fun (taken : Bool) => s.ran (fun x => { x with xfer := some ⟨A, k.toNat, taken, none⟩ })
     let linked := fun (later : Option (BitVec 5)) (v : Word) =>
       s.ran (fun x => ({ x with xfer := some ⟨A, k.toNat, true, later⟩ }).putS d v 1)
     (A.toNat % 4 = 0 →
       exec (.br a b k) s = .next (gone (decide (s.sr b ≠ 0#64))) ∧
       exec (.brZ a b k) s = .next (gone (decide (s.sr b = 0#64))) ∧
       exec (.jr a k) s = .next (gone true) ∧
       (∀ l, s.afterBundles s.cur (k.toNat + 1) s.me.pc = .ok l → exec (.brl d a k) s = .next (linked none l)) ∧
       (∀ e, s.afterBundles s.cur (k.toNat + 1) s.me.pc = .error e →
         ∃ v, exec (.brl d a k) s = .next (linked
           (if s.me.shadow.any (fun w => w.file == .scalar && w.reg == d) then none else some d) v))) ∧
     (∀ (x y : Ctx) (p : Parsed) (t : Word), d ≠ 0#5 → x.xfer = some ⟨t, 1, true, some d⟩ →
       ¬(d ∈ p.on.flatMap scalarWrites) → vget (y.linkNow x p).regs d = x.pc + BitVec.ofNat 64 p.size) ∧
     (A.toNat % 4 ≠ 0 → ∀ i ∈ [Instr.br a b k, .brZ a b k, .brl d a k, .jr a k],
       exec i s = .next (s.trapped { cause := cAlign, addr := A }))) ∧
  (∀ (s : State) (a b : BitVec 5) (k : BitVec 2) (count target : Word),
     let at_ := if (s.sr b).toNat < count.toNat then s.sr a + 16#64 + 8#64 * s.sr b else s.sr a + 8#64
     s.tableRead (s.sr a) = .ok count → s.tableRead at_ = .ok target →
     (target.toNat % 4 ≠ 0 → exec (.jtab a b k) s = .next (s.trapped { cause := cAlign, addr := target })) ∧
     (target.toNat % 4 = 0 →
       (isLocal (s.sr a) = true → isLocal at_ = true →
         exec (.jtab a b k) s = .next (s.ran (fun x => { x with xfer := some ⟨target, k.toNat, true, none⟩ }))) ∧
       ∃ t : State, exec (.jtab a b k) s = .next t ∧ t.mark = .ran ∧ (∀ c, c ≠ s.cur → t.ctx c = s.ctx c) ∧
         t.me = { s.me with xfer := some ⟨target, k.toNat, true, none⟩ } ∧ t.loads = s.loads ∧ t.ops = s.ops ∧
         (s.part.race = false → t.mem = s.mem))) ∧
  (∀ (x : Ctx) (t : Word) (link : Option (BitVec 5)), x.after = none →
     (x.xfer = some ⟨t, 0, true, link⟩ →
       (x.finishBundle.pc = t ∧ x.finishBundle.xfer = none ∧ x.finishBundle.regs = x.regs ∧
         ∀ l, l < 6 → (x.finishBundle.loop l).active = (x.inh && (x.loop l).active) ∧
           { x.finishBundle.loop l with active := (x.loop l).active, code := (x.loop l).code } = x.loop l)) ∧
     (∀ n, x.xfer = some ⟨t, n + 1, true, link⟩ → x.edges = [] → x.finishBundle = x) ∧
     (x.xfer = some ⟨t, 0, false, link⟩ → x.edges = [] → x.finishBundle = { x with xfer := none }))

/-- R65, R101: the function codes of major 0x1D. A vote writes 1 where any, or all, of the 1,024 bits of its predicate are set
and 0 otherwise, with latency 2; it waits for the earlier vector operations of the context that write the predicate.

R102: ESTAT writes, with latency 2, the operations of the context on an engine that have ended, those in flight (collectives
for engine 5; iterations that a schedule replays are none, log 24, nor is the drain slot of a CFSEL), and the oldest unconsumed fault of the engine.

Some clauses rest on choices of the model (log 30). -/
def Obligations.VotesAndStatus : Prop :=
  (∀ (s : State) (d p : BitVec 5), p.toNat < 8 →
     let bits := s.me.pred p.toNat
     let pending := ∃ o ∈ s.ops, o.ctx = s.cur ∧ o.engine = 1 ∧ predWritten o.instr = some p
     (¬pending →
       (∃ v, exec (.vany d p) s = .next (s.wrote d v 2) ∧ v = if bits = 0#1024 then 0#64 else 1#64) ∧
       (∃ v, exec (.vall d p) s = .next (s.wrote d v 2) ∧ v = if bits = BitVec.allOnes 1024 then 1#64 else 0#64)) ∧
     (pending → exec (.vany d p) s = .next s.postponed ∧ exec (.vall d p) s = .next s.postponed) ∧
     ∀ w : BitVec 32, fld w 22 6 = 0x1D#6 → let a := fld w 12 5
       (fld w 0 7 = 0#7 → fld w 7 5 = 0#5 → a.toNat < 8 → decode w = .ok (.vany (fld w 17 5) a)) ∧
       (fld w 0 7 = 1#7 → fld w 7 5 = 0#5 → a.toNat < 8 → decode w = .ok (.vall (fld w 17 5) a)) ∧
       (fld w 0 7 = 2#7 → fld w 7 5 = 0#5 → a.toNat < 6 → decode w = .ok (.estat (fld w 17 5) a)) ∧
       ((2 < (fld w 0 7).toNat ∨ fld w 7 5 ≠ 0#5 ∨ 8 ≤ a.toNat) → illegalOp w)) ∧
  (∀ (s : State) (d n : BitVec 5), n.toNat < 6 →
     let fault := s.me.faults.find? (fun f => f.engine == n.toNat)
     let flying := (s.ops.filter (fun o => o.ctx == s.cur && o.engine == n.toNat && o.entry == none && !o.silent)).length +
       (if n = 5#5 then (s.colls.filter (fun o => o.ctx == s.cur && !o.done)).length else 0)
     ∃ v : Word, exec (.estat d n) s = .next (s.wrote d v 2) ∧
       v.toNat / 2 ^ 32 = s.me.doneCnt.toList.getD n.toNat 0 % 2 ^ 32 ∧
       v.toNat / 2 ^ 16 % 2 ^ 16 = min flying 65535 ∧
       v.toNat / 2 ^ 8 % 2 ^ 8 = ((fault.map (fun f => f.fcode.toNat)).getD 0) ∧
       v.toNat % 2 ^ 8 = (if flying = 0 then 0 else 1) + (if flying = 0 ∧ fault = none then 2 else 0) +
         (if fault = none then 0 else 4))

/-- R104, R105, R107: the loop words set up, start, read and end a level; LSET and LSTR of an active level trap BUNDLE_FORM, and
so does LBODY of a level with itself or a higher level active, or whose body would outlast that of an active lower level.
LEXIT leaves for the end of its bundle that its level and every higher active one end, that execution goes on after the body,
and, outside of a handler, that the iterations of enclosing bodies that end there end, innermost first.

R106, R107: at the end of an iteration that is not the last, INDEX rises by 1, each bound register other than s0 rises by its
stride and the PC returns to the body's start; at the end of the last the level goes idle and execution continues. A level that
LEXIT ends goes idle with no advance of its bindings, and execution continues after its body.

Some clauses rest on choices of the model (logs 22, 66). -/
def Obligations.Loops : Prop :=
  (∀ (s : State) (l : BitVec 3) (a d r : BitVec 5) (n : BitVec 8), l.toNat < 6 →
     let k := l.toNat
     let p := s.me.loop k
     let only := fun (i : Instr) (q : Loop) => ∃ t : State, exec i s = .next t ∧ t.mark = .ran ∧ s.onlyMe t ∧
       t.me = { s.me with loops := t.me.loops } ∧ t.me.loop k = q ∧ ∀ j, j < 6 → j ≠ k → t.me.loop j = s.me.loop j
     (p.active = false →
       only (.lset l a) { p with init := (s.sr a).setWidth 32 } ∧
       only (.lstr l 0#1 r a) { p with reg0 := r, stride0 := s.sr a } ∧
       only (.lstr l 1#1 r a) { p with reg1 := r, stride1 := s.sr a } ∧
       exec (.lexit l) s = .next { s with mark := .ran }) ∧
     (p.active = true → ∀ i ∈ [Instr.lset l a, .lstr l 0#1 r a, .lstr l 1#1 r a],
       exec i s = .next (s.trapped { cause := cBundleForm })) ∧
     exec (.lidx l d) s = .next (s.wrote d (BitVec.ofNat 64 p.index.toNat) 1) ∧
     let bundles := fun (j : Nat) => (s.me.loop j).len.toNat + 1
     let ends := fun (stop : Word) (j : Nat) => (s.me.loop j).active &&
       match s.afterBundles s.cur (bundles j) (s.me.loop j).start with
       | .ok e => e == stop
       | .error _ => false
     let last := fun (j : Nat) => !decide ((s.me.loop j).index.toNat + 1 < (s.me.loop j).init.toNat)
     ((∃ j, k ≤ j ∧ j < 6 ∧ (s.me.loop j).active = true) →
       exec (.lbody l n) s = .next (s.trapped { cause := cBundleForm })) ∧
     ((∃ j i, j < k ∧ (s.me.loop j).active = true ∧ s.placeIn s.cur j s.me.pc = some i ∧ bundles j ≤ i + (n.toNat + 1)) →
       exec (.lbody l n) s = .next (s.trapped { cause := cBundleForm })) ∧
     (∀ start, (∀ j, k ≤ j → j < 6 → (s.me.loop j).active = false) →
       (∀ j, j < k → (s.me.loop j).active = true →
         ∃ i, s.placeIn s.cur j s.me.pc = some i ∧ i + (n.toNat + 1) < bundles j) →
       s.afterBundles s.cur 1 s.me.pc = .ok start →
       (p.init ≠ 0#32 → only (.lbody l n) { p with active := true, index := 0#32, start := start, len := n, code := [] }) ∧
       (∀ stop, p.init = 0#32 → s.afterBundles s.cur (n.toNat + 1) start = .ok stop →
         exec (.lbody l n) s = .next (s.ran (fun x => { x with edges := [.goto stop] })))) ∧
     (∀ stop, p.active = true → s.afterBundles s.cur (p.len.toNat + 1) p.start = .ok stop →
       let enclosing := (List.range k).reverse.filter (ends stop)
       exec (.lexit l) s = .next (s.ran (fun x =>
         { x with edges := ((List.range 6).filter (fun j => decide (k ≤ j) && (x.loop j).active)).map LoopEdge.finish ++
             [.goto stop] ++ (if x.inh then [] else (enclosing.takeWhile last).map LoopEdge.finish ++
               ((enclosing.dropWhile last).head?.map LoopEdge.advance).toList) })))) ∧
  (∀ (s : State) (c l : Nat), l < 6 →
     let x := s.ctx c
     let p := x.loop l
     x.owed = 0 → x.xfer = none → x.after = none → x.preempt = .none →
     (x.edges = [.advance l] →
       ∃ y : Ctx, exec (.loopIterationEnd c) s = .next (s.setCtx c y) ∧ y.pc = p.start ∧ y.edges = [] ∧
         y.loop l = { p with index := p.index + 1#32 } ∧ (∀ j, j < 6 → j ≠ l → y.loop j = x.loop j) ∧
         (∀ r, vget y.regs r = vget x.regs r + (if r ≠ 0#5 ∧ r = p.reg0 then p.stride0 else 0#64) +
           (if r ≠ 0#5 ∧ r = p.reg1 then p.stride1 else 0#64))) ∧
     (x.edges = [.finish l] →
       ∃ y : Ctx, exec (.loopIterationEnd c) s = .next (s.setCtx c y) ∧ y = { x with edges := [], loops := y.loops } ∧
         y.loop l = { p with active := false, code := [] } ∧ ∀ j, j < 6 → j ≠ l → y.loop j = x.loop j) ∧
     (∀ stop, x.edges = [.finish l, .goto stop] →
       ∃ y : Ctx, exec (.loopIterationEnd c) s = .next (s.setCtx c y) ∧
         y = { x with edges := [], loops := y.loops, pc := stop } ∧
         y.loop l = { p with active := false, code := [] } ∧ ∀ j, j < 6 → j ≠ l → y.loop j = x.loop j))

/-! System words, traps and their return (spec 03 R109 to R115; spec 09 R290 to R293). -/

/-- R54, R112 to R114, R297: NOP and the loop-flag prefix do nothing; STALL owes its stall steps; TRAP and BRK leave their
trap for the end of the bundle; YIELD gives up the slot; in supervisor mode IDLE sleeps.

R113, R283, R337: BRK 0 waits for the collectives the context has in flight (that it waits for them is read from R283, log 45);
BREAK with tag 0 ends the task and takes no handler.

Some clauses rest on choices of the model (logs 16, 45). -/
def Obligations.SystemAndBreakWords : Prop :=
  (∀ (s : State) (n : BitVec 12) (l : BitVec 3) (f : BitVec 10),
     exec .nop s = .next { s with mark := .ran } ∧
     exec (.lfl l f) s = .next { s with mark := .ran } ∧
     exec (.stall n) s = .next (s.ran (fun x => { x with owed := x.owed + n.toNat })) ∧
     exec (.trap n) s = .next (s.ran (fun x => { x with after := some { cause := cSyscall, info := n.setWidth 64 } })) ∧
     (n ≠ 0#12 → exec (.brk n) s =
       .next (s.ran (fun x => { x with after := some { cause := cBreak, info := n.setWidth 64 } }))) ∧
     exec .yield s = .next (s.ran (fun x => { x with yielded := true })) ∧
     (s.me.mode = .supervisor → exec .idle s = .next (s.ran (fun x => { x with asleep := true })))) ∧
  (∀ s : State, (∀ f ∈ s.me.faults, f.engine ≠ 5) →
     ((∃ o ∈ s.colls, o.ctx = s.cur ∧ o.done = false) → exec (.brk 0#12) s = .next s.postponed) ∧
     ((∀ o ∈ s.colls, o.ctx = s.cur → o.done = true) → exec (.brk 0#12) s =
       .next (s.ran (fun x => { x with after := some { cause := cBreak } }))) ∧
     (s.me.inh = false → s.me.ending = .none →
       s.takeTrap s.cur { cause := cBreak } = s.modMe (fun x => { x with ending := .finished, preempt := .none })))

/-- R67: each privileged word, and CSRW of a register that only supervisor mode may write, traps PRIV in user mode.

R115: TLBI waits while an access translated under what it names is still to be performed (a page, as large as its leaf, of the
issuing address space; an address space; all) and then drops the translations that the model holds, which are those of open joins
(log 13): each is translated afresh or, unmapped, holds none; nothing else changes. An address space above 4,095 traps
ILLEGAL_OP. -/
def Obligations.PrivilegedWords : Prop :=
  (∀ (s : State) (x : BitVec 5) (k : BitVec 2) (n : BitVec 12), s.me.mode = .user →
     (∀ i ∈ [Instr.rft, .idle, .tlbi x k, .stest x, .ststat x, .cmapw x],
       exec i s = .next (s.trapped { cause := cPriv })) ∧
     (csrOk n.toNat = true → csrSupervisor n.toNat = true → exec (.csrw x n) s = .next (s.trapped { cause := cPriv }))) ∧
  (∀ (s : State) (x : BitVec 5), s.me.mode = .supervisor →
     let a := s.sr x
     (4096 ≤ a.toNat → exec (.tlbi x 1#2) s = .next (s.trapped { cause := cIllegalOp })) ∧
     let shift := match s.walk (s.asidOf s.cur) a with
       | some l => l.shift
       | none => 32
     let underway := fun (asid : Nat) (page : Nat) =>
       let hit := fun (v : Word) => v.toNat / 2 ^ page = a.toNat / 2 ^ page
       (∃ l ∈ s.loads, s.asidOf l.ctx = asid ∧ hit l.addr) ∨ (∃ w ∈ s.stores, s.asidOf w.ctx = asid ∧ hit w.addr) ∨
       (∃ o ∈ s.ops, s.asidOf o.ctx = asid ∧ ∃ p ∈ o.args, 
         ((∃ g ∈ p.2.pages, hit (BitVec.ofNat 64 (g.1 * 2 ^ 18))) ∨
           (hKind p.2.h = kRing ∧ isLocal (hBase p.2.h) = false ∧ hit (hBase p.2.h)))) ∨
       (∃ o ∈ s.colls, s.asidOf o.ctx = asid ∧ o.done = false)
     let any := s.loads ≠ [] ∨ s.stores ≠ [] ∨ s.ops ≠ [] ∨ ∃ o ∈ s.colls, o.done = false
     ∀ q ∈ [(0#2, underway (s.asidOf s.cur) shift), (1#2, underway a.toNat 64), (2#2, any)], (q.1 = 1#2 → a.toNat < 4096) →
       (q.2 → exec (.tlbi x q.1) s = .next s.postponed) ∧
       (¬q.2 → ∃ t : State, exec (.tlbi x q.1) s = .next t ∧ t = { s with ctxs := t.ctxs, saved := t.saved, mark := .ran } ∧
         (∀ c, t.ctx c = { s.ctx c with join := (t.ctx c).join } ∧
           ((∀ j, (s.ctx c).join = some j → j.shut ≠ none) → t.ctx c = s.ctx c) ∧
           ∀ j, (s.ctx c).join = some j → j.shut = none →
             ∃ l, (t.ctx c).join = some { j with lines := l } ∧
               ((∃ e, s.joinLines (s.imageAgent (s.ctx c)) j.record = .error e) → l = []) ∧
               ∀ m, s.joinLines (s.imageAgent (s.ctx c)) j.record = .ok m → l = m)))

/-- R36, R291, R293: a trap taken outside a handler saves the cause, the PC, the pending transfer, the owed stall steps and
the mode, sets aside the writes on their way and the live transients, sets INH, and enters supervisor mode at the polder's
handler; registers and memory stay.

R291, R298: an asynchronous trap that meets INH stays pending; any other trap under INH, or without a handler, stops the fault
domain of the context's launch, or fails the launch alone where it recomputes a tensor.

R223, R291, R296, R298, R373 to R375: what a fault-domain stop does: the launches of the domain that have a running task, and
the producers of the domain, fail. Their running tasks end, their saved groups are gone, their queue entries show STATE 4 and the
end time, and the queues' messages leave; DEV.FDSTAT holds the domain's bit and vector 3 is raised. No other launch, task,
saved group or entry changes.

Some clauses rest on choices of the model (logs 16, 17, 56). -/
def Obligations.TrapsTaken : Prop :=
  (∀ (s : State) (c : Nat) (t : Trap), t.cause ≠ cRecompute → t.coll = 0#32 → ¬(t.cause = cBreak ∧ t.info = 0#64) →
     s.handlerOf c ≠ 0#64 → (s.ctx c).inh = false →
     let x := s.ctx c
     let y := (s.takeTrap c t).ctx c
     y.pc = s.handlerOf c ∧ y.mode = .supervisor ∧ y.inh = true ∧ y.trp.last = t ∧ y.trp.pc = x.pc ∧
     y.trp.pmode = x.mode ∧ y.trp.stalls = x.owed ∧ y.trp.xfer = (x.xfer.map (·.taken)).getD false ∧
     y.trp.tgt = (x.xfer.map (·.target)).getD 0#64 ∧ y.trp.dleft = BitVec.ofNat 2 ((x.xfer.map (·.left)).getD 0) ∧ y.owed = 0 ∧ y.xfer = none ∧ y.shadow = [] ∧ y.bypass = [] ∧
     y.held.map (·.shadow) = some x.shadow ∧ y.held.map (·.bypass) = some (x.bypass.filter (fun b => decide (b.left ≤ 3))) ∧
     y.asleep = false ∧ y.regs = x.regs ∧ y.hregs = x.hregs ∧ y.loops = x.loops ∧
     y.trp.scrA = x.trp.scrA ∧ y.trp.scrB = x.trp.scrB ∧
     (s.takeTrap c t).mem = s.mem ∧ ∀ k, k ≠ c → (s.takeTrap c t).ctx k = s.ctx k) ∧
  (∀ (s : State) (c : Nat) (t : Trap), t.cause ≠ cRecompute → t.coll = 0#32 →
     ((s.ctx c).inh = true → t.async = true →
       s.takeTrap c t = s.setCtx c { s.ctx c with asyncs := (s.ctx c).asyncs ++ [t] }) ∧
     (∀ l, s.launchOf c = some l → ¬(t.async = true ∧ (s.ctx c).inh = true) →
       ((s.ctx c).inh = true ∨ (s.handlerOf c = 0#64 ∧ ¬(t.cause = cBreak ∧ t.info = 0#64))) →
       s.takeTrap c t = (if l.consumer = none then s.stopDomain l.fdom else s.failLaunch l))) ∧
  (∀ (s : State) (d : Nat), (s.launches.map (·.id)).Nodup → (s.ctxs.map (·.1)).Nodup →
     let t := s.stopDomain d
     let fails := fun (l : Launch) => l ∈ s.launches ∧ l.fdom = d ∧ l.failed = false ∧
       (l.consumer ≠ none ∨ ∃ c u, (s.ctx c).task = some u ∧ u.launch = l.id)
     t.launches.map (·.id) = s.launches.map (·.id) ∧
     (∀ l, fails l → { l with failed := true } ∈ t.launches) ∧ (∀ l ∈ s.launches, ¬fails l → l ∈ t.launches) ∧
     (∀ c, (t.ctx c).task = (s.ctx c).task) ∧
     (∀ c u l, (s.ctx c).task = some u → fails l → l.id = u.launch →
       t.ctx c = ((s.ctx c).awake s.cycles).endBy .stopped ∧ (t.ctx c).ending ≠ .none) ∧
     (∀ c, (∀ u l, (s.ctx c).task = some u → fails l → l.id ≠ u.launch) → t.ctx c = s.ctx c) ∧
     (∀ g, g ∈ t.saved ↔ g ∈ s.saved ∧ ∀ l, fails l → l.id ≠ g.launch) ∧
     t.rontal = { s.rontal with fdstat := s.rontal.fdstat ||| (1#256 <<< d) } ∧ t.out.getLast? = some (.msix 3) ∧
     (∀ l q a, fails l → l.queue = some (q, a) → (s.queue q).ien = true → .msix (8 + q) ∈ t.out) ∧
     ((∀ g ∈ s.saved, (∃ l, fails l ∧ l.id = g.launch) → ∀ x ∈ g.ctxs, x.copies = []) →
       let entry := fun (a : Nat) => ∃ l q, fails l ∧ l.queue = some (q, a)
       (∀ a, entry a → (∀ b, entry b → b = a ∨ b + 64 ≤ a ∨ a + 64 ≤ b) →
         memRead t.mem (a + 16) 8 = 4 ∧ memRead t.mem (a + 32) 8 = s.time % 2 ^ 64 ∧ memRead t.mem (a + 40) 24 = 0) ∧
       ∀ y, (∀ a, entry a → y < a + 16 ∨ (a + 24 ≤ y ∧ y < a + 32) ∨ a + 64 ≤ y) → memGet t.mem y = memGet s.mem y))

/-- R36, R292: RFT in a handler leaves supervisor mode for the mode saved and returns to the PC saved, or, where a taken
transfer had no delay bundle left, to its target; a context that enters a handler and leaves it holds again what it held.

Some clauses rest on choices of the model (logs 17, 55, 66). -/
def Obligations.TrapReturn : Prop :=
  (∀ s : State, s.me.mode = .supervisor → s.me.inh = true →
    ∃ t : State, exec .rft s = .next t ∧ t.mark = .ran ∧ s.onlyMe t ∧ t.me.mode = s.me.trp.pmode ∧ t.me.inh = false ∧
      t.me.pc = (if s.me.trp.xfer = true ∧ s.me.trp.dleft = 0#2 then s.me.trp.tgt else s.me.trp.pc) ∧
      t.me.owed = s.me.trp.stalls ∧ t.me.regs = s.me.regs ∧ t.me.hregs = s.me.hregs) ∧
  (∀ (x : Ctx) (t : Trap) (h : Word), x.inh = false → x.held = none → x.killPoint = false → x.blocked = false →
    x.waitFrom = none → (∀ b ∈ x.bypass, b.left ≤ 3) → (∀ w, x.xfer = some w → 1 ≤ w.left ∧ w.left ≤ 3) →
    (x.enter t h).leave = { x with trp := (x.enter t h).trp }) ∧
  (∀ s : State, s.me.mode = .supervisor → s.me.inh = false → exec .rft s = .next (s.trapped { cause := cPriv }))

/-! Control and status registers, the in-field test, the core map (spec 01 R23, R24; spec 03 R112, R116 to R118; spec 14
R390, R391). -/

/-- R23, R24, R112, R232, R240, R289, R293, R300, R327, R344 to R365, R388: CSRR of an assigned number writes the register with
latency 2 and changes nothing else, each register with its fields at their places; of any other number it traps ILLEGAL_OP.

R10, R23, R24, R67, R232, R240, R289, R293, R344 to R363: CSRW stores the writable fields of the register it names and leaves
every other field and register; one that is read-only in both modes stays as it is. In user mode a register that only
supervisor mode may write traps PRIV.

Some clauses rest on choices of the model (logs 20, 66). -/
def Obligations.ControlRegisters : Prop :=
  (∀ (s : State) (x : BitVec 5) (n : BitVec 12),
     let c := s.me
     let k := coreOf s.cur
     let q := cubeOf s.cur
     let y := s.cube q
     let at_ := fun (l : List (Nat × Nat)) => BitVec.ofNat 64 ((l.map (fun p => p.1 * 2 ^ p.2)).sum)
     let one := fun (b : Bool) => if b then 1 else 0
     let reads := fun (n : BitVec 12) (v : Word) => exec (.csrr x n) s = .next (s.wrote x v 2)
     (csrOk n.toNat = true → ∃ v, reads n v) ∧
     (csrOk n.toNat = false → exec (.csrr x n) s = .next (s.trapped { cause := cIllegalOp }) ∧
       exec (.csrw x n) s = .next (s.trapped { cause := cIllegalOp })) ∧
     (∀ r ∈ [(0x000#12, at_ [(s.cur % 4, 0), (k % 96 / 4, 3), ((c.task.map (·.core)).getD (s.logical k) % 128, 8), (q, 15), (k % 4, 16)]),
       (0x001#12, c.step),
       (0x002#12, at_ [(c.shadow.length, 0), ((c.bypass.filter (fun b => decide (b.left ≤ 3))).length, 4), (c.owed, 16)]),
       (0x004#12, (c.loss[0]).setWidth 64), (0x005#12, (c.loss[1]).setWidth 64),
       (0x006#12, (c.loss[2]).setWidth 64), (0x007#12, (c.loss[3]).setWidth 64),
       (0x008#12, at_ [(one c.scbEn, 0), (one c.scbSkip, 1)]),
       (0x009#12, at_ [(c.scbReg.toNat, 0), (c.scbFile.toNat, 5), (c.scbLeft.toNat, 8)]),
       (0x00A#12, BitVec.ofNat 64 (s.rangesUsed k))], reads r.1 r.2) ∧
     (∀ r ∈ [(0x100#12, at_ [(c.trp.last.cause.toNat, 0), (one c.trp.last.async, 8), (c.trp.last.fcode.toNat, 16),
         (c.trp.last.engine.toNat, 24)]),
       (0x101#12, c.trp.pc),
       (0x102#12, at_ [((c.held.map (fun h => h.shadow.length)).getD 0, 4), ((c.held.map (fun h => h.bypass.length)).getD 0, 8),
         (c.trp.dleft.toNat, 12), (one c.trp.xfer, 14), (if c.trp.pmode = .supervisor then 1 else 0, 15), (one c.inh, 16),
         (c.trp.stalls, 32)]),
       (0x103#12, c.trp.last.addr), (0x104#12, c.trp.tgt), (0x105#12, c.trp.last.info), (0x106#12, c.trp.scrA),
       (0x107#12, c.trp.scrB)], reads r.1 r.2) ∧
     (∀ m, m < 8 → reads (BitVec.ofNat 12 (0x108 + m)) (match ((c.held.map (·.shadow)).getD [])[m]? with
       | some w => at_ [(w.left + 1, 0), (w.reg.toNat, 9), (if w.file = .handle then 1 else 0, 14), (1, 15)]
       | none => 0#64)) ∧
     (∀ m, m < 6 → reads (BitVec.ofNat 12 (0x110 + m)) (match ((c.held.map (·.bypass)).getD [])[m]? with
       | some b => at_ [(b.left, 0), (b.reg.toNat, 9), (1, 15)]
       | none => 0#64)) ∧
     (∀ r ∈ [(0x120#12, s.pdl.setWidth 64), (0x121#12, y.spwCount.setWidth 64), (0x122#12, BitVec.ofNat 64 (s.freeChunks q)),
       (0x123#12, at_ [((c.task.map (·.index)).getD 0 % 2 ^ 32, 0), (s.polderOf s.cur % 4096, 32)]),
       (0x200#12, (c.openJoin.map (·.record)).getD 0#64),
       (0x201#12, match s.joinShown with
         | none => 0#64
         | some (j, r) => at_ [(one j.kill.isSome, 8), (one j.arrived, 9), (r.state % 4, 10), (r.rule % 4, 15), (j.idx % 256, 17),
             (r.n % 512, 25), (r.q % 512, 34), (r.arrn % 512, 43)]),
       (0x300#12, at_ [((s.verOf s.cur).toNat, 0), (s.currentVer (s.polderOf s.cur), 16), ((s.pending (s.polderOf s.cur)).1, 32),
         (one (s.pending (s.polderOf s.cur)).2, 48)]),
       (0x301#12, c.verPsel.setWidth 64),
       (0x302#12, match tblFind s.pubs c.verPsel.toNat with
         | some v => at_ [(v.toNat, 0), (1, 16)]
         | none => 0#64),
       (0x303#12, c.tokSeq.setWidth 64)], reads r.1 r.2) ∧
     (∀ m, m < 4 → reads (BitVec.ofNat 12 (0x204 + m)) (match s.joinShown with
       | none => 0#64
       | some (_, r) => r.map.extractLsb' (64 * m) 64)) ∧
     (∀ r ∈ [(0x400#12, y.fcast),
       (0x401#12, at_ [(y.didtLimit.toNat, 0), (y.istep.toNat, 32), ((if y.didtLimit = 0#16 then 0
         else max 1 (y.didtLimit.toNat * 64 * 16 / (s.ceiling * y.istep.toNat))) % 2 ^ 16, 48)]),
       (0x410#12, at_ [(y.govStep % 16, 0), (s.leastStep q % 16, 4), (y.govChg.toNat, 32)]),
       (0x411#12, at_ [(y.govPlim.toNat, 0), (y.govTlim.toNat, 16)]), (0x420#12, BitVec.ofNat 64 s.time),
       (0x421#12, at_ [((s.region (regionOf k)).bubble.toNat, 0), (s.ceiling, 16), ((s.region (regionOf k)).stretch.toNat, 32)]),
       (0x430#12, s.telBase),
       (0x431#12, at_ [(s.telRidx.toNat, 0), (s.telWidx.toNat, 16), (s.telSize.toNat, 32), (s.telLost.toNat, 48)]),
       (0x440#12, if y.withdrawn = true ∨ s.part.cubes ≤ q then 0#64
         else at_ ((List.range 8).map (fun l => (y.dieOf l, 4 * l)) ++ [(y.unused, 32), (one (!y.failedDies.isEmpty), 40)])),
       (0x441#12, at_ ((List.range 8).map (fun l => ((s.liveBanks k l).length, 5 * l)) ++ [(one (s.column k).pend, 40)])),
       (0x442#12, at_ [(y.testPeriod.toNat, 0), (one y.testEn, 8), (y.testRuns.toNat, 16), (y.testAborts.toNat, 32),
         (y.testFails.toNat, 48)])], reads r.1 r.2) ∧
     (∀ r ∈ [(0x500#12, at_ [(s.rontal.rollback % 256, 0), (Config.stepping.toNat, 8),
         (if s.part.cubes = 2 then 0x4B02 else 0x4B01, 16)]),
       (0x501#12, at_ [(one (s.cubeLive 0), 0), (one (s.cubeLive 1), 1), (one (s.part.cubes == 2), 2), (one s.part.fabric, 3),
         (one s.hasTier2, 4), (one s.part.race, 5), (one s.part.cplx, 6), (if s.part.fabric then 8 * s.part.cubes else 0, 8)]),
       (0x502#12, at_ [(s.coresIn 0, 0), (s.coresIn 1, 8)]),
       (0x503#12, at_ [(256 * s.part.cubes, 0), (if s.hasTier2 then 1536 * s.part.cubes else 0, 32)]),
       (0x600#12, (s.column k).guard.setWidth 64), (0x601#12, c.wsWver.setWidth 64), (0x700#12, s.comThr.setWidth 64),
       (0x701#12, if s.part.fabric then at_ [(s.fabric.node % 256, 0), (s.rankOf % 256, 16), (s.fabric.members.length, 32)]
         else at_ [(s.fabric.node % 256, 0), (1, 32)]),
       (0x702#12, if s.part.fabric then s.fabric.lost.setWidth 64 else 0#64), (0x710#12, s.weirCeil),
       (0x711#12, if s.part.fabric then at_ [(s.fabric.seq.toNat, 0), (s.fabric.evict.toNat, 32), (s.fabric.late.toNat, 48)]
         else 0#64),
       (0x712#12, BitVec.ofNat 64 (s.fabric.request % 4096))], reads r.1 r.2) ∧
     (∀ m, 1 ≤ m → m < 16 → reads (BitVec.ofNat 12 (0x610 + m)) (y.rga.toList.getD m 0#64) ∧
       reads (BitVec.ofNat 12 (0x620 + m)) (y.rgb.toList.getD m 0#64)) ∧
     (∀ j, j < 128 → reads (BitVec.ofNat 12 (0x680 + j)) (match (s.liveBanks k (j / 16))[j % 16]? with
       | some b => BitVec.ofNat 64 (s.bankLeft (bankKey k (j / 16) b))
       | none => 9600#64))) ∧
  (∀ (s : State) (x : BitVec 5),
     let v := s.sr x
     let q := cubeOf s.cur
     let mine := fun (n : BitVec 12) (f : Ctx → Ctx) => exec (.csrw x n) s = .next (s.ran f)
     let cubes := fun (n : BitVec 12) (y : Cube) => ∃ t : State, exec (.csrw x n) s = .next t ∧
       t = { s with cubes := t.cubes, mark := .ran } ∧ t.cube q = y ∧ ∀ r, r ≠ q → t.cube r = s.cube r
     (∀ m, m < 4 → ∃ t : State, exec (.csrw x (BitVec.ofNat 12 (4 + m))) s = .next t ∧ s.onlyMe t ∧ t.mark = .ran ∧
       t.me = { s.me with loss := t.me.loss } ∧
       ∀ i : Fin 4, t.me.loss[i] = if i.val = m then v.setWidth 32 else s.me.loss[i]) ∧
     mine 0x008#12 (fun c => { c with scbEn := v.getLsbD 0, scbSkip := v.getLsbD 1 }) ∧
     mine 0x301#12 (fun c => { c with verPsel := v.setWidth 8 }) ∧
     mine 0x601#12 (fun c => { c with wsWver := v.setWidth 16 }) ∧
     (∀ n : BitVec 12, (n = 0x000#12 ∨ n = 0x002#12 ∨ n = 0x00A#12 ∨ n = 0x121#12 ∨ n = 0x122#12 ∨ n = 0x123#12 ∨
       n = 0x200#12 ∨ n = 0x201#12 ∨ (0x204#12 ≤ n ∧ n ≤ 0x207#12) ∨ n = 0x300#12 ∨ n = 0x302#12 ∨ n = 0x303#12 ∨
       n = 0x400#12 ∨ n = 0x410#12 ∨ n = 0x420#12 ∨ n = 0x421#12 ∨ n = 0x440#12 ∨ n = 0x441#12 ∨
       (0x500#12 ≤ n ∧ n ≤ 0x503#12) ∨ n = 0x600#12 ∨ (0x680#12 ≤ n ∧ n ≤ 0x6FF#12) ∨ n = 0x701#12 ∨ n = 0x702#12 ∨
       n = 0x710#12 ∨ n = 0x711#12) → exec (.csrw x n) s = .next { s with mark := .ran }) ∧
     (s.me.mode = .user → ∀ n : BitVec 12, (n = 0x001#12 ∨ n = 0x009#12 ∨ (0x100#12 ≤ n ∧ n ≤ 0x115#12) ∨ n = 0x120#12 ∨
       n = 0x401#12 ∨ n = 0x411#12 ∨ n = 0x430#12 ∨ n = 0x431#12 ∨ n = 0x442#12 ∨ (0x611#12 ≤ n ∧ n ≤ 0x61F#12) ∨
       (0x621#12 ≤ n ∧ n ≤ 0x62F#12) ∨ n = 0x700#12 ∨ n = 0x712#12) →
       exec (.csrw x n) s = .next (s.trapped { cause := cPriv })) ∧
     (s.me.mode = .supervisor →
       mine 0x001#12 (fun c => { c with step := v }) ∧
       mine 0x009#12 (fun c => { c with scbLeft := v.extractLsb' 8 8, scbFile := v.extractLsb' 5 1, scbReg := v.setWidth 5 }) ∧
       mine 0x101#12 (fun c => { c with trp := { c.trp with pc := v } }) ∧
       mine 0x102#12 (fun c => { c with trp := { c.trp with
         pmode := if v.getLsbD 15 then .supervisor else .user, xfer := v.getLsbD 14, dleft := v.extractLsb' 12 2 } }) ∧
       mine 0x104#12 (fun c => { c with trp := { c.trp with tgt := v } }) ∧
       mine 0x106#12 (fun c => { c with trp := { c.trp with scrA := v } }) ∧
       mine 0x107#12 (fun c => { c with trp := { c.trp with scrB := v } }) ∧
       (∀ n : BitVec 12, (n = 0x100#12 ∨ n = 0x103#12 ∨ n = 0x105#12 ∨ (0x108#12 ≤ n ∧ n ≤ 0x115#12)) →
         exec (.csrw x n) s = .next { s with mark := .ran }) ∧
       exec (.csrw x 0x120#12) s = .next { s with pdl := v.setWidth 32, mark := .ran } ∧
       exec (.csrw x 0x700#12) s = .next { s with comThr := v.setWidth 8, mark := .ran } ∧
       exec (.csrw x 0x430#12) s = .next { s with telBase := v &&& ~~~0x3F#64, mark := .ran } ∧
       exec (.csrw x 0x431#12) s = .next { s with telSize := v.extractLsb' 32 4, telRidx := v.setWidth 16, mark := .ran } ∧
       cubes 0x401#12 { s.cube q with didtLimit := v.setWidth 16 } ∧
       cubes 0x411#12 { s.cube q with
         govTlim := BitVec.ofNat 8 (max 60 (min 100 (v.toNat / 2 ^ 16 % 2 ^ 8)))
         govPlim := BitVec.ofNat 16 (max 1 (v.toNat % 2 ^ 16)) } ∧
       cubes 0x442#12 { s.cube q with testEn := v.getLsbD 8, testPeriod := v.setWidth 8 } ∧
       (∀ m : Fin 16, 1 ≤ m.val → ∃ a b,
         cubes (BitVec.ofNat 12 (0x610 + m.val)) { s.cube q with rga := a } ∧
         (∀ i : Fin 16, a[i] = if i = m then BitVec.ofNat 64 (v.toNat / 2 ^ 8 * 2 ^ 8) else (s.cube q).rga[i]) ∧
         cubes (BitVec.ofNat 12 (0x620 + m.val)) { s.cube q with rgb := b } ∧
         (∀ i : Fin 16, b[i] = if i = m then BitVec.ofNat 64 (v.toNat / 2 ^ 52 * 2 ^ 52 + v.toNat / 2 ^ 8 % 2 ^ 7 * 2 ^ 8 +
           v.toNat / 2 ^ 4 % 2 ^ 3 * 2 ^ 4 + (if v.toNat % 4 = 3 then 0 else v.toNat % 4)) else (s.cube q).rgb[i])) ∧
       (∃ t : State, exec (.csrw x 0x712#12) s = .next t ∧ t = { s with fabric := t.fabric, out := t.out, mark := .ran } ∧
         t.fabric.request = v.toNat % 2 ^ 12 ∧ t.fabric.members = s.fabric.members ∧ t.fabric.seq = s.fabric.seq)))

/-- R116, R117, R390: STEST starts the test of the core a logical number names, or records that it is rejected; STSTAT reads
the status with latency 2; the test runs once the core is empty, ends 200 µs later, and is dropped for a launch above its
priority. The status of the context that issued it is then 2 while the test runs, 3 or 4 as its signature passes or not, the
latter entering the error log, and 5 where it was dropped.

R118, R391: CMAPW enters a physical core under a logical number, or takes it out, and notes the change for flash; a value
outside the limits, or a physical core that the map holds under another number, traps PROT. CORE_MAP_PERSIST writes the oldest noted change to flash.

Some clauses rest on choices of the model (logs 54, 59, 66). -/
def Obligations.FieldTestsAndCoreMap : Prop :=
  (∀ (s : State) (x : BitVec 5),
     let a := (s.sr x).toNat
     let q := a / 128
     let l := a % 128
     (s.me.mode = .supervisor →
       exec (.ststat x) s = .next (s.wrote x (BitVec.ofNat 64 (s.me.test.sig.toNat * 2 ^ 32 + s.me.test.cube.toNat * 2 ^ 16 +
         s.me.test.core.toNat * 2 ^ 8 + s.me.test.state.toNat)) 2) ∧
       (256 ≤ a ∨ 95 < l → exec (.stest x) s = .next (s.trapped { cause := cProt })) ∧
       (a < 256 → l ≤ 95 →
         (∀ p, s.mapped q l = some p → q < s.part.cubes → (s.cube q).withdrawn = false → (s.cube q).fieldTest = none →
           q * 96 + p ≠ coreOf s.cur →
           ∃ t : State, exec (.stest x) s = .next t ∧ t = { s with ctxs := t.ctxs, cubes := t.cubes, mark := .ran } ∧
             t.me = { s.me with test := ⟨0#32, BitVec.ofNat 1 q, BitVec.ofNat 8 l, 1#3⟩ } ∧
             t.cube q = { s.cube q with
               fieldTest := some ⟨q * 96 + p, BitVec.ofNat 8 l, s.prioOf s.cur, none⟩ }) ∧
         ((∀ p, s.mapped q l = some p → s.part.cubes ≤ q ∨ (s.cube q).withdrawn = true ∨ (s.cube q).fieldTest ≠ none ∨
             q * 96 + p = coreOf s.cur) →
           exec (.stest x) s = .next (s.ran (fun y =>
             { y with test := ⟨0#32, BitVec.ofNat 1 q, BitVec.ofNat 8 l, 6#3⟩ }))))) ∧
     (∀ (cube : Nat) (t : FieldTest), (s.cube cube).fieldTest = some t →
       let told := fun (u : State) (st : BitVec 3) (sig : BitVec 32) => ∀ c, u.ctx c =
         if ((s.ctx c).test.state = 1#3 ∨ (s.ctx c).test.state = 2#3) ∧ (s.ctx c).test.cube.toNat = cube then
           { s.ctx c with test := { (s.ctx c).test with state := st, sig := sig } }
         else s.ctx c
       (t.running = none → s.emptyCore t.core = true →
         ∃ u : State, exec (.testDrained cube) s = .next u ∧ u.mem = s.mem ∧ told u 2#3 0#32 ∧
           u.cube cube = { s.cube cube with fieldTest := some { t with running := some s.time } }) ∧
       (∀ since, t.running = some since → since + 200000 ≤ s.time →
         ∃ (u : State) (sig : Word) (pass : Bool), exec (.testEnd cube) s = .next u ∧
           u.cube cube = { s.cube cube with fieldTest := none } ∧
           (pass = true ↔ sig = Config.expectedSignature t.core) ∧
           told u (if pass then 3#3 else 4#3) (sig.extractLsb' 32 32) ∧
           u.rontal.errCount = s.rontal.errCount + (if pass then 0 else 1)) ∧
       (t.running ≠ none → s.displaces t = true →
         ∃ u : State, exec (.testAbort cube) s = .next u ∧ u.cube cube = { s.cube cube with fieldTest := none } ∧
           told u 5#3 0#32))) ∧
  (∀ (s : State) (x : BitVec 5),
     let v := (s.sr x).toNat
     let q := v / 2 ^ 7 % 2
     let l := v % 128
     let p := v / 2 ^ 8 % 128
     (s.me.mode = .supervisor →
       (2 ^ 16 ≤ v ∨ 95 < l ∨ s.part.cubes ≤ q ∨ (v / 2 ^ 15 % 2 = 0 ∧ 95 < p) →
         exec (.cmapw x) s = .next (s.trapped { cause := cProt })) ∧
       (∀ m, m ≤ 95 → m ≠ l → v / 2 ^ 15 % 2 = 0 → s.mapped q m = some p →
         exec (.cmapw x) s = .next (s.trapped { cause := cProt })) ∧
       (v < 2 ^ 16 → l ≤ 95 → q < s.part.cubes → (v / 2 ^ 15 % 2 = 1 ∨ (p ≤ 95 ∧ ∀ m, m ≤ 95 → m ≠ l → s.mapped q m ≠ some p)) →
         ∃ t : State, exec (.cmapw x) s = .next t ∧ t.mark = .ran ∧ t.mem = s.mem ∧ t.ctxs = s.ctxs ∧
           t.mapped q l = (if v / 2 ^ 15 % 2 = 1 then none else some p) ∧
           (∀ m, m ≠ l → t.mapped q m = s.mapped q m) ∧
           t.rontal.persist = s.rontal.persist ++ [(s.time, BitVec.ofNat 16 v)])) ∧
     (∀ (at_ : Nat) (w : BitVec 16) (r : List (Nat × BitVec 16)), s.rontal.persist = (at_, w) :: r →
       ∃ t : State, exec .coreMapPersist s = .next t ∧ t = { s with rontal := t.rontal } ∧ t.rontal.persist = r ∧
         tblFind t.rontal.flashMap (w.toNat % 256) =
           some (if w.toNat / 2 ^ 15 % 2 = 1 then none else some (w.toNat / 2 ^ 8 % 128)) ∧
         ∀ k, k ≠ w.toNat % 256 → tblFind t.rontal.flashMap k = tblFind s.rontal.flashMap k))

/-! Handle words (spec 03 R86 to R91). -/

/-- R86, R88, R90: HMOV copies a handle, HOFS adds to BASE and HSET replaces one field, each with latency 1 in the handle
file; HGET reads one field, its reserved bits as 0 (R17), and HLIVE the status, each with latency 1 in the scalar file. A bound destination traps
HANDLE_FORM (R91), and HSET of word 3 with a reserved bit set traps ILLEGAL_OP.

R19, R89: HEA without a layout record answers the address of the element its four packed indices name, all ones where
they lie outside the extents, with latency 1; with a layout record it joins the loads not yet returned, with the same all ones
or with the address that the mapping of R264 gives.

Some clauses rest on choices of the model (logs 4, 66). -/
def Obligations.HandlesAndAddresses : Prop :=
  (∀ (s : State) (d a b : BitVec 5) (i : BitVec 12), (i.toNat ≤ 0x12 ∨ 0x20 ≤ i.toNat ∧ i.toNat ≤ 0x23) →
     let h := s.hr a
     let wrote := fun (v : Handle) => s.ran (fun x => { x with shadow := x.shadow ++ [⟨.handle, d, v, 1⟩] })
     let f := fieldAt i.toNat
     let plain := i ≠ 0x23#12 ∨ ((s.sr a).toNat / 2 ^ 61 = 0 ∧ (s.sr a).toNat / 2 ^ 53 % 8 = 0)
     (s.me.boundBy d = none →
       exec (.hmov d a) s = .next (wrote h) ∧
       (∃ v, exec (.hofs d a b) s = .next (wrote v) ∧ v.toNat = h.toNat / 2 ^ 64 * 2 ^ 64 + (h.toNat + (s.sr b).toNat) % 2 ^ 64) ∧
       (plain → ∃ v, exec (.hset d a i) s = .next (wrote v) ∧
         v.toNat / 2 ^ f.1 % 2 ^ f.2 = (s.sr a).toNat % 2 ^ f.2 ∧
         ∀ k, k < 256 → (k < f.1 ∨ f.1 + f.2 ≤ k) → v.getLsbD k = (s.hr d).getLsbD k)) ∧
     (s.me.boundBy d ≠ none →
       ∀ w ∈ [Instr.hmov d a, .hofs d a b] ++ (if plain then [.hset d a i] else []),
         exec w s = .next (s.trapped { cause := cEngineFault, fcode := fHandleForm })) ∧
     (¬plain → exec (.hset d a i) s = .next (s.trapped { cause := cIllegalOp })) ∧
     (∃ v, exec (.hget d a i) s = .next (s.wrote d v 1) ∧ ∀ k, k < 64 → v.getLsbD k =
       (decide (k < f.2) && !(decide (245 ≤ f.1 + k) && decide (f.1 + k < 248)) && !decide (253 ≤ f.1 + k) && h.getLsbD (f.1 + k))) ∧
     ∃ v, exec (.hlive d a) s = .next (s.wrote d v 1) ∧ v.toNat < 2 ^ 11 ∧ v.toNat / 2 ^ 4 % 2 ^ 4 = 0 ∧
       (v.getLsbD 0 = true ↔ handleOk h = true ∧ hKind h ≤ 6 ∧ handleAligned h = true) ∧
       v.getLsbD 1 = h.getLsbD 240 ∧
       (hKind h = kPlain → hLrec h = 0 → (v.getLsbD 2 = true ↔ emptyHandle h = false ∧ isLocal (hBase h) = true ∧
         localOk (hBase h) = true ∧
         s.rangeBusy (coreOf s.cur) none (spadLoc (coreOf s.cur) (hBase h).toNat) (spanOf h none) = true)) ∧
       (v.getLsbD 3 = true ↔ s.me.boundBy a ≠ none) ∧ (∀ n, s.me.boundBy a = some n → v.toNat / 2 ^ 8 = n)) ∧
  (∀ (s : State) (d a b : BitVec 5),
     let h := s.hr a
     let ix := fun (k : Nat) => (s.sr b).toNat / 2 ^ (16 * k) % 2 ^ 16
     let ins := ∀ k, k < 4 → ix k < hExt h k
     let step := fun (k : Nat) => h.toNat / 2 ^ (104 + 24 * k) % 2 ^ 24
     let awaited := fun (v : Nat) => (⟨s.seq, s.cur, .scalar, d, .value (BitVec.ofNat 256 v), 0#64, s.time, false, none, s.tick⟩ : PendLoad)
     (hLrec h = 0 → ins → ∀ bits, fmtBits (hFmt h) = some bits →
       exec (.hea d a b) s = .next (s.wrote d (BitVec.ofNat 64
         ((hBase h).toNat + ix 0 * bits / 8 + ix 1 * step 1 + ix 2 * step 2 + ix 3 * step 3)) 1)) ∧
     (hLrec h = 0 → ¬ins → exec (.hea d a b) s = .next (s.wrote d (BitVec.allOnes 64) 1)) ∧
     (hLrec h ≠ 0 → ¬ins → ∃ t : State, exec (.hea d a b) s = .next t ∧ s.awaits t d (awaited (2 ^ 64 - 1)) ∧ t.cores = s.cores) ∧
     (∀ l loc r bits, hLrec h ≠ 0 → ins → s.layoutFor s.cur 31#5 h = .ok (some (l, loc, r)) → fmtBits (hFmt h) = some bits →
       let t0 := r.toNat / 2 ^ 32 % 2 ^ 16
       let t1 := r.toNat / 2 ^ 48 % 2 ^ 16
       let e := if r.getLsbD 8 then ix 1 % t1 + t1 * (ix 0 % t0) else ix 0 % t0 + t0 * (ix 1 % t1)
       let addr := (hBase h).toNat + ix 0 / t0 * (r.toNat / 2 ^ 64 % 2 ^ 32) + ix 1 / t1 * (r.toNat / 2 ^ 96 % 2 ^ 32) +
         e * bits / 8 + ix 2 * step 2 + ix 3 * step 3
       ∃ t : State, exec (.hea d a b) s = .next t ∧ s.awaits t d (awaited (addr % 2 ^ 64)) ∧
         (t.core (coreOf s.cur)).recCache = tblSet (s.core (coreOf s.cur)).recCache loc r ∧
         ∀ k, k ≠ coreOf s.cur → t.core k = s.core k))

/-! Engine registers and streams (spec 03 R87, R110, R111; spec 07 R205, R224 to R230). -/

/-- R110, R151, R205: EWR stores the bits of an engine register that are not reserved, an illegal code as 0, and nothing in a
read-only one; no other engine register and nothing else changes. ERD reads the register with latency 2; what the read-only
ones hold (R21, R102, R181, R333). An index that names no register traps ILLEGAL_OP. -/
def Obligations.EngineRegisters : Prop :=
  ∀ (s : State) (c e i : BitVec 5),
    let v := s.sr c
    let eng := if e.toNat < 6 then e else 31#5
    let r := s.me.eng
    let reads := fun (f j : BitVec 5) (n : Nat) => exec (.erd c f j) s = .next (s.wrote c (BitVec.ofNat 64 n) 2)
    (engineReg e.toNat i.toNat = false → ∀ w ∈ [Instr.ewr c e i, .erd c e i],
      exec w s = .next (s.trapped { cause := cIllegalOp, engine := eng })) ∧
    (engineReg e.toNat i.toNat = true →
      exec (.erd c e i) s = .next (s.wrote c (s.engineRead e.toNat i.toNat) 2) ∧
      ∃ t : State, exec (.ewr c e i) s = .next t ∧ t.mark = .ran ∧ s.onlyMe t ∧ t.me = { s.me with eng := t.me.eng } ∧
        t.me.eng = { r with
          cube := t.me.eng.cube, vcfg := t.me.eng.vcfg, tcfg := t.me.eng.tcfg, ucfg := t.me.eng.ucfg, uwver := t.me.eng.uwver
          copy := { r.copy with cfg := t.me.eng.copy.cfg, crbase := t.me.eng.copy.crbase, ridx := t.me.eng.copy.ridx
                                size := t.me.eng.copy.size } } ∧
        (∀ f j, engineReg f j = true → ¬(f = e.toNat ∧ j = i.toNat) → t.engineRead f j = s.engineRead f j) ∧
        (∀ q ∈ [(0, 0, v &&& 0x1FFF3F3F#64), (0, 1, v &&& 0xFF#64), (0, 2, v &&& 3#64), (0, 3, v &&& 1#64), (0, 4, v &&& 1#64),
            (0, 5, v &&& 0xFF#64), (0, 16, v &&& 0x3FF#64), (0, 31, v &&& 0x3FF#64),
            (1, 0, if v.toNat / 16 % 4 = 3 then v &&& 7#64 else v &&& 0x37#64),
            (2, 0, if v.toNat % 4 ≤ 1 then v &&& 0x1F#64 else v &&& 0x1C#64),
            (3, 0, if v.toNat % 4 = 3 then 0#64 else v &&& 3#64), (3, 1, v &&& 0xFFFF#64),
            (4, 0, if v.toNat / 4 % 4 = 3 then v &&& 0x1FFF3#64 else v &&& 0x1FFFF#64), (4, 1, v &&& ~~~0x3F#64),
            (4, 2, (s.engineRead 4 2 &&& 0xFFFF0000FFFF0000#64) ||| (v &&& 0xF0000FFFF#64))],
          e.toNat = q.1 → i.toNat = q.2.1 → t.engineRead e.toNat i.toNat = q.2.2) ∧
        (e = 0#5 → 16 ≤ i.toNat → t.engineRead 0 i.toNat = v &&& 0x3FF#64) ∧
        ((e = 0#5 ∧ i = 6#5) ∨ (e = 4#5 ∧ 3 ≤ i.toNat) ∨ e = 5#5 → t.me = s.me)) ∧
    reads 0 6 (r.latch.lmask.toNat * 2 ^ 16 + r.latch.grp.toNat * 2 ^ 12 + r.latch.bfmt.toNat * 2 ^ 8 +
      (if r.latch.hold then 2 else 0) + (if r.latch.valid then 1 else 0)) ∧
    reads 4 2 (r.copy.lost.toNat * 2 ^ 48 + r.copy.size.toNat * 2 ^ 32 + r.copy.widx.toNat * 2 ^ 16 + r.copy.ridx.toNat) ∧
    reads 4 3 r.copy.lastid.toNat ∧ reads 4 4 r.copy.stage.toNat ∧
    reads 4 5 ((if r.copy.halt then 2 ^ 31 else 0) + r.copy.hentry.toNat * 2 ^ 16 + r.copy.fcode.toNat * 2 ^ 8 + r.copy.sched.length) ∧
    (∀ n, n < 8 → let b := s.me.binding n
      reads 4 (BitVec.ofNat 5 (8 + n)) (if b.bound then b.sched.toNat * 2 ^ 48 + b.hreg.toNat * 2 ^ 8 + 1 else 0) ∧
      reads 4 (BitVec.ofNat 5 (16 + n)) (if b.bound then b.headSeq.toNat * 2 ^ 32 + b.fillSeq.toNat else 0)) ∧
    (s.part.fabric = false → reads 5 0 0 ∧ reads 5 1 0) ∧
    (s.part.fabric = true → reads 5 0 r.collLast.toNat ∧
      let running := (s.colls.filter (fun o => o.ctx == s.cur && !o.done)).length
      ((∀ f ∈ s.me.faults, f.engine ≠ 5) → reads 5 1 running) ∧
      (∀ f ∈ s.me.faults, f.engine = 5 → (∀ g ∈ s.me.faults, g.engine = 5 → g ≠ f →
          (r.collLast - g.coll).toNat < (r.collLast - f.coll).toNat) →
        reads 5 1 (f.coll.toNat * 2 ^ 32 + f.fcode.toNat * 2 ^ 8 + running)))

/-- R87, R224: HSEQ moves a binding's HEADSEQ and its ring's HEAD to a value not behind it, and traps HANDLE_FORM otherwise.
SBIND binds a ring handle to a free binding and an entry of the schedule: the binding, HEAD, TAIL and CLAIM start at the
entry's next iteration and the handle becomes of kind stream; reads of the ring in flight pop nothing of it any more (log 66). SBIND of bit 63 ends a binding: its handle becomes a ring
again. A handle of another form traps HANDLE_FORM, and any other breach SCHED_STATE.

Some clauses rest on choices of the model (log 30). -/
def Obligations.StreamBindings : Prop :=
  ∀ (s : State) (c q b : BitVec 5),
    let v := s.sr b
    let h := s.hr c
    let n := q.toNat
    let seq : BitVec 32 := v.setWidth 32
    let fault := fun (i : Instr) (code : BitVec 8) =>
      exec i s = .next (s.trapped { cause := cEngineFault, fcode := code, engine := eCopy })
    let form := handleOk h = true ∧ hKind h = kRing ∧ isLocal (hBase h) = true ∧ hW h = false ∧ hExt h 3 = 1 ∧
      ∀ e, s.me.eng.copy.sched[v.toNat]? = some e → v.toNat < 64 →
        hFmt h = hFmt e.pat ∧ hExt e.pat 3 = 1 ∧ ∀ k, k < 3 → hExt h k = hExt e.pat k
    let free := n < 8 ∧ (s.me.binding n).bound = false ∧ v.toNat < 64 ∧ v.toNat < s.me.eng.copy.sched.length ∧
      ∀ m, m < 8 → (s.me.binding m).bound = true → (s.me.binding m).sched.toNat ≠ v.toNat
    let ready := fun (lay : Option (Layout × Nat × BitVec 512)) (loc : Nat) =>
      v ≠ 1#64 <<< 63 ∧ form ∧ (hBase h).toNat % 64 = 0 ∧ s.layoutFor s.cur eCopy h = .ok lay ∧
      s.localAt s.cur (coreOf s.cur) (hBase h) (ringSpan h (lay.map (·.1))) = .ok loc ∧ hD h = false
    (∀ m, s.me.boundBy c = some m →
      let ring := spadLoc (coreOf s.cur) (hBase h).toNat
      (seqDiff seq (s.me.binding m).headSeq < 0 →
        exec (.hseq c b) s = .next (s.trapped { cause := cEngineFault, fcode := fHandleForm })) ∧
      (0 ≤ seqDiff seq (s.me.binding m).headSeq → ∃ t : State, exec (.hseq c b) s = .next t ∧
        t = { s with ctxs := t.ctxs, mem := t.mem, mark := .ran } ∧ (∀ k, k ≠ s.cur → t.ctx k = s.ctx k) ∧
        t.me = { s.me with binds := t.me.binds } ∧ t.me.binding m = { s.me.binding m with headSeq := seq } ∧
        (∀ k, k ≠ m → t.me.binding k = s.me.binding k) ∧ memRead t.mem ring 4 = seq.toNat ∧
        (∀ a, (a < ring ∨ ring + 4 ≤ a) → memGet t.mem a = memGet s.mem a))) ∧
    (s.me.boundBy c = none → exec (.hseq c b) s = .next (s.trapped { cause := cEngineFault, fcode := fHandleForm })) ∧
    (v ≠ 1#64 <<< 63 → ¬form → fault (.sbind c q b) fHandleForm) ∧
    (∀ lay loc, ready lay loc → ¬free → fault (.sbind c q b) fSchedState) ∧
    (∀ (e : SchedEntry) (lay : Option (Layout × Nat × BitVec 512)) (loc : Nat),
      let i : BitVec 32 := BitVec.ofNat 32 e.next
      ready lay loc → free → s.me.eng.copy.sched[v.toNat]? = some e →
      (s.rangeBusy (coreOf s.cur) (some 4) loc 16 = true → exec (.sbind c q b) s = .next s.postponed) ∧
      (s.rangeBusy (coreOf s.cur) (some 4) loc 16 = false → ∃ t : State, exec (.sbind c q b) s = .next t ∧
        t = { s with ctxs := t.ctxs, ops := t.ops, mem := t.mem, mark := .ran } ∧ (∀ k, k ≠ s.cur → t.ctx k = s.ctx k) ∧
        t.ops = s.ops.map (fun o => { o with pops := o.pops.filter (fun p => p.loc != loc) }) ∧
        t.me = { s.me with binds := t.me.binds, doneCnt := t.me.doneCnt
                           shadow := s.me.shadow ++ [⟨.handle, c, hput h 204 4 kStream, 1⟩] } ∧
        t.me.binding n = ⟨i, i, v.setWidth 16, c, true⟩ ∧ (∀ m, m ≠ n → t.me.binding m = s.me.binding m) ∧
        memRead t.mem loc 4 = i.toNat ∧ memRead t.mem (loc + 4) 4 = i.toNat ∧ memRead t.mem (loc + 8) 4 = i.toNat ∧
        (∀ a, (a < loc ∨ loc + 12 ≤ a) → memGet t.mem a = memGet s.mem a))) ∧
    (v = 1#64 <<< 63 → 8 ≤ n → fault (.sbind c q b) fSchedState) ∧
    (v = 1#64 <<< 63 → n < 8 → (s.me.binding n).bound = false → ∃ t : State, exec (.sbind c q b) s = .next t ∧
      t = { s with ctxs := t.ctxs, mark := .ran } ∧ t.me = { s.me with doneCnt := t.me.doneCnt } ∧
      ∀ k, k ≠ s.cur → t.ctx k = s.ctx k) ∧
    (v = 1#64 <<< 63 → n < 8 → (s.me.binding n).bound = true →
      let k := (s.me.binding n).sched.toNat
      let hr := (s.me.binding n).hreg
      let claim := spadLoc (coreOf s.cur) (hBase (s.me.hreg hr)).toNat + 8
      ∃ t : State, exec (.sbind c q b) s = .next t ∧ t.mark = .ran ∧ t.me.binding n = Binding.reset ∧
        (∀ m, m ≠ n → t.me.binding m = s.me.binding m) ∧ (let still := s.ops.filter (fun o => !((s.iterations s.cur k).any (fun p => p.id == o.id)))
          t.ops.map (fun o => { o with pops := [] }) = still.map (fun o => { o with pops := [] })) ∧
        (∀ o ∈ t.ops, o.ctx = s.cur → ∀ p ∈ o.pops, p.binding ≠ some n) ∧
        t.me.shadow = s.me.shadow ++ [⟨.handle, hr, hput (s.me.hreg hr) 204 4 kRing, 1⟩] ∧
        (s.iterations s.cur k = [] → (∀ m, m < 8 → m ≠ n → (s.me.binding m).bound = true → (s.me.binding m).sched.toNat ≠ k) → ∀ a, (a < claim ∨ claim + 4 ≤ a) → memGet t.mem a = memGet s.mem a))

/-- R226 to R229: SSCH loads the entries of the schedule it reads, at stage 0 and not halted; SADV raises the stage, which stops
at 65,535; SRES clears the halt of the entry it names. Each is complete as it issues. A misaligned schedule traps ALIGN; a
COUNT of 0 or above 64, a live binding, and any other SRES trap SCHED_STATE.

R225, R227: an entry at its stage, bound to a stream with a free slot, whose operands may be used, issues its next iteration
and raises its count and the ring's CLAIM; an iteration that lands writes its source elements to the slot, counts into its
gauge, leaves the engine and moves FILLSEQ and the ring's TAIL past its slot.

Some clauses rest on choices of the model (logs 30, 59). -/
def Obligations.Schedules : Prop :=
  (∀ (s : State) (a : BitVec 5),
     let r := s.me.eng.copy
     let A := s.sr a
     let does := fun (i : Instr) (c : CopyRegs) => exec i s =
       .next { (s.modMe (fun x => { x with eng := { x.eng with copy := c } })).countDone s.cur 4 with mark := .ran }
     let fault := fun (i : Instr) => exec i s = .next (s.trapped { cause := cEngineFault, fcode := fSchedState, engine := eCopy })
     let reads := fun (k line : Nat) => let x := A + BitVec.ofNat 64 (64 * k)
       (isLocal x = true ∧ ∃ l, s.localAt s.cur (coreOf s.cur) x 64 = .ok l ∧ s.poisoned l 64 = false ∧ line = memRead s.mem l 64) ∨
       (isLocal x = false ∧ ∃ p, s.globalAt (s.agentOf s.cur) .read x = .ok p ∧ s.poisoned p.loc 64 = false ∧
         line = s.view s.cur s.seq p.loc 64)
     (∀ line : Nat → Nat, let n := line 0 % 2 ^ 32
       A.toNat % 64 = 0 → (∀ k, k ≤ n → reads k (line k)) → 1 ≤ n → n ≤ 64 → (∀ m, m < 8 → (s.me.binding m).bound = false) →
       s.schedReady A 0 = .ok () → s.schedReady A n = .ok () →
       ∃ es : List SchedEntry, does (.ssch a) { r with sched := es, stage := 0#16, halt := false } ∧ es.length = n ∧
         ∀ k, k < n → let w := line (k + 1)
           es[k]? = some ⟨BitVec.ofNat 256 w, BitVec.ofNat 64 (w / 2 ^ 256), BitVec.ofNat 32 (w / 2 ^ 320), BitVec.ofNat 16 (w / 2 ^ 352),
             BitVec.ofNat 64 (w / 2 ^ 384), 0⟩) ∧
     (A.toNat % 64 ≠ 0 → exec (.ssch a) s = .next (s.trapped { cause := cAlign, addr := A, engine := eCopy })) ∧
     (A.toNat % 64 = 0 → s.schedReady A 0 = .error .wait → exec (.ssch a) s = .next s.postponed) ∧
     (∀ head, A.toNat % 64 = 0 → s.schedReady A 0 = .ok () → reads 0 head →
       (head % 2 ^ 32 = 0 ∨ 64 < head % 2 ^ 32 ∨ ∃ m, m < 8 ∧ (s.me.binding m).bound = true) → fault (.ssch a)) ∧
     does .sadv { r with stage := BitVec.ofNat 16 (min 65535 (r.stage.toNat + 1)) } ∧
     (r.halt = true → A.toNat % 64 = r.hentry.toNat → does (.sres a) { r with halt := false }) ∧
     (¬(r.halt = true ∧ A.toNat % 64 = r.hentry.toNat) → fault (.sres a)) ∧
     ∀ e, e < 6 → (s.countDone s.cur 4).me.completed e = s.me.completed e + if e = 4 then 1 else 0) ∧
  (∀ (s : State) (c k id : Nat),
     (∀ e b args loc, let x := s.ctx c
       let h := x.hreg b.hreg
       x.eng.copy.sched[k]? = some e → x.fedBy k = some b → x.task ≠ none → x.eng.copy.halt = false →
       e.stage.toNat ≤ x.eng.copy.stage.toNat → e.next < e.iters.toNat → seqDiff b.fillSeq b.headSeq < hDepth h →
       seqDiff (BitVec.ofNat 32 e.next) b.headSeq < hDepth h → s.iterationArgs c e b = .ok (args, loc) →
       (∀ r ∈ args.flatMap (·.ranges), s.rangeHeld (coreOf c) (some 4) r.1 r.2 = false) →
       s.rangesUsed (coreOf c) + (args.flatMap (·.ranges)).length ≤ 64 →
       ∃ (t : State) (o : Op), exec (.scheduleIterationStart c k) s = .next t ∧ t.ops = s.ops ++ [o] ∧
         t = { s with ops := t.ops, ctxs := t.ctxs, cores := t.cores, mem := t.mem, seq := s.seq + 1 } ∧ o.id = s.seq ∧
         o.ctx = c ∧ o.engine = 4 ∧ o.entry = some k ∧ o.iter = e.next ∧ o.slot = some (loc, BitVec.ofNat 32 e.next) ∧
         (o.arg 0).base = slotBase h (BitVec.ofNat 32 e.next) ∧ o.val = e.gauge ∧
         (o.arg 1).base = hBase e.pat + BitVec.ofNat 64 e.next * e.step ∧ (∀ d, d ≠ c → t.ctx d = s.ctx d) ∧
         (t.ctx c).eng.copy.sched[k]? = some { e with next := e.next + 1 } ∧
         memRead t.mem (loc + 8) 4 = (e.next + 1) % 2 ^ 32 ∧
         (∀ a, (a < loc + 8 ∨ loc + 12 ≤ a) → memGet t.mem a = memGet s.mem a)) ∧
     (∀ (o : Op) (b loc n w : Nat) (q : BitVec 32), s.ops.find? (fun p => p.id == id && p.engine == 4 && p.entry.isSome) = some o →
       s.copyBehind o = false → (∀ p ∈ s.iterations o.ctx (o.entry.getD 0), o.iter ≤ p.iter) → s.badSource o = none →
       s.feeds o = some b → o.slot = some (loc, q) → o.data = none → 1 ≤ w → (o.arg 1).isRow n w → (o.destAt o.core).isRow n w →
       let at_ := spadLoc (o.destAt o.core).core (o.destAt o.core).base.toNat
       let g := spadLoc o.core o.val.toNat
       let g' := (s.gaugeAt g).count (n * w)
       loc + 16 ≤ at_ →
       ((o.aux = 0#64 ∨ (o.aux = 1#64 ∧ g'.2 = false ∧ overlaps g 16 at_ (n * w) = false ∧ overlaps g 16 (loc + 4) 4 = false)) →
         ∃ t : State, exec (.scheduleIterationLanding id) s = .next t ∧ t.ops = s.ops.filter (fun p => p.id != id) ∧
           (∀ d, d ≠ o.ctx → t.ctx d = s.ctx d) ∧ t.ctx o.ctx = { s.ctx o.ctx with binds := (t.ctx o.ctx).binds } ∧
           (t.ctx o.ctx).binding b = { (s.ctx o.ctx).binding b with fillSeq := BitVec.ofNat 32 (o.iter + 1) } ∧
           memRead t.mem (loc + 4) 4 = (o.iter + 1) % 2 ^ 32 ∧
           (∀ j, j < n → memRead t.mem (at_ + j * w) w = s.element (o.arg 1) ⟨j, 0, 0, 0⟩) ∧
           (o.aux = 1#64 → t.gaugeAt g = g'.1) ∧
           (∀ y, (y < at_ ∨ at_ + n * w ≤ y) → (y < loc + 4 ∨ loc + 8 ≤ y) → (o.aux = 0#64 ∨ y < g ∨ g + 16 ≤ y) →
             memGet t.mem y = memGet s.mem y))))

/-! The vector engine (spec 05 R144 to R163). -/

/-- R22, R144 to R146, R150, R152: a vector word whose operands an engine may take joins the operations of engine 1 with its
operands and changes nothing else: arithmetic, logic and shifts, special functions, compares, selection, conversions,
quantisation, reductions, gathers, scatters, permutations, moves and fills.

Some clauses rest on choices of the model (logs 63, 66). -/
def Obligations.VectorWordsIssue : Prop :=
  ∀ (s : State) (c a b g q : BitVec 5) (f r : BitVec 2) (m : BitVec 1) (n : Nat), n ≤ 1024 →
    bitsOf s.me.eng.vcfg.toNat 5 4 = 0 → s.rangesUsed (coreOf s.cur) ≤ 60 →
    let issues := fun (i : Instr) (args : List (Nat × BitVec 5)) => ∃ (t : State) (o : Op), exec i s = .next t ∧
      s.sentOff t 1 i o ∧ s.onlyEngines t ∧ (∀ x ∈ args, (o.arg x.1).h = s.hr x.2 ∧ (o.arg x.1).base = hBase (s.hr x.2)) ∧
      o.pops = [] ∧ o.chainIn = none ∧ o.chainOut = none
    (∀ fmt, s.operand 1 c fmt n 1 → s.operand 1 a fmt n 1 → s.operand 1 b fmt n 1 →
      (fpMatch f fmt = true → fmt ≠ 8 → ∀ i ∈ [Instr.vaddFp c a b f m, .vsubFp c a b f m, .vmulFp c a b f m,
        .vminFp c a b f m, .vmaxFp c a b f m, .vfma c a b f m, .vfms c a b f m, .vfnma c a b f m],
        issues i [(0, c), (1, a), (2, b)]) ∧
      (fpMatch f fmt = true → fmt ≠ 8 → issues (.vabs c a f m) [(0, c), (1, a)] ∧ issues (.vneg c a f m) [(0, c), (1, a)]) ∧
      (fmt = 0 → ∀ i ∈ [Instr.vrcp c a m, .vrsq c a m, .vexp2 c a m, .vlog2 c a m], issues i [(0, c), (1, a)]) ∧
      (intMatch f fmt = true → ∀ i ∈ [Instr.vaddInt c a b f m, .vsubInt c a b f m, .vmulInt c a b f m, .vminInt c a b f m,
        .vmaxInt c a b f m, .vadds c a b f m, .vsubs c a b f m, .vand c a b f m, .vor c a b f m, .vxor c a b f m,
        .vshl c a b f m, .vsra c a b f m, .vsrl c a b f m], issues i [(0, c), (1, a), (2, b)]) ∧
      (fpMatch f fmt = true → ∀ i ∈ [Instr.vcmpEq c a b f m, .vcmpNe c a b f m, .vcmpLt c a b f m, .vcmpLe c a b f m,
        .vcmpGt c a b f m, .vcmpGe c a b f m, .vcmpUo c a b f m], issues i [(1, a), (2, b)]) ∧
      (fpMatch f fmt = true → ∀ i ∈ [Instr.vrsum c a f m, .vrmax c a f m, .vrmin c a f m], issues i [(0, c), (1, a)]) ∧
      (fmt ≠ 4 → fmt ≠ 5 → issues (.vsel c a b) [(0, c), (1, a), (2, b)] ∧ issues (.vmov c a m) [(0, c), (1, a)] ∧
        issues (.viota c m) [(0, c)] ∧
        ∃ (t : State) (o : Op), exec (.vfill c a m) s = .next t ∧ s.sentOff t 1 (.vfill c a m) o ∧ s.onlyEngines t ∧
          o.val = s.sr a) ∧
      (s.operand 1 g 8 n 1 → fmt ≠ 4 → fmt ≠ 5 → ∀ i ∈ [Instr.vgather c a g m, .vscatter c a g m, .vperm c a g m],
        issues i [(0, c), (1, a), (2, g)])) ∧
    (∀ fmt fmt', converts fmt' fmt = true → s.operand 1 c fmt n 1 → s.operand 1 a fmt' n 1 →
      issues (.vcvt c a r m) [(0, c), (1, a)]) ∧
    (∀ fmt fmt' k, (fmt' = 4 ∨ fmt' = 5) → fmt ≤ 2 → s.operand 1 c fmt n 1 → s.operand 1 q fmt' n 1 →
      s.operand 1 (hScale (s.hr q)) 8 k 1 →
      issues (.vqnt q c m) [(0, q), (1, c), (4, hScale (s.hr q))] ∧
      (fmt = 0 → issues (.vdq c q m) [(0, c), (1, q), (5, hScale (s.hr q))])) ∧
    (∀ i ∈ [Instr.pand c a b m, .por c a b m, .pxor c a b m, .pnot c a m, .pset c m, .pclr c m], issues i [])

/-- R40, R147, R149, R150, R156, R157, R162, R163: a vector operation that may complete leaves the engine, counts as completed, and
writes each active lane of a row destination with its result and no other byte; a predicate word sets its predicate, bits off
in the masking predicate apart; a compare sets a bit per lane, 0 beyond the lanes; a reduction writes element 0; VQNT to INT8 writes the codes of the
active lanes of a row and the record of each group that has one; a scatter leaves in each element the value of the highest
lane that names it.

Some clauses rest on choices of the model (logs 28, 59). -/
def Obligations.VectorOperationsComplete : Prop :=
  ∀ (s : State) (o : Op), s.ready? 1 o.id = some o → o.pops = [] → o.chainOut = none → s.poison = [] →
    let x := s.ctx o.ctx
    let mask := if o.masked then s.maskOf o else BitVec.allOnes 1024
    let ends := fun (t : State) => exec (.vectorOperationCompletion o.id) s = .next t ∧
      t.ops = s.ops.filter (fun p => p.id != o.id) ∧ (t.ctx o.ctx).completed 1 = x.completed 1 + 1 ∧
      (∀ k, k ≠ o.ctx → t.ctx k = s.ctx k) ∧ t = { s with ops := t.ops, ctxs := t.ctxs, mem := t.mem, poison := t.poison }
    let at_ := spadLoc (o.arg 0).core (o.arg 0).base.toNat
    let kept := fun (t : State) (n : Nat) => ∀ y, (y < at_ ∨ at_ + n ≤ y) → memGet t.mem y = memGet s.mem y
    let int := fun (r : Nat) (j : Nat) => (s.element (o.arg r) ⟨j, 0, 0, 0⟩ : Int).bmod (2 ^ 32)
    (∀ n b, 1 ≤ b → (o.arg 0).isRow n b → n ≤ 1024 → o.silent = false → (∀ c a m, o.instr ≠ .vqnt c a m) →
      (∀ c a b m, o.instr ≠ .vscatter c a b m) → (∀ c a f m, o.instr ≠ .vrsum c a f m) →
      (∀ c a f m, o.instr ≠ .vrmax c a f m) → (∀ c a f m, o.instr ≠ .vrmin c a f m) → predWritten o.instr = none →
      ∃ t : State, ends t ∧ (t.ctx o.ctx).preds = x.preds ∧ kept t (n * b) ∧
        (∀ j, j < n → memRead t.mem (at_ + j * b) b =
          if mask.getLsbD j then s.laneValue o j ⟨j, 0, 0, 0⟩ % 2 ^ (8 * b) else memRead s.mem (at_ + j * b) b)) ∧
    (∀ (d : BitVec 5) (v : Pred), d.toNat < 8 →
      (∃ p q m, (o.instr = .pand d p q m ∧ v = x.pred p.toNat &&& x.pred q.toNat) ∨
        (o.instr = .por d p q m ∧ v = x.pred p.toNat ||| x.pred q.toNat) ∨
        (o.instr = .pxor d p q m ∧ v = x.pred p.toNat ^^^ x.pred q.toNat) ∨
        (o.instr = .pnot d p m ∧ v = ~~~x.pred p.toNat) ∨
        (o.instr = .pset d m ∧ v = BitVec.allOnes 1024) ∨ (o.instr = .pclr d m ∧ v = 0#1024)) →
      ∃ t : State, ends t ∧ t.mem = s.mem ∧ (t.ctx o.ctx).pred d.toNat = (v &&& mask) ||| (x.pred d.toNat &&& ~~~mask) ∧
        ∀ k, k < 8 → k ≠ d.toNat → (t.ctx o.ctx).pred k = x.pred k) ∧
    (∀ (d a b : BitVec 5) (f : BitVec 2) (m : BitVec 1) (n : Nat), d.toNat < 8 → n ≤ 1024 → extents (o.arg 1).h = (n, 1, 1, 1) →
      extents (o.arg 2).h = (n, 1, 1, 1) → hFmt (o.arg 1).h = 8 →
      ∀ q ∈ [(Instr.vcmpEq d a b f m, fun u v : Int => decide (u = v)), (.vcmpNe d a b f m, fun u v => decide (u ≠ v)),
        (.vcmpLt d a b f m, fun u v => decide (u < v)), (.vcmpLe d a b f m, fun u v => decide (u ≤ v)),
        (.vcmpGt d a b f m, fun u v => decide (v < u)), (.vcmpGe d a b f m, fun u v => decide (v ≤ u))],
        o.instr = q.1 → ∃ t : State, ends t ∧ t.mem = s.mem ∧
          (∀ k, k < 8 → k ≠ d.toNat → (t.ctx o.ctx).pred k = x.pred k) ∧
          ∀ j, j < 1024 → ((t.ctx o.ctx).pred d.toNat).getLsbD j = if n ≤ j then false
            else if mask.getLsbD j then q.2 (int 1 j) (int 2 j) else (x.pred d.toNat).getLsbD j) ∧
    (∀ (c a : BitVec 5) (f : BitVec 2) (m : BitVec 1) (n k : Nat), n ≤ 1024 → 1 ≤ n → extents (o.arg 1).h = (n, 1, 1, 1) →
      hFmt (o.arg 1).h = 8 → (o.arg 0).isRow k 4 → 1 ≤ k →
      let live := ((List.range n).filter (fun j => mask.getLsbD j)).map (int 1)
      ∀ q ∈ [(Instr.vrsum c a f m, live.sum), (.vrmax c a f m, live.foldl max (-(2 ^ 31))), (.vrmin c a f m, live.foldl min (2 ^ 31 - 1))],
        o.instr = q.1 → ∃ t : State, ends t ∧ (t.ctx o.ctx).preds = x.preds ∧ kept t 4 ∧
          (memRead t.mem at_ 4 : Int) = q.2 % 2 ^ 32) ∧
    (∀ (d a b : BitVec 5) (f : BitVec 2) (m : BitVec 1) (n : Nat), d.toNat < 8 → n ≤ 1024 → extents (o.arg 1).h = (n, 1, 1, 1) →
      extents (o.arg 2).h = (n, 1, 1, 1) → o.instr ∈ [Instr.vcmpEq d a b f m, .vcmpNe d a b f m, .vcmpLt d a b f m,
        .vcmpLe d a b f m, .vcmpGt d a b f m, .vcmpGe d a b f m, .vcmpUo d a b f m] →
      ∃ t : State, ends t ∧ t.mem = s.mem ∧ (∀ k, k < 8 → k ≠ d.toNat → (t.ctx o.ctx).pred k = x.pred k) ∧
        ∀ j, j < 1024 → ((t.ctx o.ctx).pred d.toNat).getLsbD j = if n ≤ j then false
          else if mask.getLsbD j then
            relation o.instr (hFmt (o.arg 1).h) (s.element (o.arg 1) ⟨j, 0, 0, 0⟩) (s.element (o.arg 2) ⟨j, 0, 0, 0⟩)
          else (x.pred d.toNat).getLsbD j) ∧
    (∀ (c a : BitVec 5) (f : BitVec 2) (m : BitVec 1) (n k w : Nat), n ≤ 1024 → 1 ≤ n → extents (o.arg 1).h = (n, 1, 1, 1) →
      1 ≤ w → (o.arg 0).isRow k w → 1 ≤ k → o.instr ∈ [Instr.vrsum c a f m, .vrmax c a f m, .vrmin c a f m] →
      ∃ t : State, ends t ∧ (t.ctx o.ctx).preds = x.preds ∧ kept t w ∧
        memRead t.mem at_ w = reduction o.instr (hFmt (o.arg 1).h) (fun j =>
          if j < n ∧ mask.getLsbD j = true then some (s.element (o.arg 1) ⟨j, 0, 0, 0⟩) else none) % 2 ^ (8 * w)) ∧
    (∀ (c a : BitVec 5) (m : BitVec 1) (n k : Nat) (fl : FFmt), o.instr = .vqnt c a m → n ≤ 1024 → (o.arg 0).isRow n 1 →
      hFmt (o.arg 0).h = 4 → ffmtOf (hFmt (o.arg 1).h) = some fl → (o.arg 4).isRow k 4 →
      let recs := spadLoc (o.arg 4).core (o.arg 4).base.toNat
      let G := groupSize (hDepth (o.arg 0).h)
      (recs + 4 * k ≤ at_ ∨ at_ + n ≤ recs) →
      ∃ t : State, ends t ∧ (t.ctx o.ctx).preds = x.preds ∧
        (∀ y, (y < at_ ∨ at_ + n ≤ y) → (y < recs ∨ recs + 4 * k ≤ y) → memGet t.mem y = memGet s.mem y) ∧
        (∀ j, j < n → mask.getLsbD j = false → memGet t.mem (at_ + j) = memGet s.mem (at_ + j)) ∧
        ∀ g : Nat,
          let js := ((List.range G).map (fun j => g * G + j)).filter (fun j => decide (j < n) && mask.getLsbD j)
          let out := quantise 255 (js.map (fun j => fl.value (s.element (o.arg 1) ⟨j, 0, 0, 0⟩)))
          (g < k → memRead t.mem (recs + 4 * g) 4 = if js = [] then memRead s.mem (recs + 4 * g) 4 else out.1) ∧
          ∀ p j : Nat, js[p]? = some j → out.2[p]? = some (memGet t.mem (at_ + j)).toNat) ∧
    (∀ (c a b : BitVec 5) (m : BitVec 1) (n k w : Nat), o.instr = .vscatter c a b m → 1 ≤ w → n ≤ 1024 → (o.arg 0).isRow k w →
      (o.arg 1).isRow n w → extents (o.arg 2).h = (n, 1, 1, 1) →
      ∃ t : State, ends t ∧ (t.ctx o.ctx).preds = x.preds ∧ kept t (k * w) ∧ ∀ i : Nat, i < k →
        ((∀ j, j < n → mask.getLsbD j = true → int 2 j ≠ i) → memRead t.mem (at_ + i * w) w = memRead s.mem (at_ + i * w) w) ∧
        ∀ j, j < n → mask.getLsbD j = true → int 2 j = i → (∀ l, j < l → l < n → mask.getLsbD l = true → int 2 l ≠ i) →
          memRead t.mem (at_ + i * w) w = s.element (o.arg 1) ⟨j, 0, 0, 0⟩)

/-- R155: the result of an integer lane of k bits: sums, differences and products modulo 2^k, saturated sums and differences,
bitwise logic, and shifts by the second operand modulo k.

R120 to R122, R125 to R128, R131 to R137, R153, R154, R156: a floating lane holds the exact sum, difference, product, lesser,
greater or fused result of the values of its operands rounded once, with the IEEE results at infinities and the canonical NaN
from a NaN; the special functions at their special cases and at the values the rules give; conversions under each rounding
mode; the codes and the record of a quantised group and the value of a code; the floating compares; and the reduction tree.

Some clauses rest on choices of the model (log 66). -/
def Obligations.VectorLanes : Prop :=
  (∀ (s : State) (o : Op) (j : Nat) (i : Idx) (c a b : BitVec 5) (f : BitVec 2) (m : BitVec 1) (k : Nat),
     (hFmt (o.arg 0).h, k) ∈ [(8, 32), (7, 16), (6, 8)] →
     let x := s.element (o.arg 1) (bcast (o.arg 1).h (o.arg 0).h i)
     let y := s.element (o.arg 2) (bcast (o.arg 2).h (o.arg 0).h i)
     x < 2 ^ k → y < 2 ^ k →
     let sg := fun (v : Nat) => (v : Int).bmod (2 ^ k)
     let un := fun (v : Int) => (v % 2 ^ k).toNat
     let sat := fun (v : Int) => un (max (-(2 ^ (k - 1))) (min (2 ^ (k - 1) - 1) v))
     ∀ q ∈ [(Instr.vaddInt c a b f m, (x + y) % 2 ^ k), (.vsubInt c a b f m, un ((x : Int) - y)),
       (.vmulInt c a b f m, x * y % 2 ^ k), (.vminInt c a b f m, un (min (sg x) (sg y))),
       (.vmaxInt c a b f m, un (max (sg x) (sg y))), (.vadds c a b f m, sat (sg x + sg y)),
       (.vsubs c a b f m, sat (sg x - sg y)), (.vand c a b f m, x &&& y), (.vor c a b f m, x ||| y),
       (.vxor c a b f m, x ^^^ y), (.vshl c a b f m, x * 2 ^ (y % k) % 2 ^ k),
       (.vsra c a b f m, un (sg x / 2 ^ (y % k))), (.vsrl c a b f m, x / 2 ^ (y % k))],
       s.laneValue { o with instr := q.1 } j i = q.2) ∧
  ((∀ (s : State) (o : Op) (j : Nat) (i : Idx) (c a b : BitVec 5) (g r : BitVec 2) (m : BitVec 1) (f : FFmt),
     ffmtOf (hFmt (o.arg 0).h) = some f →
     let x := s.element (o.arg 1) (bcast (o.arg 1).h (o.arg 0).h i)
     let y := s.element (o.arg 2) (bcast (o.arg 2).h (o.arg 0).h i)
     let z := s.element (o.arg 0) i
     let lane := fun (w : Instr) => s.laneValue { o with instr := w } j i
     let once := fun (v : Int) (zero : Bool) (d : Nat) => f.round .rne (if v = 0 then zero else decide (v < 0)) v.natAbs d
     let inf := fun (neg : Bool) => f.infBits + (if neg then f.signBit else 0)
     let add := lane (.vaddFp c a b g m)
     let sub := lane (.vsubFp c a b g m)
     let mul := lane (.vmulFp c a b g m)
     let lesser := lane (.vminFp c a b g m)
     let greater := lane (.vmaxFp c a b g m)
     let fma := lane (.vfma c a b g m)
     let fms := lane (.vfms c a b g m)
     let fnma := lane (.vfnma c a b g m)
     let magnitude := lane (.vabs c a g m)
     let negated := lane (.vneg c a g m)
     ((f.value x = .nan ∨ f.value y = .nan) → ∀ v ∈ [add, sub, mul, lesser, greater, fma, fms, fnma], v = f.nanBits) ∧
     (f.value z = .nan → ∀ v ∈ [fma, fms, fnma], v = f.nanBits) ∧
     (f.value x = .nan → magnitude = f.nanBits ∧ negated = f.nanBits) ∧
     (∀ sx n d, f.value x = .fin sx n d →
       magnitude = f.round .rne false n d ∧ negated = f.round .rne (!sx) n d ∧
       (∀ sy k e, f.value y = .fin sy k e →
         let A := signed sx n * e
         let B := signed sy k * d
         add = once (A + B) (sx && sy) (d * e) ∧ sub = once (A - B) (sx && !sy) (d * e) ∧
         mul = once (signed sx n * signed sy k) (sx != sy) (d * e) ∧
         lesser = (if A < B ∨ (A = B ∧ sx = true) then f.round .rne sx n d else f.round .rne sy k e) ∧
         greater = (if B < A ∨ (A = B ∧ sx = false) then f.round .rne sx n d else f.round .rne sy k e) ∧
         (∀ sz l t, f.value z = .fin sz l t →
           let P := signed sx n * signed sy k * t
           let Z := signed sz l * (d * e)
           fma = once (P + Z) ((sx != sy) && sz) (d * e * t) ∧ fms = once (P - Z) ((sx != sy) && !sz) (d * e * t) ∧
           fnma = once (Z - P) (sz && !(sx != sy)) (d * e * t)) ∧
         (∀ sz, f.value z = .inf sz → fma = inf sz ∧ fms = inf (!sz) ∧ fnma = inf sz)) ∧
       (∀ sy, f.value y = .inf sy → add = inf sy ∧ sub = inf (!sy) ∧ mul = (if n = 0 then f.nanBits else inf (sx != sy)) ∧
         lesser = (if sy then inf true else f.round .rne sx n d) ∧ greater = (if sy then f.round .rne sx n d else inf false) ∧
         (n = 0 → fma = f.nanBits ∧ fms = f.nanBits ∧ fnma = f.nanBits))) ∧
     (∀ sx, f.value x = .inf sx →
       magnitude = inf false ∧ negated = inf (!sx) ∧
       (∀ sy k e, f.value y = .fin sy k e → add = inf sx ∧ sub = inf sx ∧ mul = (if k = 0 then f.nanBits else inf (sx != sy)) ∧
         lesser = (if sx then inf true else f.round .rne sy k e) ∧ greater = (if sx then f.round .rne sy k e else inf false)) ∧
       (∀ sy, f.value y = .inf sy → add = (if sx = sy then inf sx else f.nanBits) ∧ sub = (if sx = sy then f.nanBits else inf sx) ∧
         mul = inf (sx != sy) ∧ lesser = inf (sx || sy) ∧ greater = inf (sx && sy)) ∧
       (∀ sy sz, (f.value y = .inf sy ∨ ∃ k e, f.value y = .fin sy k e ∧ k ≠ 0) →
         ((∃ l t, f.value z = .fin sz l t) → fma = inf (sx != sy) ∧ fms = inf (sx != sy) ∧ fnma = inf (sx == sy)) ∧
         (f.value z = .inf sz → fma = (if (sx != sy) = sz then inf sz else f.nanBits) ∧
           fms = (if (sx != sy) = sz then f.nanBits else inf (sx != sy)) ∧
           fnma = (if (sx != sy) = sz then f.nanBits else inf sz)))) ∧
     (f = fp32 →
       let rcp := lane (.vrcp c a m)
       let rsq := lane (.vrsq c a m)
       let exp := lane (.vexp2 c a m)
       let log := lane (.vlog2 c a m)
       (f.value x = .nan → ∀ v ∈ [rcp, rsq, exp, log], v = 0x7FC00000) ∧
       (∀ n d sx, f.value x = .fin sx n d →
         rcp = (if n = 0 then inf sx else f.round .rne sx d n) ∧
         (n = 0 → rsq = inf sx ∧ exp = 0x3F800000 ∧ log = inf true) ∧
         (n ≠ 0 → sx = true → rsq = f.nanBits ∧ log = f.nanBits) ∧
         (128 * (d : Int) ≤ signed sx n → exp = inf false) ∧ (signed sx n < -151 * (d : Int) → exp = 0)) ∧
       (∀ sx, f.value x = .inf sx → rcp = (if sx then f.signBit else 0) ∧ rsq = (if sx then f.nanBits else 0) ∧
         exp = (if sx then 0 else inf false) ∧ log = (if sx then f.nanBits else inf false)) ∧
       (x = 0xBF800000 → exp = 0x3F000000) ∧ (x = 0x3F000000 → exp = 0x3FB504F3) ∧ (x = 0x3FB504F3 → log = 0x3F000000) ∧
       (x = 1 → log = 0xC3150000)) ∧
     (let cvt := lane (.vcvt c a r m)
      (∀ e, ffmtOf (hFmt (o.arg 1).h) = some e →
        (hFmt (o.arg 1).h = hFmt (o.arg 0).h → cvt = if f.value x = .nan then f.nanBits else x) ∧
        (hFmt (o.arg 1).h ≠ hFmt (o.arg 0).h →
          (e.value x = .nan → cvt = f.nanBits) ∧ (∀ sx, e.value x = .inf sx → cvt = inf sx) ∧
          (∀ sx n d, e.value x = .fin sx n d → cvt = f.round (rndOf r) sx n d))) ∧
      (∀ w ∈ [(6, (x : Int).bmod (2 ^ 8)), (7, (x : Int).bmod (2 ^ 16)), (8, (x : Int).bmod (2 ^ 32)), (9, (x : Int) % 2 ^ 8)],
        hFmt (o.arg 1).h = w.1 → cvt = f.round (rndOf r) (decide (w.2 < 0)) w.2.natAbs 1)) ∧
     (let rec_ := s.element (o.arg 5) { i with i0 := i.i0 / (32 * 2 ^ hDepth (o.arg 1).h) }
      let q : Int := x - (if hFmt (o.arg 1).h = 5 then rec_ / 2 ^ 16 % 16 else rec_ / 2 ^ 16 % 256 : Nat)
      let dq := lane (.vdq c a m)
      (fp16.value (rec_ % 2 ^ 16) = .nan → dq = 0x7FC00000) ∧
      (∀ sg, fp16.value (rec_ % 2 ^ 16) = .inf sg → dq = if q = 0 then 0x7FC00000
        else fp32.infBits + (if sg != decide (q < 0) then fp32.signBit else 0)) ∧
      (∀ sg n d, fp16.value (rec_ % 2 ^ 16) = .fin sg n d → dq = fp32.round .rne (sg != decide (q < 0)) (n * q.natAbs) d))) ∧
   (∀ (s : State) (o : Op) (j : Nat) (i : Idx) (c a : BitVec 5) (r : BitVec 2) (m : BitVec 1),
     let x := s.element (o.arg 1) (bcast (o.arg 1).h (o.arg 0).h i)
     let cvt := s.laneValue { o with instr := .vcvt c a r m } j i
     ∀ w ∈ [(6, 8, -(2 ^ 7 : Int), (2 ^ 7 - 1 : Int)), (7, 16, -2 ^ 15, 2 ^ 15 - 1), (8, 32, -2 ^ 31, 2 ^ 31 - 1), (9, 8, 0, 2 ^ 8 - 1)],
       hFmt (o.arg 0).h = w.1 →
       let stored := fun (v : Int) => (max w.2.2.1 (min v w.2.2.2) % 2 ^ w.2.1).toNat
       (∀ e, ffmtOf (hFmt (o.arg 1).h) = some e →
         (e.value x = .nan → cvt = 0) ∧ (∀ sx, e.value x = .inf sx → cvt = stored (if sx then w.2.2.1 else w.2.2.2)) ∧
         (∀ sx n d v, e.value x = .fin sx n d → roundsBy (rndOf r) (signed sx n) d v → cvt = stored v)) ∧
       (∀ u ∈ [(6, (x : Int).bmod (2 ^ 8)), (7, (x : Int).bmod (2 ^ 16)), (8, (x : Int).bmod (2 ^ 32)), (9, (x : Int) % 2 ^ 8)],
         hFmt (o.arg 1).h = u.1 → cvt = stored u.2)) ∧
   (∀ (qmax fmt : Nat) (f : FFmt) (bs : List Nat), (qmax = 255 ∨ qmax = 15) → ffmtOf fmt = some f →
     let xs := bs.map f.value
     let out := quantise qmax xs
     ((∃ v ∈ xs, v = .nan ∨ ∃ sg, v = .inf sg) → out = (0x7E00, xs.map (fun _ => 0))) ∧
     (∀ sl nl dl sh nh dh, (∀ v ∈ xs, ∃ sg n d, v = .fin sg n d) →
       Sys2Proof.Machine.Num.fin sl nl dl ∈ xs → Sys2Proof.Machine.Num.fin sh nh dh ∈ xs →
       (∀ v ∈ xs, ¬v.below (.fin sl nl dl) ∧ ¬Sys2Proof.Machine.Num.below (.fin sh nh dh) v) →
       let span := signed sh nh * dl - signed sl nl * dh
       let raw := fp16.round .rne false span.natAbs (dl * dh * qmax)
       let sb := if span = 0 then 0x3C00 else if raw = 0 then 1 else if raw = 0x7C00 then 0x7BFF else raw
       ∃ sn sd, fp16.value sb = .fin false sn sd ∧ ∀ v, roundsTo (-signed sl nl * sd) (dl * sn) v →
         let zero := max 0 (min v qmax)
         out.1 = zero.toNat * 2 ^ 16 + sb ∧ out.2.length = xs.length ∧
         ∀ (k : Nat) sg n d, xs[k]? = some (.fin sg n d) → ∀ w, roundsTo (signed sg n * sd) (d * sn) w →
           out.2[k]? = some (max 0 (min (w + zero) qmax)).toNat)) ∧
   (let half := fp32.value 0x3F000000
    quantise 255 (fp32.value 0xBF800000 :: fp32.value 0x40000000 :: List.replicate 30 half) =
      (0x00552206, 0 :: 255 :: List.replicate 30 128) ∧
    dequantise 4 0 0x00552206 = 0xBF7FFF00 ∧ dequantise 4 255 0x00552206 = 0x3FFFFF00 ∧ dequantise 4 128 0x00552206 = 0x3F018100) ∧
   (∀ (fmt x y : Nat) (f : FFmt) (d a b : BitVec 5) (g : BitVec 2) (m : BitVec 1), ffmtOf fmt = some f →
     let u := f.value x
     let v := f.value y
     let num := u ≠ .nan ∧ v ≠ .nan
     let same := num ∧ ¬u.below v ∧ ¬v.below u
     ∀ q ∈ [(Instr.vcmpEq d a b g m, same), (.vcmpNe d a b g m, ¬same), (.vcmpLt d a b g m, u.below v),
       (.vcmpLe d a b g m, num ∧ ¬v.below u), (.vcmpGt d a b g m, v.below u), (.vcmpGe d a b g m, num ∧ ¬u.below v),
       (.vcmpUo d a b g m, ¬num)], relation q.1 fmt x y = true ↔ q.2) ∧
   (∀ (fmt : Nat) (f : FFmt) (v : Nat → Option Nat) (c a : BitVec 5) (g : BitVec 2) (m : BitVec 1), ffmtOf fmt = some f →
     let lanes := fun (unit : Sys2Proof.Machine.Num) (j : Nat) => ((v j).map (fun e => (f.value e).r32)).getD unit
     ∀ q ∈ [(Instr.vrsum c a g m, treeAt (fun x y => (x.add y).r32) (lanes (.fin false 0 1)) 10 0),
       (.vrmax c a g m, treeAt Sys2Proof.Machine.Num.maximum (lanes (.inf true)) 10 0),
       (.vrmin c a g m, treeAt Sys2Proof.Machine.Num.minimum (lanes (.inf false)) 10 0)], reduction q.1 fmt v = q.2.bits f .rne))

/-! The cube (spec 06 R175 to R203). -/

/-- R181, R190, R193, R194, R198 to R200: a cube word whose checks pass joins the operations of engine 0; one that loads the
latches sets their state, CZERO makes them invalid, and CFSEL changes the selector at once, with a drain slot where it selects
a changed pair. One whose checks find a trap takes it, and one that must wait waits.

Some clauses rest on choices of the model (logs 27, 63). -/
def Obligations.CubeWords : Prop :=
  ∀ (s : State) (c a b : BitVec 5) (h : BitVec 1),
    (∀ w ∈ [(⟨.cmm c a b, some c, some a, b, false⟩ : CubeWord), ⟨.cmmh c a b, some c, some a, b, true⟩,
        ⟨.cldb a h, none, none, a, h == 1#1⟩],
      (∀ args e, s.cubeCheck w = .ok (args, e) → ∃ (t : State) (o : Op), exec w.instr s = .next t ∧ s.sentOff t 0 w.instr o ∧
        o.val = e ∧ s.me.cubeEntry = some e ∧ pairOk e = true ∧ t.mem = s.mem ∧
        o.aux = (if s.loadsLatch w then 1#64 else 0#64) ∧ (∀ d, d ≠ s.cur → t.ctx d = s.ctx d) ∧
        t.me = { s.me with eng := { s.me.eng with latch := t.me.eng.latch } } ∧
        t.me.eng.latch = (if s.loadsLatch w then { s.me.eng.latch with
          valid := true, hold := w.hold, lmask := s.me.eng.cube.lmask.setWidth 8
          bfmt := BitVec.ofNat 4 (entryB e), grp := BitVec.ofNat 2 (entryG e) } else s.me.eng.latch)) ∧
      (∀ u, s.cubeCheck w = .error (.trap u) → exec w.instr s =
        .next (s.trapped (if u.engine = 31#5 then { u with engine := eCube } else u))) ∧
      (s.cubeCheck w = .error .wait → exec w.instr s = .next s.postponed)) ∧
    (∀ x, s.accArg 0 (s.hr c) = .ok x → hD (s.hr c) = false →
      (accFree (s.hr c) = true → s.canIssue 0 [x] = .ok () →
        ∃ (t : State) (o : Op), exec (.czero c) s = .next t ∧ s.sentOff t 0 (.czero c) o ∧
          t = { s with ops := t.ops, ctxs := t.ctxs, seq := t.seq, mark := .ran } ∧ (o.arg 0).h = s.hr c ∧
          t.me = { s.me with eng := { s.me.eng with latch := { s.me.eng.latch with valid := false, hold := false } } } ∧
          ∀ d, d ≠ s.cur → t.ctx d = s.ctx d) ∧
      (accFree (s.hr c) = false → exec (.czero c) s =
        .next (s.trapped { cause := cEngineFault, fcode := fCubeShape, engine := eCube }))) ∧
    (∀ x n m, s.accArg 1 (s.hr a) = .ok x → hD (s.hr a) = false → accFree (s.hr a) = true →
      s.canIssue 0 [x] = .ok () → s.rangesUsed (coreOf s.cur) ≤ 61 →
      (extents (s.hr a) = (n, m, 1, 1) ∧ ((∃ fmt, fmt ≤ 2 ∧ s.operand 0 c fmt n m) ∨
          (s.operand 0 c 4 n m ∧ ∃ k l, s.operand 0 (hScale (s.hr c)) 8 k l)) ∨
        extents (s.hr a) = (n, m, 2, 1) ∧ s.operand 0 c 3 (2 * n) m) →
      ∃ (t : State) (o : Op), exec (.crd c a) s = .next t ∧ s.sentOff t 0 (.crd c a) o ∧
        t = { s with ops := t.ops, seq := t.seq, mark := .ran } ∧ (o.arg 0).h = s.hr c ∧ (o.arg 1).h = s.hr a) ∧
    (let v := s.sr a &&& 0xFF#64
     let entry := s.me.eng.cube.fmt.toList.getD (v.toNat % 16) 0
     let set := fun (x : Ctx) => { x with eng := { x.eng with cube := { x.eng.cube with fsel := v } } }
     ((128 ≤ v.toNat ∨ ∀ p, s.lastPair (coreOf s.cur) = some p → p = entryPair entry) → exec (.cfsel a) s = .next (s.ran set)) ∧
     (∀ p, v.toNat < 128 → s.lastPair (coreOf s.cur) = some p → p ≠ entryPair entry →
       ∃ (t : State) (o : Op), exec (.cfsel a) s = .next t ∧ s.sentOff t 0 (.cfsel a) o ∧ t.me = set s.me ∧
         t = { s with ops := t.ops, ctxs := t.ctxs, seq := t.seq, mark := .ran } ∧ ∀ d, d ≠ s.cur → t.ctx d = s.ctx d))

/-- R138, R140 to R142, R188, R191, R194, R198, R199, R201: a cube operation starts where its array is open and the stagger
admits it. A product that has started ends with each output in the accumulator, the fold of its layers' sums, added to the old
value where ACC = 1, and no other byte changed; a latch load with its tiles latched; CZERO with its words 0; CRD with the
accumulator's words read out; EDRAIN and an inserting CFSEL with a drain slot, the latter uncounted (R200). A chunk's sum takes its terms in order, those
with a zero A element omitted.

Some clauses rest on choices of the model (logs 27, 28, 59). -/
def Obligations.CubeOperations : Prop :=
  (∀ (s : State) (o : Op), s.ready? 0 o.id = some o → o.pops = [] → s.poison = [] → (s.column o.core).noFold = false →
    o.broken = false → s.arrayOpen o.core = true →
    let q := o.regs.cube
    let d := o.arg 0
    let ends := fun (t : State) => exec (.cubeOperationCompletion o.id) s = .next t ∧
      t = { s with ops := t.ops, ctxs := t.ctxs, cores := t.cores, mem := t.mem, poison := t.poison } ∧
      t.ops = s.ops.filter (fun p => p.id != o.id) ∧
      (t.ctx o.ctx).completed 0 = (s.ctx o.ctx).completed 0 + (if o.silent = true then 0 else 1) ∧
      ∀ c, c ≠ o.ctx → t.ctx c = s.ctx c
    (o.started = false → o.isDrain = false → s.admits o = true →
      ∃ t : State, exec (.cubeOperationStart o.id) s = .next t ∧ t.mem = s.mem ∧ t.ctxs = s.ctxs ∧
        t.ops = s.ops.map (fun p => if p.id == o.id then { p with started := true } else p) ∧
        (o.isProduct = true → (t.core o.core).pair = some (entryPair o.val))) ∧
    ((o.instr = .edrain ∨ ∃ a, o.instr = .cfsel a) → o.started = false →
      ∃ t : State, ends t ∧ t.mem = s.mem ∧ (t.core o.core).drains = (s.core o.core).drains + 1) ∧
    (∀ b h, o.instr = .cldb b h → o.aux = 1#64 → o.started = true →
      ∃ t : State, ends t ∧ t.mem = s.mem ∧ (t.ctx o.ctx).eng.latch.tiles = s.loadedTiles o) ∧
    (∀ c a n m, o.instr = .crd c a → o.started = true → d.isTile n m 4 → hFmt d.h = 0 → extents (o.arg 1).h = (n, m, 1, 1) →
      let at_ := d.tileBytes m
      ∃ t : State, ends t ∧ (∀ x y, x < n → y < m →
          memRead t.mem (at_.1 + y * hStride d.h 1 + 4 * x) 4 = memRead s.mem (accLoc (o.arg 1) 0 y x) 4) ∧
        (∀ y, (y < at_.1 ∨ at_.1 + at_.2 ≤ y) → memGet t.mem y = memGet s.mem y)) ∧
    (isLocal d.base = true → d.base.toNat % 2 ^ 30 + 4096 * 64 ≤ 2 ^ 30 →
      (∀ c, o.instr = .czero c → o.started = true → hExt d.h 0 ≤ 32 → hExt d.h 1 ≤ 32 → hExt d.h 2 ≤ 64 →
        ∃ t : State, ends t ∧
          (∀ p m n, p < hExt d.h 2 → m < hExt d.h 1 → n < hExt d.h 0 → memRead t.mem (accLoc d p m n) 4 = 0) ∧
          (∀ y, (y < spadLoc d.core d.base.toNat ∨ spadLoc d.core d.base.toNat + 4096 * hExt d.h 2 ≤ y) →
            memGet t.mem y = memGet s.mem y)) ∧
      (∀ c a b, (o.instr = .cmm c a b ∨ o.instr = .cmmh c a b) → o.started = true → q.n ≤ 32 → q.m ≤ 32 →
        let tiles := if o.aux = 1#64 then s.loadedTiles o else (s.ctx o.ctx).eng.latch.tiles
        let g := if quantised (entryA o.val) || quantised (entryB o.val) then some (groupSize (entryG o.val)) else none
        let parts := if entryA o.val = 3 then 2 else 1
        let total := fun (p m n : Nat) => foldSums (q.chunks.map (fun k =>
          let x := chunkSum g (s.termsOf o tiles k m n)
          if p = 0 then x.1 else x.2))
        ∃ t : State, ends t ∧ (t.ctx o.ctx).eng.latch.tiles = tiles ∧
          (∀ p m n, p < parts → m < q.m → n < q.n → memRead t.mem (accLoc d p m n) 4 =
            (if q.accumulates then ((fp32.value (memRead s.mem (accLoc d p m n) 4)).add (total p m n)).r32
             else total p m n).bits fp32 .rne % 2 ^ 32) ∧
          (∀ y, (y < spadLoc d.core d.base.toNat ∨ spadLoc d.core d.base.toNat + 4096 * parts ≤ y) →
            memGet t.mem y = memGet s.mem y)))) ∧
  (∀ ts : List (Sys2Proof.Machine.Num × Sys2Proof.Machine.Num), (chunkSum none (ts.map (fun t => (Elem.num t.1, Elem.num t.2)))).1 =
    ts.foldl (fun S t => if t.1.isZero then S else (S.add (t.1.mul t.2)).r32) Sys2Proof.Machine.Num.zero)

/-! Transposes and paired stores (spec 05 R164 to R174). -/

/-- R164 to R166, R168 to R173: XTR, XTRC and UPST with operands their engine may take join its operations, complex elements as
pairs; a producer reserves an entry of its chain queue and a consumer claims the oldest one of its context, or waits for one.
UVTAG writes the tag of the inactive backing of a weight leaf and no other byte.

R164 to R167: a transpose ends with element (x, y) of its source at (y, x) of its destination, converted by XTRC; a paired
store ends with both copies written, the second transposed, in one step; complex values move as pairs. No other byte
changes.

Some clauses rest on choices of the model (logs 28, 59, 63). -/
def Obligations.TransposeUnit : Prop :=
  (∀ (s : State) (c a b : BitVec 5) (e0 e1 fmt fmt' : Nat), s.rangesUsed (coreOf s.cur) ≤ 60 → e0 ≤ 32 → e1 ≤ 32 → fmt ≠ 4 → fmt ≠ 5 →
     let w := if fmt = 3 then 2 else 1
     let hc := s.hr c
     let hp := s.hr (c + 1#5)
     let ha := s.hr a
     let queue := fun (t : State) (q : Nat) => (t.core (coreOf s.cur)).queue q
     let claims := fun (q id : Nat) => (queue s q).map (fun x => if x.id = id then { x with claimed := true } else x)
     let issues := fun (i : Instr) (e : Nat) => ∃ (t : State) (o : Op), exec i s = .next t ∧ s.sentOff t e i o ∧
       t = { s with ops := t.ops, seq := t.seq, mark := .ran } ∧ (o.arg 0).h = hc ∧ (o.arg 1).h = ha ∧
       (e = 3 → (o.arg 3).h = hp) ∧ o.chainIn = none ∧ o.chainOut = none
     let descriptor := fun (h : Handle) (n m : Nat) => descOk h = true ∧ hQ h = false ∧ hFmt h = fmt ∧ extents h = (n, m, 1, 1)
     let pairs := hP hc = true ∧ s.operand 3 c fmt (w * e0) e1 ∧ s.operand 3 (c + 1#5) fmt (w * e1) e0
     (s.me.eng.tcfg.toNat % 4 ≠ 1 → s.operand 2 a fmt (w * e0) e1 →
       (s.me.eng.tcfg.getLsbD 4 = false → s.operand 2 c fmt' (w * e1) e0 →
         (fmt' = fmt → issues (.xtr c a) 2) ∧ (converts fmt fmt' = true → issues (.xtrc c a) 2)) ∧
       (s.me.eng.tcfg.getLsbD 4 = true → descriptor hc (w * e1) e0 →
         (s.queueRoom 2 = false → exec (.xtr c a) s = .next s.postponed) ∧
         (s.queueRoom 2 = true → ∃ (t : State) (o : Op), exec (.xtr c a) s = .next t ∧ s.sentOff t 2 (.xtr c a) o ∧
           s.onlyEngines t ∧ o.chainIn = none ∧ o.chainOut = some 2 ∧ (∀ q, q ≠ 2 → queue t q = queue s q) ∧
           queue t 2 = queue s 2 ++ [⟨s.seq, s.cur, BitVec.ofNat 4 fmt, (w * e1, e0, 1, 1), [], false, false, false⟩]))) ∧
     (s.me.eng.tcfg.toNat % 4 = 1 → s.me.eng.tcfg.getLsbD 4 = false → s.operand 2 c fmt (w * e1) e0 → descriptor ha (w * e0) e1 →
       (s.chainHead 0 = none → exec (.xtr c a) s = .next s.postponed) ∧
       (∀ e, s.chainHead 0 = some e → e.fmt.toNat = fmt → e.ext = (w * e0, e1, 1, 1) →
         ∃ (t : State) (o : Op), exec (.xtr c a) s = .next t ∧ s.sentOff t 2 (.xtr c a) o ∧ s.onlyEngines t ∧
           o.chainIn = some e.id ∧ o.chainOut = none ∧ queue t 0 = claims 0 e.id ∧ ∀ q, q ≠ 0 → queue t q = queue s q)) ∧
     (s.me.eng.ucfg.toNat % 4 = 0 → s.operand 3 a fmt (w * e0) e1 → pairs → issues (.upst c a) 3) ∧
     (∀ q, (s.me.eng.ucfg.toNat % 4 = q ∧ 1 ≤ q ∧ q ≤ 2) → descriptor ha (w * e0) e1 → pairs →
       (s.chainHead q = none → exec (.upst c a) s = .next s.postponed) ∧
       (∀ e, s.chainHead q = some e → e.fmt.toNat = fmt → e.ext = (w * e0, e1, 1, 1) →
         ∃ (t : State) (o : Op), exec (.upst c a) s = .next t ∧ s.sentOff t 3 (.upst c a) o ∧ s.onlyEngines t ∧
           o.chainIn = some e.id ∧ queue t q = claims q e.id ∧ ∀ p, p ≠ q → queue t p = queue s p)) ∧
     (∀ x p, s.me.eng.ucfg.toNat % 4 = 0 → s.operand 3 a fmt (w * e0) e1 → pairForm hc = true → pairForm hp = true → hP hc = true →
       extents hc = extents ha → hFmt hc = fmt → hFmt hp = fmt → transposable hp ha = true → handleAligned hc = true →
       handleAligned hp = true → isLocal (hBase hc) = false → isLocal (hBase hp) = false → hD hc = false → hD hp = false →
       s.anyArgBy eUpdate 0 (s.pairByte (hW hc)) (coreOf s.cur) hc = .ok x →
       s.anyArgBy eUpdate 3 (s.pairByte (hW hp)) (coreOf s.cur) hp = .ok p →
       ∃ (t : State) (o : Op), exec (.upst c a) s = .next t ∧ s.sentOff t 3 (.upst c a) o ∧ s.onlyEngines t ∧
         (o.arg 0).h = hc ∧ (o.arg 3).h = hp ∧ (o.arg 1).h = ha ∧ ∀ q, queue t q = queue s q) ∧
     (∀ l n, let v := (s.sr b).toNat
       let cur := s.currentVer (s.agentOf s.cur).polder
       isLocal (s.sr a) = false → s.walk (s.agentOf s.cur).asid (s.sr a) = some l → l.weight = true →
       v < 2 ^ 16 → v ≠ cur → s.permits (s.agentOf s.cur) .pair l = true →
       ((l.ver0 = cur ∧ n = 1) ∨ (l.ver0 ≠ cur ∧ l.ver1 = cur ∧ n = 0)) →
       let at_ := l.at_ + 28 + 2 * n
       ((∃ x ∈ s.launches, x.version.toNat = if n = 0 then l.ver0 else l.ver1) →
         exec (.uvtag a b) s = .next (s.trapped { cause := cProt, addr := s.sr a, engine := eUpdate })) ∧
       ((∀ x ∈ s.launches, x.version.toNat ≠ if n = 0 then l.ver0 else l.ver1) →
         ∃ t : State, exec (.uvtag a b) s = .next t ∧ t = { s with mem := t.mem, ctxs := t.ctxs, mark := .ran } ∧
           t.me = { s.me with doneCnt := t.me.doneCnt } ∧ (∀ d, d ≠ s.cur → t.ctx d = s.ctx d) ∧
           t.me.completed 3 = s.me.completed 3 + 1 ∧ memRead t.mem at_ 2 = v ∧
           ∀ y, (y < at_ ∨ at_ + 2 ≤ y) → memGet t.mem y = memGet s.mem y))) ∧
  (∀ (s : State) (o : Op) (c a : BitVec 5) (e0 e1 b b' : Nat), 1 ≤ b → 1 ≤ b' → e0 ≤ 32 → e1 ≤ 32 → o.pops = [] → s.poison = [] →
     o.chainIn = none → o.chainOut = none →
     let src := o.arg 1
     let d := o.arg 0
     let w := if hFmt src.h = 3 then 2 else 1
     let was := fun (x y k : Nat) => s.element src ⟨w * x + k, y, 0, 0⟩
     let ends := fun (t : State) (i : Instr) (e : Nat) => exec i s = .next t ∧
       t.ops = s.ops.filter (fun p => p.id != o.id) ∧ (t.ctx o.ctx).completed e = (s.ctx o.ctx).completed e + 1 ∧
       (∀ k, k ≠ o.ctx → t.ctx k = s.ctx k) ∧ t = { s with ops := t.ops, ctxs := t.ctxs, mem := t.mem, poison := t.poison }
     src.isTile (w * e0) e1 b →
     (s.ready? 2 o.id = some o → d.isTile (w * e1) e0 b' →
       ∀ q ∈ [(Instr.xtr c a, fun v : Nat => v),
           (.xtrc c a, fun v => convert (rndOf (BitVec.ofNat 2 (o.regs.tcfg.toNat / 4))) (hFmt src.h) (hFmt d.h) v)], o.instr = q.1 →
         let at_ := d.tileBytes e0
         ∃ t : State, ends t (.transposeOperationCompletion o.id) 2 ∧
           (∀ x y k, x < e0 → y < e1 → k < w →
             memRead t.mem (at_.1 + x * hStride d.h 1 + (w * y + k) * b') b' = q.2 (was x y k) % 2 ^ (8 * b')) ∧
           (∀ y, (y < at_.1 ∨ at_.1 + at_.2 ≤ y) → memGet t.mem y = memGet s.mem y)) ∧
     (o.instr = .upst c a → s.ready? 3 o.id = some o → d.isTile (w * e0) e1 b → (o.arg 3).isTile (w * e1) e0 b →
       let p := o.arg 3
       let one := d.tileBytes e1
       let two := p.tileBytes e0
       overlaps one.1 one.2 two.1 two.2 = false →
       ∃ t : State, ends t (.upstCompletion o.id) 3 ∧
         (∀ x y k, x < e0 → y < e1 → k < w →
           memRead t.mem (one.1 + y * hStride d.h 1 + (w * x + k) * b) b = was x y k ∧
           memRead t.mem (two.1 + x * hStride p.h 1 + (w * y + k) * b) b = was x y k) ∧
         (∀ y, (y < one.1 ∨ one.1 + one.2 ≤ y) → (y < two.1 ∨ two.1 + two.2 ≤ y) → memGet t.mem y = memGet s.mem y)))

/-! Copies and gauges (spec 07 R204 to R223). -/

/-- R206 to R208, R220, R221: CPY, CPYM and RROT whose checks pass take the next identifier and join the copies with their
receivers; a trap that the checks find is taken and a wait waits. CCAN of a copy in flight ends it and of any other does
nothing; WAITC takes the oldest completion record, and waits while there is none.

R209, R213, R218, R219, R253: a copy from rows to rows lands at a receiver, once the writes that its release covers are
performed, with every source element written there, counts its bytes
into the gauge and changes no other byte, and leaves the engine with its last receiver, writing a DONE record where it asks
for one; a copy that meets an uncorrectable error in its source ends and leaves MCHECK pending for its context.

Some clauses rest on choices of the model (logs 29, 59, 63, 68). -/
def Obligations.Copies : Prop :=
  (∀ (s : State) (c a b : BitVec 5),
     let r := s.me.eng.copy
     (∀ q ∈ [(CopyForm.one, Instr.cpy c a b), (.many, .cpym c a b), (.rotate, .rrot c a b)],
       (∀ p, s.copyCheck q.1 c a b = .ok p → ∃ (t : State) (o : Op), exec q.2 s = .next t ∧ s.sentOff t 4 q.2 o ∧
         o.copyId = nextCopyId r.lastid ∧ t.me.eng.copy = { r with lastid := nextCopyId r.lastid } ∧ o.recvs = p.cores ∧
         o.val = hBase (s.hr b) ∧ o.aux = (if r.noGauge then 0#64 else 1#64) ∧ (∀ k, k ≠ s.cur → t.ctx k = s.ctx k) ∧
         t = { s with ops := t.ops, ctxs := t.ctxs, cores := t.cores, mem := t.mem, seq := t.seq, unfilled := t.unfilled, mark := .ran } ∧
         t.me = { s.me with eng := { s.me.eng with copy := t.me.eng.copy } } ∧ (p.slot = none → t.mem = s.mem ∧ o.slot = none) ∧
         (∀ x, p.slot = some x → o.slot = some (x.loc, x.seq) ∧ memRead t.mem (x.loc + 8) 4 = (x.seq.toNat + 1) % 2 ^ 32 ∧
           ∀ y, (y < x.loc + 8 ∨ x.loc + 12 ≤ y) → memGet t.mem y = memGet s.mem y)) ∧
       (∀ u, s.copyCheck q.1 c a b = .error (.trap u) → exec q.2 s =
         .next (s.trapped (if u.engine = 31#5 then { u with engine := eCopy } else u))) ∧
       (s.copyCheck q.1 c a b = .error .wait → exec q.2 s = .next s.postponed)) ∧
     ((s.sr a).getLsbD 31 = true →
       exec (.ccan a) s = .next (s.trapped { cause := cEngineFault, fcode := fCopyId, engine := eCopy })) ∧
     ((s.sr a).getLsbD 31 = false → ∃ t : State, exec (.ccan a) s = .next t ∧ t.mark = .ran ∧
       ((∀ o ∈ s.ops, ¬(o.engine = 4 ∧ o.entry = none ∧ o.ctx = s.cur ∧ o.copyId = (s.sr a).setWidth 32)) →
         t.mem = s.mem ∧ t.ops = s.ops ∧ t.me = { s.me with doneCnt := t.me.doneCnt }) ∧
       (∀ o, s.ops.find? (fun o => o.engine == 4 && o.entry.isNone && o.ctx == s.cur && o.copyId == (s.sr a).setWidth 32) =
         some o → t.ops = s.ops.filter (fun p => p.id != o.id))) ∧
     (r.size = 0#4 →
       exec (.waitc c) s = .next (s.trapped { cause := cEngineFault, fcode := fCopyRing, engine := eCopy })) ∧
     (r.size ≠ 0#4 → r.widx = r.ridx → exec (.waitc c) s = .next s.postponed) ∧
     (r.size ≠ 0#4 → r.widx ≠ r.ridx → ∃ t : State, exec (.waitc c) s = .next t ∧
       t = { s with ctxs := t.ctxs, loads := t.loads, stores := t.stores, seq := s.seq + 1, intervals := s.intervals + 1, mark := .ran } ∧
       t.stores.map (fun w => { w with seen := [] }) = s.stores.map (fun w => { w with seen := [] }) ∧
       t.me.eng.copy = { r with ridx := r.ridx + 1#16, scopes := t.me.eng.copy.scopes } ∧ t.me.regs = s.me.regs ∧
       (c ≠ 0#5 → t.me.busy .scalar c = true) ∧ (∀ k, k ≠ c → t.me.busy .scalar k = s.me.busy .scalar k) ∧
       (∀ k, k ≠ s.cur → t.ctx k = s.ctx k) ∧ t.loads = s.loads ++ [⟨s.seq, s.cur, .scalar, c,
         .value ((r.crbase + BitVec.ofNat 64 (32 * (r.ridx.toNat % 2 ^ r.size.toNat))).setWidth 256), 0#64, s.time, false, none, s.tick⟩])) ∧
  (∀ (s : State) (o : Op), s.copy? o.id = some o → s.copyMoves o = true → o.round = 0 → o.pops = [] → o.slot = none →
     o.data = none →
     (∀ k, s.countCovered o k = false → exec (.copyLanding o.id k) s = .next s) ∧
     (∀ k n b, k ∈ o.recvs → s.countCovered o k = true → s.underTest k = false → s.cancelling o.ctx = false → s.badSource o = none → o.entry = none →
       o.regs.copy.layerMode = 0 → 1 ≤ b → (o.arg 1).isRow n b → (o.destAt k).isRow n b → hKind (o.destAt k).h = kPlain →
       let at_ := spadLoc (o.destAt k).core (o.destAt k).base.toNat
       let g := spadLoc k o.val.toNat
       let g' := (s.gaugeAt g).count (n * b)
       let last := ∀ r ∈ o.recvs, r = k
       (o.aux = 0#64 ∨ (o.aux = 1#64 ∧ g'.2 = false ∧ overlaps g 16 at_ (n * b) = false)) →
       ∃ t : State, exec (.copyLanding o.id k) s = .next t ∧ (∀ d, d ≠ o.ctx → t.ctx d = s.ctx d) ∧
         (∀ j, j < n → memRead t.mem (at_ + j * b) b = s.element (o.arg 1) ⟨j, 0, 0, 0⟩ ∨ (last ∧ o.regs.copy.records = true)) ∧
         (¬last → t.ctx o.ctx = s.ctx o.ctx ∧ t.ops = s.ops.map (fun p =>
           if p.id = o.id then { p with recvs := p.recvs.filter (fun r => r != k), landed := p.landed + n * b } else p)) ∧
         (last → t.ops = s.ops.filter (fun p => p.id != o.id) ∧
           (t.ctx o.ctx).completed 4 = (s.ctx o.ctx).completed 4 + 1) ∧
         ((last → o.regs.copy.records = false) →
           (∀ y, (y < at_ ∨ at_ + n * b ≤ y) → (o.aux = 0#64 ∨ y < g ∨ g + 16 ≤ y) → memGet t.mem y = memGet s.mem y) ∧
           (o.aux = 1#64 → t.gaugeAt g = g'.1)) ∧
         (∀ l, last → o.regs.copy.records = true → o.aux = 0#64 →
           let q := o.regs.copy
           let r := (s.ctx o.ctx).eng.copy
           let a := q.crbase + BitVec.ofNat 64 (32 * (r.widx.toNat % 2 ^ q.size.toNat))
           q.size ≠ 0#4 → (r.widx - r.ridx).toNat < 2 ^ q.size.toNat → isLocal a = true →
           s.localAt o.ctx (coreOf o.ctx) a 32 = .ok l → s.poison = [] → overlaps l 32 at_ (n * b) = false →
           (t.ctx o.ctx).eng.copy.widx = r.widx + 1#16 ∧ (t.ctx o.ctx).asleep = false ∧
           memRead t.mem l 32 = stDone + o.copyId.toNat * 2 ^ 32 + (o.landed + n * b) % 2 ^ 64 * 2 ^ 64 +
             s.time % 2 ^ 64 * 2 ^ 128 ∧
           (∀ j, j < n → memRead t.mem (at_ + j * b) b = s.element (o.arg 1) ⟨j, 0, 0, 0⟩) ∧
           ∀ y, (y < at_ ∨ at_ + n * b ≤ y) → (y < l ∨ l + 32 ≤ y) → memGet t.mem y = memGet s.mem y)) ∧
     (∀ a, s.badSource o = some a → ∃ t : State, exec (.copyFault o.id) s = .next t ∧
       t.ops = s.ops.filter (fun p => p.id != o.id) ∧
       (∃ u ∈ (t.ctx o.ctx).asyncs, u.cause = cMcheck ∧ u.async = true ∧ u.engine = eCopy ∧ u.addr = a) ∧
       (t.ctx o.ctx).asleep = false ∧ t.rontal.errCount ≠ s.rontal.errCount))

/-- R213 to R217: GINIT starts a gauge at a target, its generation kept; GREAD answers its generation, flags and arrivals;
GWAIT goes on at its generation, traps GAUGE_OVERRUN on an overrun gauge and, where a timeout is given and has passed,
GAUGE_TIMEOUT, and waits otherwise; a counted arrival that reaches the target raises the generation and starts anew, and one
that passes it overruns.

R217: GBAR goes on once every task of the group has reached the barrier with its writes performed at cluster scope, or another
participant has opened it, and waits until then.

Some clauses rest on choices of the model (logs 3, 16, 23, 29, 33, 59, 63). -/
def Obligations.GaugesAndBarriers : Prop :=
  ((∀ (s : State) (c a b : BitVec 5) (l : Nat),
     let v := (s.sr a).toNat
     let g := s.gaugeAt l
     decode 0x8D0E4000#32 = .ok (.ginit 7#5 4#5) ∧
     ((v = 0 ∨ 2 ^ 30 ≤ v) → exec (.ginit c a) s =
       .next (s.trapped { cause := cEngineFault, fcode := fHandleForm, engine := eCopy })) ∧
     (s.ownGauge (s.hr c) true = .ok l →
       (1 ≤ v → v < 2 ^ 30 → ∃ t : State, exec (.ginit c a) s = .next t ∧
         t = { s with mem := t.mem, ctxs := t.ctxs, gaugeScopes := t.gaugeScopes, mark := .ran } ∧
         t.me = { s.me with doneCnt := t.me.doneCnt } ∧ (∀ k, k ≠ s.cur → t.ctx k = s.ctx k) ∧ t.gaugeAt l = { g with init := true, ovr := false, rest := g.rest % 2 ^ 16, arr := 0, tgt := v } ∧
         (∀ y, (y < l ∨ l + 16 ≤ y) → memGet t.mem y = memGet s.mem y)) ∧
       ((∀ f ∈ s.me.faults, f.engine ≠ 5) →
         (g.ovr = true → exec (.gwait c a b) s =
           .next (s.trapped { cause := cGaugeOverrun, addr := hBase (s.hr c), engine := eCopy })) ∧
         (g.ovr = false → 0 ≤ seqDiff g.gen ((s.sr a).setWidth 32) → ∃ t : State, exec (.gwait c a b) s = .next t ∧
           t.mark = .ran ∧ t.mem = s.mem ∧ t.me = { s.me with race := t.me.race, doneCnt := t.me.doneCnt } ∧
           ∀ k, k ≠ s.cur → t.ctx k = s.ctx k) ∧
         (g.ovr = false → seqDiff g.gen ((s.sr a).setWidth 32) < 0 →
           (s.sr b = 0#64 ∨ s.me.waitFrom = none → exec (.gwait c a b) s = .next s.postponed) ∧
           (∀ w, s.me.waitFrom = some w → s.sr b ≠ 0#64 → w + (s.sr b).toNat ≤ s.time → exec (.gwait c a b) s =
             .next (s.trapped { cause := cGaugeTimeout, addr := hBase (s.hr c), engine := eCopy }))))) ∧
     (s.ownGauge (s.hr a) true = .ok l → ∃ (t : State) (w : Word), exec (.gread c a) s = .next t ∧
       t = { s with ctxs := t.ctxs, loads := t.loads, seq := s.seq + 1, mark := .ran } ∧ t.me.regs = s.me.regs ∧
       (c ≠ 0#5 → t.me.busy .scalar c = true) ∧ (∀ k, k ≠ c → t.me.busy .scalar k = s.me.busy .scalar k) ∧
       (∀ k, k ≠ s.cur → t.ctx k = s.ctx k) ∧
       t.loads = s.loads ++ [⟨s.seq, s.cur, .scalar, c, .value (w.setWidth 256), 0#64, s.time, false, none, s.tick⟩] ∧
       w.toNat = g.gen.toNat * 2 ^ 32 + (if g.ovr then 2 ^ 31 else 0) + (if g.init then 2 ^ 30 else 0) +
         min g.arr (2 ^ 30 - 1)) ∧
     (gaugeForm (s.hr c) = false → exec (.gwait c a b) s =
       .next (s.trapped { cause := cEngineFault, fcode := fHandleForm, engine := eCopy }))) ∧
   (∀ (s : State) (c : Nat) (h : BitVec 5) (a b : Word) (at_ : Nat), s.gaugeWait c = some (h, a, b) →
     let g := s.gaugeAt (spadLoc (coreOf c) (hBase ((s.ctx c).hreg h)).toNat)
     ((g.ovr = true ∨ 0 ≤ seqDiff g.gen (a.setWidth 32)) → exec (.gaugeTimeout c) s = .next s) ∧
     ((s.ctx c).waitFrom = some at_ → (s.ctx c).blocked = true → b ≠ 0#64 → at_ + b.toNat ≤ s.time →
       g.ovr = false → seqDiff g.gen (a.setWidth 32) < 0 → exec (.gaugeTimeout c) s = .next (s.takeTrap c { cause := cGaugeTimeout, engine := eCopy, addr := hBase ((s.ctx c).hreg h) }))) ∧
   (∀ (g : Gauge) (n : Nat), g.arr < 2 ^ 32 → n < 2 ^ 31 → g.tgt < 2 ^ 30 →
     ((g.init = false ∨ g.ovr = true) → g.count n = ({ g with ovr := true }, true)) ∧
     (g.init = true → g.ovr = false →
       (g.arr + n < g.tgt → g.count n = ({ g with arr := g.arr + n }, false)) ∧
       (g.arr + n = g.tgt → g.count n = ({ g with gen := g.gen + 1#32, arr := 0 }, false)) ∧
       (g.tgt < g.arr + n → (g.count n).1.ovr = true ∧ (g.count n).2 = true ∧ (g.count n).1.gen = g.gen)))) ∧
  (∀ s : State,
     let n := s.me.gbars + 1
     let group := s.groupOf s.cur
     let here := fun (d : Nat) => d = s.cur ∨ n ≤ (s.ctx d).gbars ∨ ((s.ctx d).atBar = true ∧ n ≤ (s.ctx d).gbars + 1)
     let written := fun (d : Nat) => s.storesDone d 2 = true ∧
       ∀ o ∈ s.ops, o.ctx = d → o.entry = none → ∀ x ∈ o.dests, x.2 = 0
     let reached := s.groupSizeOf s.cur ≤ max group.length 1 ∧ ∀ d ∈ s.cur :: group, here d ∧ written d
     ((n ≤ s.me.barOpen ∨ reached) → ∃ t : State, exec .gbar s = .next t ∧
       t = { s with ctxs := t.ctxs, stores := t.stores, intervals := s.intervals + 1, mark := .ran } ∧
       t.stores.map (fun w => { w with seen := [] }) = s.stores.map (fun w => { w with seen := [] }) ∧
       t.me = { s.me with gbars := n, atBar := false, barOpen := t.me.barOpen, race := t.me.race, doneCnt := t.me.doneCnt } ∧
       ∀ d, d ≠ s.cur → t.ctx d =
         if d ∈ group then { s.ctx d with barOpen := max (s.ctx d).barOpen n } else s.ctx d) ∧
     (¬(n ≤ s.me.barOpen ∨ reached) → exec .gbar s = .next s.postponed))

/-! The weight store, versions and tokens (spec 07 R231 to R243). -/

/-- R231, R234: WACT opens a row of a closed bank and sets 6 steps until a WLD, WPRE closes a bank and sets 4 steps until a WACT,
WREF refreshes the bank's next 16 rows; WLD reads 512 bytes of a row this context holds open, which land 12 steps later; WST
with a local source joins its operations. A WACT of an open bank, and a WPRE or WLD of one that this context does not hold
open, take ENGINE_FAULT WS_OPEN; a WACT within the 4 steps and a WLD within the 6 take WS_TIMING. A WST of a region without the
running version takes VERSION_ABSENT, and one of a version that a running launch has bound PROT.

Some clauses rest on choices of the model (logs 34, 63). -/
def Obligations.WeightStoreWords : Prop :=
  ∀ (s : State) (a c : BitVec 5) (b : Nat),
    let A := s.sr a
    let o := wsOpnd A
    let core := coreOf s.cur
    let q := cubeOf s.cur
    let key := bankKey core o.layer b
    let slot := o.layer * 16 + b
    let fault := fun (i : Instr) (f : BitVec 8) => exec i s = .next (s.trapped { cause := cEngineFault, fcode := f })
    let untested := fun (t : State) => ((s.cube q).busRun = none → t.cubes = s.cubes) ∧ (∀ p, p ≠ q → t.cube p = s.cube p) ∧
      t.cube q = { s.cube q with busRun := (t.cube q).busRun, testAborts := (t.cube q).testAborts }
    let banks := fun (i : Instr) (k : Bank) (f : Ctx → Ctx) => ∃ t : State, exec i s = .next t ∧
      t = { s with banks := t.banks, ctxs := t.ctxs, cubes := t.cubes, mark := .ran } ∧ untested t ∧ t.bank key = k ∧
      (∀ j, j ≠ key → t.bank j = s.bank j) ∧ t.me = f s.me ∧ ∀ d, d ≠ s.cur → t.ctx d = s.ctx d
    s.wsBank o = .ok b →
    (∀ row, wsLayout A false = true → s.wsRow o = .ok row →
      ((s.bank key).open_ = none → tblFind s.me.wsPre slot = none →
        banks (.wact a) { s.bank key with open_ := some (row, s.cur) } (fun x => { x with wsAct := tblSet x.wsAct slot 6 })) ∧
      ((s.bank key).open_ ≠ none → fault (.wact a) fWsOpen) ∧
      ((s.bank key).open_ = none → tblFind s.me.wsPre slot ≠ none → fault (.wact a) fWsTiming)) ∧
    (wsLayout A false = true → (∀ p, (s.bank key).open_ = some p → p.2 = s.cur) →
      banks (.wpre a) { s.bank key with open_ := none } (fun x => { x with wsPre := tblSet x.wsPre slot 4 })) ∧
    (wsLayout A false = true → (∃ p, (s.bank key).open_ = some p ∧ p.2 ≠ s.cur) → fault (.wpre a) fWsOpen) ∧
    (wsLayout A false = true → o.region = 0 → o.row = 0 →
      banks (.wref a) { s.bank key with refreshed := s.time * 21, nextRow := ((s.bank key).nextRow + 16) % 256 }
        (fun x => { x with wsAct := tblSet x.wsAct slot 6 })) ∧
    (∀ row, wsLayout A true = true → handleOk (s.hr c) = true → hKind (s.hr c) = kPlain → hD (s.hr c) = false →
      isLocal (hBase (s.hr c)) = true → areaOf (hBase (s.hr c)) = 2 → layerOf (hBase (s.hr c)) = o.layer →
      offsetOf (hBase (s.hr c)) % 64 = 0 → offsetOf (hBase (s.hr c)) + 512 ≤ 2 ^ 17 → handleAligned (s.hr c) = true →
      s.localAt s.cur core (hBase (s.hr c)) 512 = .ok (spadLoc core (hBase (s.hr c)).toNat) → s.wsRow o = .ok row →
      ((s.bank key).open_ ≠ some (row, s.cur) → fault (.wld c a) fWsOpen) ∧
      ((s.bank key).open_ = some (row, s.cur) → tblFind s.me.wsAct slot ≠ none → fault (.wld c a) fWsTiming) ∧
      ((s.bank key).open_ = some (row, s.cur) → tblFind s.me.wsAct slot = none →
        let busy := s.rangeBusy core (some 6) (spadLoc core (hBase (s.hr c)).toNat) 512
        (busy = true → exec (.wld c a) s = .next s.postponed) ∧
        (busy = false → ∃ (t : State) (p : Op), exec (.wld c a) s = .next t ∧
          t = { s with ops := s.ops ++ [p], seq := s.seq + 1, cubes := t.cubes, mark := .ran } ∧ untested t ∧
          p.id = s.seq ∧ p.engine = 6 ∧ p.ranges = [] ∧ p.instr = .wld c a ∧ p.ctx = s.cur ∧ p.left = 12 ∧
          p.started = s.me.inh ∧ (p.arg 0).base = hBase (s.hr c) ∧
          p.data = some ((memBytes s.mem (wsLoc core o.layer b row o.off) 512).map BitVec.toNat) ∧
          (p.recvs = [] ↔ s.poisoned (wsLoc core o.layer b row o.off) 512 = false)))) ∧
    (∀ fmt e0 e1, let h := s.hr c
      let n := bitsOf h.toNat 39 36
      let g := (s.cube q).wsRegion n
      let now := g.halfOf (s.currentVer g.polder)
      let bound := fun (f : Launch → Prop) => ∃ l ∈ s.launches, 0 < l.begun ∧ f l
      let trapsOf := fun (u : BitVec 8) => exec (.wst c a) s = .next (s.trapped { cause := u })
      handleOk h = true → hKind h = kWeightStore → hFmt h = fmt → hW h = false → hQ h = false → hD h = false → hLrec h = 0 →
      bitsOf h.toNat 63 40 = 0 → handleAligned h = true → s.operand 6 a fmt e0 e1 → extents h = (e0, e1, 1, 1) →
      (n = 0 ∨ g.disabled = true → trapsOf cXlate) ∧
      (n ≠ 0 → g.disabled = false → (s.wstFits g 0 h none = true ∨ s.wstFits g 1 h none = true) →
        let mine := s.writerOf (s.polderOf s.cur) (s.effField 4 g.polder 10 1)
        let same := fun (half : Nat) => g.tag half = s.me.wsWver.toNat
        (mine = false → trapsOf cProt) ∧
        (mine = true → now = none → trapsOf cVersionAbsent) ∧
        (∀ half, mine = true → now = some half →
          (same half → bound (fun l => l.polder = g.polder) → trapsOf cProt) ∧
          (¬ same half → bound (fun l => l.version.toNat = g.tag (1 - half)) → trapsOf cProt) ∧
          (∀ w, (same half ∧ ¬ bound (fun l => l.polder = g.polder) ∧ w = half ∨
              ¬ same half ∧ ¬ bound (fun l => l.version.toNat = g.tag (1 - half)) ∧ w = 1 - half) →
            (s.wstFits g w h none = false → trapsOf cXlate) ∧
            (s.wstFits g w h none = true → 64 ≤ s.rangesUsed core → exec (.wst c a) s = .next s.postponed) ∧
            (s.wstFits g w h none = true → s.rangesUsed core < 64 →
              ∃ (t : State) (p : Op), exec (.wst c a) s = .next t ∧ s.sentOff t 6 (.wst c a) p ∧
                t = { s with ops := t.ops, seq := t.seq, cubes := t.cubes, mark := t.mark } ∧
                p.val.toNat = n ∧ p.aux.toNat = g.base w ∧ (same half → t.cubes = s.cubes) ∧
                (¬ same half → (t.cube q).wsRegion n =
                    { g with ver := if w = 0 then (s.me.wsWver.toNat, g.ver.2) else (g.ver.1, s.me.wsWver.toNat) } ∧
                  t.cube q = { s.cube q with rga := (t.cube q).rga } ∧
                  (∀ m, m ≠ n → (t.cube q).wsRegion m = (s.cube q).wsRegion m) ∧
                  ∀ p, p ≠ q → t.cube p = s.cube p))))))

/-- R219, R237 to R239: the 512 bytes of a due WLD land in the face, and no other byte changes; one whose row met an uncorrectable
error, and a WST that meets a vanished bank, writes no byte but a FAULT record with cause MCHECK and leaves MCHECK pending; a WST
ends with its bytes written; a bank whose count has run out is refreshed, counted in the column's guard counter, its open row
kept.

Some clauses rest on choices of the model (logs 34, 59). -/
def Obligations.WeightStoreEvents : Prop :=
  ∀ (s : State) (o : Op),
    let faulted := fun (t : State) =>
      let g := o.regs.copy
      let r := (s.ctx o.ctx).eng.copy
      let at_ := g.crbase + BitVec.ofNat 64 (32 * (r.widx.toNat % 2 ^ g.size.toNat))
      t.ops = s.ops.filter (fun p => p.id != o.id) ∧
      (∃ u, u.cause = cMcheck ∧ (t.ctx o.ctx).asyncs = (s.ctx o.ctx).asyncs ++ [u]) ∧
      (g.size = 0#4 ∨ 2 ^ g.size.toNat ≤ (r.widx - r.ridx).toNat → t.mem = s.mem ∧
        (t.ctx o.ctx).eng.copy = { r with lost := if r.lost = 0xFFFF#16 then r.lost else r.lost + 1 }) ∧
      (∀ m, g.size ≠ 0#4 → (r.widx - r.ridx).toNat < 2 ^ g.size.toNat → s.poisoned m 32 = false →
        s.dataAt o.ctx (coreOf o.ctx) (s.agentOf o.ctx) .write at_ 32 = .ok m →
        memRead t.mem m 2 = 2 + 256 * cMcheck.toNat ∧ (t.ctx o.ctx).eng.copy.widx = r.widx + 1#16 ∧
        ∀ y, (y < m ∨ m + 32 ≤ y) → memGet t.mem y = memGet s.mem y)
    (∀ bytes : List Nat, let l := spadLoc o.core (o.arg 0).base.toNat
      s.ops.find? (fun p => p.id == o.id && p.exposed) = some o → o.left = 0 → ((s.ctx o.ctx).inh = false ∨ o.started = true) →
      s.rangeHeld o.core none l 512 = false → o.data = some bytes → bytes.length = 512 →
      (o.recvs = [] → ∃ t : State, exec (.wldLanding o.id) s = .next t ∧
        t = { s with ops := s.ops.filter (fun p => p.id != o.id), mem := t.mem, poison := t.poison } ∧
        (∀ j, j < 512 → memGet t.mem (l + j) = BitVec.ofNat 8 (bytes.getD j 0)) ∧
        (∀ y, (y < l ∨ l + 512 ≤ y) → memGet t.mem y = memGet s.mem y)) ∧
      (o.recvs ≠ [] → ∃ t : State, exec (.wldLanding o.id) s = .next t ∧ faulted t)) ∧
    (s.ops.find? (fun p => p.id == o.id && p.engine == 6 && !p.exposed) = some o → s.accessesDone o = true →
      (∀ p ∈ s.ops, p.engine = 6 → p.exposed = false → p.core = o.core → o.id ≤ p.id) → s.poison = [] →
      isLocal (o.arg 1).base = true →
      (∀ q, (s.cube q).busRun = none) → (∀ ps, s.wstPokes o = some ps → ∃ t : State, exec (.wstCompletion o.id) s = .next t ∧
        t.ops = s.ops.filter (fun p => p.id != o.id) ∧ (o.engine = 6 → o.pops = [] → (∀ d, t.ctx d = s.ctx d) ∧
          (∀ y, (∀ p ∈ ps, p.1 ≠ y) → memGet t.mem y = memGet s.mem y) ∧ ((ps.map (·.1)).Nodup →
            ∀ p ∈ ps, memGet t.mem p.1 = (memGet s.mem p.1 &&& ~~~p.2.1) ||| (p.2.2 &&& p.2.1)))) ∧
      (s.wstPokes o = none → o.pops = [] → ∃ t : State, exec (.wstCompletion o.id) s = .next t ∧ faulted t)) ∧
    (∀ bank, s.bankLeft bank = 0 → bank / 128 < s.part.cubes * 96 →
      s.vanished (bank / 128) (bank / 16 % 8) (bank % 16) = false →
      ∃ t : State, exec (.guardRefresh bank) s = .next t ∧ t = { s with banks := t.banks, columns := t.columns, cubes := t.cubes } ∧
        t.bank bank = { s.bank bank with refreshed := s.time * 21, nextRow := ((s.bank bank).nextRow + 16) % 256 } ∧
        (t.column (bank / 128)).guard.toNat = min (2 ^ 32 - 1) ((s.column (bank / 128)).guard.toNat + 1) ∧
        (∀ k, k ≠ bank / 128 → t.column k = s.column k) ∧ ∀ j, j ≠ bank → t.bank j = s.bank j)

/-- R240 to R243: VPUB publishes a newer version of a region that the context may write once its stores and engine operations
are done, and takes PROT for one that is not newer or not the context's to write; VSWT of a published version enters it as its
polder's pending version, and takes VERSION_ABSENT where it is not published; TEMIT appends a 32-byte record to a local ring and
counts it, and waits for a free slot; a publication from another package is taken as it arrives.

Some clauses rest on choices of the model (logs 35, 59). -/
def Obligations.Versions : Prop :=
  ∀ (s : State) (a b c : BitVec 5),
    let x := (s.sr a).toNat
    let v := (s.sr b).toNat
    let p := s.polderOf s.cur
    let newer := ∀ q, s.published x = some q → 0 < verDiff (BitVec.ofNat 16 v) q
    let out := ∃ q, s.published (s.effField 4 p 10 1) = some q ∧ 0 ≤ verDiff q (BitVec.ofNat 16 x)
    (¬(x < 256 ∧ v < 2 ^ 16 ∧ s.writerOf p x = true ∧ newer) →
      exec (.vpub a b) s = .next (s.trapped { cause := cProt })) ∧
    (x < 256 → v < 2 ^ 16 → s.writerOf p x = true → newer →
      (s.storesDone s.cur 5 = true → s.opsDone s.cur = true → ∃ t : State, exec (.vpub a b) s = .next t ∧
        t = { s with pubs := t.pubs, ctxs := t.ctxs, intervals := s.intervals + 1, out := t.out, mark := .ran } ∧
        t.out = s.out ++ (if 1 < s.fabric.members.length then [.publication (BitVec.ofNat 8 x) (BitVec.ofNat 16 v)] else []) ∧
        t.published x = some (BitVec.ofNat 16 v) ∧ (∀ y, y ≠ x → t.published y = s.published y) ∧
        t.me = { s.me with race := t.me.race } ∧ ∀ d, d ≠ s.cur → t.ctx d = s.ctx d) ∧
      (s.storesDone s.cur 5 = false ∨ s.opsDone s.cur = false → exec (.vpub a b) s = .next s.postponed)) ∧
    (2 ^ 16 ≤ x → exec (.vswt a) s = .next (s.trapped { cause := cProt })) ∧
    (x < 2 ^ 16 → ¬ out → exec (.vswt a) s = .next (s.trapped { cause := cVersionAbsent })) ∧
    (x < 2 ^ 16 → out →
      let r := polderAt (s.effPolder 3 p)
      ∃ t : State, exec (.vswt a) s = .next t ∧ t = { s with mem := t.mem, mark := .ran } ∧
        memRead t.mem (r + 14) 2 = x ∧ memRead t.mem (r + 2) 2 = memRead s.mem (r + 2) 2 ||| 4 ∧
        ∀ y, y ≠ r + 2 → y ≠ r + 3 → y ≠ r + 14 → y ≠ r + 15 → memGet t.mem y = memGet s.mem y) ∧
    (∀ slot, let h := s.hr c
      let k := coreOf s.cur
      let at_ := spadLoc k (slotBase h slot.seq).toNat
      let busy := s.rangeBusy k none (spadLoc k (hBase h).toNat) 64 ∨ s.rangeBusy k none at_ (spanOf h none)
      tokenRing h = true → hD h = false → isLocal (hBase h) = true → s.claimable 31#5 h k = .ok (slot, none) →
      slot.loc = spadLoc k (hBase h).toNat → (hBase h).toNat % 2 ^ 30 + 64 + hDepth h * hStride h 3 + 32 ≤ 2 ^ 30 →
      (slot.free = false ∨ busy → exec (.temit c a b) s = .next s.postponed) ∧
      (slot.free = true → ¬ busy → ∃ t : State, exec (.temit c a b) s = .next t ∧
        t = { s with mem := t.mem, poison := t.poison, ctxs := t.ctxs, unfilled := t.unfilled, mark := .ran } ∧
        t.me = { s.me with tokSeq := s.me.tokSeq + 1#32 } ∧ (∀ d, d ≠ s.cur → t.ctx d = s.ctx d) ∧
        memRead t.mem at_ 32 = s.tokenRecord (s.sr a) (s.sr b) ∧
        memRead t.mem (slot.loc + 8) 4 = (slot.seq.toNat + 1) % 2 ^ 32 ∧
        (t.openSlots (s.teamOf s.cur) slot.loc = [] → memRead t.mem (slot.loc + 4) 4 = (slot.seq.toNat + 1) % 2 ^ 32) ∧
        ∀ y, (y < slot.loc + 4 ∨ slot.loc + 12 ≤ y) → (y < at_ ∨ at_ + 32 ≤ y) → memGet t.mem y = memGet s.mem y)) ∧
    (∀ (r : BitVec 8) (ver : BitVec 16), ∃ t : State, exec (.versionPublication r ver) s = .next t ∧
      t = { s with pubs := t.pubs } ∧ t.published r.toNat = some ver ∧ ∀ y, y ≠ r.toNat → t.published y = s.published y)

/-! Quorum joins (spec 09 R299 to R304). -/

/-- R299 to R304: JOPEN enrols a context at an open record and clears its slot, ends its task where the record is released already,
and takes JOIN_STATE where the record does not fit; JACC sends a contribution off, and does nothing after the release; JARR waits
for the writes it covers, and answers 3 where the record is no longer open, 1 while contributors are missing and 2 to the arrival
that makes the quorum; JWAIT waits until the release, and closes the join, an arrival that still waits being late; KPT marks a kill point; a contribution lands in its
slot while the record is open; the release writes the target, the time and the state, and marks every straggler; a straggler that
stands where it may be killed is.

Some clauses rest on choices of the model (logs 36, 59). -/
def Obligations.QuorumJoins : Prop :=
  ∀ (s : State) (a c : BitVec 5),
    let apart := fun (ls : List Nat) => ls.Pairwise (fun x y => x + 64 ≤ y ∨ y + 64 ≤ x)
    let off := fun (ls : List Nat) (y : Nat) => ∀ l ∈ ls, y < l ∨ l + 64 ≤ y
    let fault := fun (i : Instr) => exec i s = .next (s.trapped { cause := cEngineFault, fcode := fJoinState })
    (∀ A lines, joinHandle (s.hr a) = .ok A → s.joinLines (s.agentOf s.cur) A = .ok lines →
      let r := s.joinAt lines
      let index := (s.me.task.map (·.index)).getD 0
      let i := index - r.first
      let fits := s.me.openJoin = none ∧ r.state = 1 ∧ 1 ≤ r.q ∧ r.q ≤ r.n ∧ r.n ≤ 256 ∧ r.rule ≤ 2 ∧ r.first ≤ index ∧
        i < r.n ∧ r.enr.getLsbD i = false
      (r.state = 2 ∨ r.state = 3 → exec (.jopen a) s = .next { s.modMe (fun x => x.endBy .killed) with mark := .waits }) ∧
      (r.state ≠ 2 → r.state ≠ 3 → ¬ fits → fault (.jopen a)) ∧
      (∀ pages, fits → s.spanPages (s.agentOf s.cur) .write (r.slot r.stage i) r.size = .ok pages →
        let at_ := fun (j : Nat) => pageLoc pages (r.slot r.stage i + BitVec.ofNat 64 j)
        ∃ t : State, exec (.jopen a) s = .next t ∧
          t = { s with mem := t.mem, ctxs := t.ctxs, poison := t.poison, mark := .ran } ∧
          t.me = { s.me with join := some ⟨A, lines, i, false, s.me.join.bind (·.kill), none⟩ } ∧
          (∀ d, d ≠ s.cur → t.ctx d = s.ctx d) ∧ (∀ j, j < r.size → memGet t.mem (at_ j) = 0#8) ∧
          (∀ y, off lines y → (∀ j, j < r.size → at_ j ≠ y) → memGet t.mem y = memGet s.mem y) ∧
          (apart lines → (∀ j, j < r.size → off lines (at_ j)) → (t.joinAt lines).enr = r.enr ||| (1#256 <<< i)))) ∧
    (s.released (s.hr c) = true → exec (.jacc c a) s = .next { s with mark := .ran }) ∧
    (∀ (j : OpenJoin) (x : Arg) (pages : Tbl Nat), let r := s.joinAt j.lines
      let src := s.hr a
      let slot := r.slot r.stage j.idx
      let now := (∀ q ∈ x.ranges, s.rangeBusy (coreOf s.cur) (some 8) q.1 q.2 = false) ∧
        s.rangesUsed (coreOf s.cur) + x.ranges.length ≤ 64
      s.released (s.hr c) = false → s.joined (s.hr c) true = .ok j → handleOk src = true → hKind src = kPlain → hFmt src = 0 →
      hD src = false → handleAligned src = true → extents src = extents r.target →
      s.anyArg 31#5 1 .read (coreOf s.cur) src = .ok x → s.spanPages (s.agentOf s.cur) .write slot r.size = .ok pages →
      (now → ∃ (t : State) (o : Op), exec (.jacc c a) s = .next t ∧ s.sentOff t 8 (.jacc c a) o ∧ s.onlyEngines t ∧
        o.val = slot ∧ o.recvs = j.lines ∧ o.arg 1 = x.o ∧ (o.arg 0).pages = pages ∧ o.ranges = x.ranges) ∧
      (¬ now → exec (.jacc c a) s = .next s.postponed)) ∧
    (∀ A, joinHandle (s.hr a) = .ok A →
      ((∀ j, s.me.openJoin = some j → j.record ≠ A) → fault (.jarr c a) ∧ fault (.jwait a)) ∧
      ((∃ j, s.me.openJoin = some j ∧ j.arrived = true) → fault (.jarr c a))) ∧
    (∀ j, s.joined (s.hr a) true = .ok j →
      let r := s.joinAt j.lines
      let covered := s.coveredDone s.cur j.record (if s.collNames j.lines then 5 else 4)
      let mine := fun (t : State) => t.me.join = some { j with arrived := true } ∧ t.me.regs = s.me.regs ∧
        (c ≠ 0#5 → t.me.busy .scalar c = true)
      let answers := fun (t : State) (n : Nat) =>
        t.loads = s.loads ++ [⟨s.seq, s.cur, .scalar, c, .value (BitVec.ofNat 256 n), 0#64, s.time, false, none, s.tick⟩]
      (covered = false → exec (.jarr c a) s = .next s.postponed) ∧
      (covered = true → s.contributing s.cur = true → ∃ t : State, exec (.jarr c a) s = .next t ∧ mine t ∧
        t = { s with ctxs := t.ctxs, loads := t.loads, seq := s.seq + 1, intervals := s.intervals + 1, mark := .ran } ∧
        t.loads = s.loads ++ [⟨s.seq, s.cur, .scalar, c, .arrival, 0#64, s.time, false, none, s.tick⟩]) ∧
      (covered = true → s.contributing s.cur = false → r.state ≠ jOpen → ∃ t : State, exec (.jarr c a) s = .next t ∧ mine t ∧
        t = { s with ctxs := t.ctxs, loads := t.loads, seq := s.seq + 1, intervals := s.intervals + 1, mark := .ran } ∧
        answers t 3) ∧
      (covered = true → s.contributing s.cur = false → r.state = jOpen → r.arrn + 1 ≠ r.q →
        ∃ t : State, exec (.jarr c a) s = .next t ∧ mine t ∧ answers t 1 ∧
          (t = { s with
            ctxs := t.ctxs, loads := t.loads, mem := t.mem, poison := t.poison, seq := s.seq + 1, intervals := s.intervals + 1,
            mark := .ran }) ∧
        ∀ l0 l1 l2, j.lines = [l0, l1, l2] → (∀ y, off j.lines y → memGet t.mem y = memGet s.mem y) ∧
          (apart j.lines → (t.joinAt j.lines).map = r.map ||| (1#256 <<< j.idx) ∧
            (t.joinAt j.lines).arrn = (r.arrn + 1) % 2 ^ 16 ∧ (t.joinAt j.lines).state = 1)) ∧
      (covered = true → s.contributing s.cur = false → r.state = jOpen → r.arrn + 1 = r.q → s.saved = [] →
        ∃ t : State, exec (.jarr c a) s = .next t ∧ t.mark = .ran ∧ answers t 2 ∧
          ∀ l0 l1 l2, j.lines = [l0, l1, l2] → memGet t.mem (l0 + 5) = 3#8 ∧
            (apart j.lines → (t.joinAt j.lines).reltime = s.time % 2 ^ 64))) ∧
    (∀ j, s.joined (s.hr a) false = .ok j →
      ((s.joinAt j.lines).state ≠ jReleased → exec (.jwait a) s = .next s.postponed) ∧
      ((s.joinAt j.lines).state = jReleased → ∃ t : State, exec (.jwait a) s = .next t ∧
        t = { s with ctxs := t.ctxs, loads := t.loads, stores := t.stores, intervals := s.intervals + 1, mark := .ran } ∧
        t.stores.map (fun w => { w with seen := [] }) = s.stores.map (fun w => { w with seen := [] }) ∧
        t.loads = s.loads.map (fun l => if l.ctx = s.cur ∧ l.kind = .arrival then { l with kind := .value 3#256 } else l) ∧
        t.me = { s.me with join := some { j with shut := some (s.joinBits j.lines) }, race := t.me.race } ∧
        t.me.race.floor = ((s.intervals + 1).toNat, if s.collNames j.lines then 5 else 4) ∧
        ∀ d, d ≠ s.cur → t.ctx d = s.ctx d)) ∧
    exec .kpt s = .next (s.ran (fun x => { x with killPoint := true })) ∧
    (∀ o, s.ready? 8 o.id = some o → s.poison = [] → isLocal (o.arg 1).base = true → o.pops = [] →
      ∃ t : State, exec (.jaccCompletion o.id) s = .next t ∧ t.ops = s.ops.filter (fun p => p.id != o.id) ∧
        let bs := ((indices (o.arg 1).h).map (s.element (o.arg 1))).flatMap (leBytes 4)
        let at_ := fun (j : Nat) => pageLoc (o.arg 0).pages (o.val + BitVec.ofNat 64 j)
        let state := (s.joinAt o.recvs).state
        ((∀ l ∈ s.loads, l.ctx = o.ctx → l.kind ≠ .arrival) → (∀ d, t.ctx d = s.ctx d) ∧ t.loads = s.loads ∧
          (state ≠ jOpen → t.mem = s.mem) ∧
          (state = jOpen → (∀ y, (∀ j, j < bs.length → at_ j ≠ y) → memGet t.mem y = memGet s.mem y) ∧
            ((∀ i j, i < bs.length → j < bs.length → at_ i = at_ j → i = j) →
              ∀ j, j < bs.length → memGet t.mem (at_ j) = bs.getD j 0#8))) ∧
        (∀ l j, s.loads.find? (fun l => l.ctx == o.ctx && l.kind == .arrival) = some l → (s.ctx o.ctx).openJoin = some j →
          (∀ p ∈ s.ops, p.ctx = o.ctx → p.engine = 8 → p.id = o.id) → state ≠ jOpen → j.lines = o.recvs →
          ∀ m ∈ t.loads, m.id = l.id → m.kind = .value 3#256)) ∧
    (∀ (k launch l0 l1 l2 : Nat), s.saved = [] →
      let lines := [l0, l1, l2]
      let r := s.joinAt lines
      let t := s.release k launch lines
      memGet t.mem (l0 + 5) = 3#8 ∧
      (∀ d j, (s.ctx d).holdsJoin lines launch = some j → tblFind s.ctxs d ≠ none →
        t.ctx d = (if r.enr.getLsbD j.idx && !r.map.getLsbD j.idx then { s.ctx d with join := some { j with kill := some s.time } }
          else s.ctx d)) ∧
      (∀ (n : Nat) (at_ : Nat → Nat), let h := r.target
        isLocal (hBase h) = false → hLrec h = 0 → extents h = (n, 1, 1, 1) →
        (∀ m, m < 4 * n → s.byteAt (s.ownAgent k) .write (hBase h + BitVec.ofNat 64 m) = .ok (at_ m) ∧ off lines (at_ m)) →
        (∀ i j, i < 4 * n → j < 4 * n → at_ i = at_ j → i = j) →
        ∀ m, m < 4 * n → memGet t.mem (at_ m) = BitVec.ofNat 8 ((s.releaseValues k r).getD (m / 4) 0 / 256 ^ (m % 4)))) ∧
    (∀ k j t0, let x := s.ctx k
      x.join = some j → j.kill = some t0 → x.task ≠ none → x.ending = .none →
      (x.asleep = true ∨ x.owed = 0 ∧ (x.killPoint = true ∨ x.safe ≠ none ∨ t0 + 20000 ≤ s.time ∨ x.rowsOwed ≠ [] ∨
        x.blocked = true ∧ x.recompute = none)) →
      ∃ t : State, exec (.stragglerKill k) s = .next t ∧ (t.ctx k).ending = .killed ∧
        (∀ o ∈ t.ops, ¬(o.ctx = k ∧ o.engine = 4 ∧ o.entry = none)) ∧
        ((∀ o ∈ s.ops, o.ctx = k → o.engine = 4 → o.entry ≠ none) →
          t = s.modCtx k (fun x => { x with ending := .killed, preempt := .none }))) ∧
    (∀ k, s.killDue k = false → exec (.stragglerKill k) s = .next s)

/-! Collectives (spec 12 R329 to R339). -/

/-- R329, R333, R334, R336, R337: COLL whose checks pass puts a collective in flight under the next identifier; a record that breaks
its form takes COLL_FORM and one for another group COLL_GROUP; CSIG answers the order signature of one that is done, waits for one
in flight, takes the fault of one that has failed, and takes COLL_ID where it names none.

R330, R331, R334, R335, R338, R339: the walker sends a chunk to another member as a transfer that leaves the module, one to
itself into its own staging, once nothing issued earlier stands before it; a transfer that arrives at a core with room waits in
its staging, and one without room in the network; one at its turn is folded into the destination, counted and acknowledged, and a
turn of an evicted member is filled and counted; a transfer of another record faults the collective; a collective whose folds are
done and whose sends are acknowledged completes; a link that fails is noted, and faults a collective that it leaves no way.

Some clauses rest on choices of the model (logs 45, 59, 63, 67). -/
def Obligations.Collectives : Prop :=
  (∀ (s : State) (a b c : BitVec 5),
     let last := s.me.eng.collLast
     let chunk := s.holdsChunk (coreOf s.cur)
     let fault := fun (i : Instr) (f : BitVec 8) =>
       exec i s = .next (s.trapped { cause := cEngineFault, fcode := f, engine := 5#5 })
     (∀ q ∈ [((none : Option (BitVec 5)), Instr.coll a), (some b, .collJ a b)],
       (∀ r, s.collRecord (s.sr a) = .ok r →
         (r.valid = false ∨ r.formed s.rankOf chunk = false → fault q.2 fCollForm) ∧
         (r.valid = true → r.formed s.rankOf chunk = true →
           (r.gsize ≠ s.fabric.members.length ∨ s.fabric.members.length ≤ 1) → fault q.2 fCollGroup)) ∧
       (∀ p, s.collCheck a q.1 = .ok p →
         let o : Coll :=
           { id := s.seq, ctx := s.cur, ident := nextIdent last, record := p.record.bits, pages := p.pages
             regs := s.me.eng.copy, born := s.tick, join := p.join, members := s.fabric.members, rank := s.rankOf, sent := 0, folded := [], missed := [], unacked := []
             evicted := [], before := none, switchAt := none, done := false, fault := 0, silent := false, ranges := p.ranges
             srcs := (p.record.srcSpan s.rankOf).toList, dests := (p.record.dstSpan s.rankOf).toList }
         ∃ t : State, exec q.2 s = .next t ∧ t.mark = .ran ∧ t.mem = s.mem ∧ t.me.eng.collLast = nextIdent last ∧
           t.me.regs = s.me.regs ∧ t.me.hregs = s.me.hregs ∧ t.me.preds = s.me.preds ∧
           (s.fabric.downLinks = [] → (s.core (coreOf s.cur)).staging = [] →
             t = { s with
               colls := s.colls.filter (fun q => q.ctx != s.cur || !q.done || (lastIdents o.ident).contains q.ident) ++ [o],
               ctxs := t.ctxs, seq := s.seq + 1, intervals := s.intervals + 1, mark := .ran } ∧
             t.me = { s.me with eng := { s.me.eng with collLast := nextIdent last }, race := t.me.race } ∧
             ∀ d, d ≠ s.cur → t.ctx d = s.ctx d)) ∧
       (∀ u, s.collCheck a q.1 = .error (.trap u) → exec q.2 s =
         .next (s.trapped (if u.engine = 31#5 then { u with engine := 5#5 } else u))) ∧
       (s.collCheck a q.1 = .error .wait → exec q.2 s = .next s.postponed)) ∧
     (let n : BitVec 32 := (s.sr a).setWidth 32
      let named := s.colls.find? (fun o => o.ctx == s.cur && o.ident == n && n != 0#32 && (lastIdents last).contains n)
      let failed := s.me.faults.find? (fun f => f.engine == 5 && f.coll == n && !(s.me.inh && f.cause == cMemberSilent))
      (named = none → fault (.csig c a) fCollId) ∧
      (∀ o f, named = some o → failed = some f → exec (.csig c a) s = .next (s.trapped
        { cause := f.cause, fcode := f.fcode, engine := 5#5, async := f.cause == cMemberSilent, coll := f.coll })) ∧
      (∀ o, named = some o → failed = none →
       (o.done = false → exec (.csig c a) s = .next s.postponed) ∧
       (o.done = true → ∃ t : State, exec (.csig c a) s = .next t ∧
         s.awaits t c ⟨s.seq, s.cur, .scalar, c, .value (o.signature.setWidth 256), 0#64, s.time, false, none, s.tick⟩)))) ∧
  (∀ (s : State) (o : Coll), s.colls.find? (fun u => u.id == o.id) = some o → o.done = false →
     let r := o.rec_
     let k := coreOf o.ctx
     let moved := fun (f : Coll → Coll) => s.colls.map (fun u => if u.id == o.id then f u else u)
     let gl := spadLoc k r.gauge.toNat
     (s.collFree o = false →
       exec (.collectiveTransferSend o.id) s = .next s ∧ exec (.collectiveFold o.id) s = .next s) ∧
     (s.collFree o = true → o.switchAt = none → o.sent < r.total → s.poison = [] →
       (∀ p, r.peer o.rank o.sent = some p → p ≠ o.rank → p ∉ o.evicted →
         exec (.collectiveTransferSend o.id) s = .next { s with
           colls := moved (fun u => { u.advance with unacked := u.unacked ++ [(o.sent, p)] })
           out := s.out ++ [.transfer (o.members.getD p 0) o.rank o.sent r.digest (s.chunkBytes o o.sent)] }) ∧
       (r.peer o.rank o.sent = some o.rank →
         let x : Transfer := ⟨o.rank, o.sent, r.digest, s.chunkBytes o o.sent, none⟩
         (s.lands k x = true → ∃ t : State, exec (.collectiveTransferSend o.id) s = .next t ∧
           t = { s with colls := moved Coll.advance, cores := t.cores } ∧
           t.core k = { s.core k with staging := (s.core k).staging ++ [x] } ∧ ∀ j, j ≠ k → t.core j = s.core j) ∧
         (s.lands k x = false → exec (.collectiveTransferSend o.id) s = .next s)) ∧
       ((r.peer o.rank o.sent = none ∨ ∃ p, r.peer o.rank o.sent = some p ∧ p ≠ o.rank ∧ p ∈ o.evicted) →
         exec (.collectiveTransferSend o.id) s = .next { s with colls := moved Coll.advance })) ∧
     (∀ turn x, s.collFree o = true → s.nextTurn o = some turn → s.stagedFor o turn = some x →
       (x.digest = r.digest → ∃ (t : State) (u : Coll), exec (.collectiveFold o.id) s = .next t ∧
         t.colls.find? (fun u => u.id == o.id) = some u ∧ u = { o with folded := o.folded ++ [(x.chunk, x.sender)] } ∧
         (t.core k).staging = (s.core k).staging.erase x ∧
         let d := spadLoc k (r.dstAt x.chunk).toNat
         let away := fun (y : Nat) (n : Nat) => y + n ≤ d ∨ d + r.chunk ≤ y
         (s.poison = [] → ((s.gaugeAt gl).count r.chunk).2 = false → (r.dstAt x.chunk).toNat % 2 ^ 30 + r.chunk ≤ 2 ^ 30 → away gl 16 →
           t.out = s.out ++ (if x.sender = o.rank then [] else [.acknowledge (o.members.getD x.sender 0) o.rank x.chunk]) ∧
           t.gaugeAt gl = ((s.gaugeAt gl).count r.chunk).1 ∧
           (∀ y, away y 1 → (y < gl ∨ gl + 16 ≤ y) → memGet t.mem y = memGet s.mem y) ∧
           (o.before = none → ∀ e, e < r.chunk / r.elem →
             let v := leNat ((x.data.drop (e * r.elem)).take r.elem)
             memRead t.mem (d + e * r.elem) r.elem = foldElem r.op r.fmt (memRead s.mem (d + e * r.elem) r.elem)
               (if o.join = none then v else weighted (o.weight x.sender) v) % 256 ^ r.elem))) ∧
       (x.digest ≠ r.digest → ∃ (t : State) (u : Coll), exec (.collectiveFold o.id) s = .next t ∧ t.mem = s.mem ∧
         t.colls.find? (fun u => u.id == o.id) = some u ∧ u.done = true ∧ u.folded = o.folded ∧
         (t.ctx o.ctx).faults = (s.ctx o.ctx).faults ++
           [⟨5, cEngineFault, fCollMismatch, o.ident, BitVec.ofNat 64 o.gaugeLoc, none⟩])) ∧
     (∀ turn, s.collFree o = true → s.nextTurn o = some turn → s.stagedFor o turn = none →
       ∃ (t : State) (u : Coll), exec (.collectiveFold o.id) s = .next t ∧ t.colls.find? (fun u => u.id == o.id) = some u ∧
         u = { o with missed := o.missed ++ [turn] } ∧ t.cores = s.cores ∧
         (((s.gaugeAt gl).count r.chunk).2 = false → (∀ j, o.join = some j → j.rule ≠ 2) → t.out = s.out ∧
           t.gaugeAt gl = ((s.gaugeAt gl).count r.chunk).1 ∧
           ∀ y, (y < gl ∨ gl + 16 ≤ y) → memGet t.mem y = memGet s.mem y)) ∧
     (r.total ≤ o.sent → (∀ turn ∈ o.turns, o.settled turn = true) → o.unacked = [] →
       ∃ (t : State) (u : Coll), exec (.collectiveCompletion o.id) s = .next t ∧
         t.colls.find? (fun u => u.id == o.id) = some u ∧ u = { o with done := true, ranges := [] } ∧
         (t.ctx o.ctx).completed 5 = (s.ctx o.ctx).completed 5 + 1 ∧ (∀ d, d ≠ o.ctx → t.ctx d = s.ctx d) ∧
         (t.ctx o.ctx).race.floor = ((s.intervals + 1).toNat, 5) ∧
         t.stores.map (fun w => { w with seen := [] }) = s.stores.map (fun w => { w with seen := [] }) ∧
         (o.join = none → t = { s with colls := t.colls, ctxs := t.ctxs, stores := t.stores, intervals := s.intervals + 1 }) ∧
         (∀ j l0 l1 l2, o.join = some j → j.lines = [l0, l1, l2] →
           memGet t.mem (l0 + 5) = 3#8 ∧ (j.lines.Pairwise (fun x y => x + 64 ≤ y ∨ y + 64 ≤ x) → ∀ i, i < 256 →
             (t.joinAt j.lines).map.getLsbD i = (decide (i < r.gsize) && !o.missed.any (fun t => t.2 == i))))) ∧
     ((o.sent < r.total ∨ (∃ turn ∈ o.turns, o.settled turn = false) ∨ o.unacked ≠ []) →
       exec (.collectiveCompletion o.id) s = .next s) ∧
     (∀ (k sender chunk : Nat) (digest : BitVec 32) (data : List Byte), s.part.fabric = true → k < 96 * s.part.cubes →
       1 < s.fabric.members.length → s.fromEvicted k ⟨sender, chunk, digest, data, none⟩ = false →
       let x : Transfer := ⟨sender, chunk, digest, data, none⟩
       let wrong := fun (y : Transfer) (u : Coll) => s.claimant k y = some u ∧ y.digest ≠ u.rec_.digest ∧ u.switchAt = none
       (s.lands k x = true → (∀ y ∈ (s.core k).staging ++ [x], ∀ u, ¬ wrong y u) →
         ∃ t : State, exec (.collectiveTransferArrival k sender chunk digest data) s = .next t ∧ t = { s with cores := t.cores } ∧
           (t.core k).staging = (s.core k).staging ++ [x] ∧ ∀ j, j ≠ k → t.core j = s.core j) ∧
       (∀ u, s.lands k x = true → (s.core k).staging = [] → wrong x u →
         ∃ t : State, exec (.collectiveTransferArrival k sender chunk digest data) s = .next t ∧ t.mem = s.mem ∧
           (t.core k).staging = [] ∧ (t.ctx u.ctx).faults = (s.ctx u.ctx).faults ++
             [⟨5, cEngineFault, fCollMismatch, u.ident, BitVec.ofNat 64 u.gaugeLoc, none⟩]) ∧
       (s.lands k x = false → exec (.collectiveTransferArrival k sender chunk digest data) s =
         .next { s with inputs := s.inputs ++ [.collectiveTransferArrival none k sender chunk digest data] })) ∧
     (∀ port node : Nat, s.part.fabric = true →
       let s' := { s with fabric := { s.fabric with downLinks := s.fabric.downLinks ++ [(port, node)] } }
       ∃ t : State, exec (.linkFailure port node) s = .next t ∧ t.mem = s.mem ∧ t.fabric = s'.fabric ∧
         ((∀ u ∈ s.colls, u.done = false → s'.reachesAll u u.rec_ u.needs = true) → t = s') ∧
         (s.colls = [o] → s'.reachesAll o r o.needs = false → r.fallback = 0#64 →
           (t.ctx o.ctx).faults = (s.ctx o.ctx).faults ++
             [⟨5, cEngineFault, fCollUnreach, o.ident, BitVec.ofNat 64 o.gaugeLoc, none⟩])))

/-! Power, clocks and the stack (spec 13 R345 to R367). -/

/-- R356, R357, R359, R361, R363 to R366: AFW enters the activity forecast of a context, which expires; the forecast register is
written every microsecond; a sensor's reading is held, and 115 °C stays noted; at the end of a window the governor takes its next
step; a droop alarm rises within 2 % of the bound on a region's periods and clears 4 % above it; stretches and bubbles are counted;
every 250 µs each live die's sample, and every 1 ms its aggregate before any later sample, enters the port's buffer.

Some clauses rest on choices of the model (logs 8, 48, 59, 61). -/
def Obligations.PowerAndClocks : Prop :=
  (∀ (s : State) (a : BitVec 5), let h := (s.sr a).toNat / 2 ^ 16 % 2 ^ 16
    let f : Forecast := ⟨h, (s.sr a).toNat / 2 ^ 8 % 2 ^ 8, (s.sr a).toNat % 2 ^ 8, s.time + 1000 * h⟩
    exec (.afw a) s = .next (s.ran (fun x => { x with forecast := if h = 0 then none else some f }))) ∧
  (∀ (s : State) (c : Nat) (f : Forecast), (s.ctx c).forecast = some f →
    (f.expiry ≤ s.time → exec (.forecastExpiry c) s = .next (s.modCtx c (fun x => { x with forecast := none }))) ∧
    (s.time < f.expiry → exec (.forecastExpiry c) s = .next s)) ∧
  (∀ s : State, (s.time < s.fcastAt + 1000 → exec .forecastUpdate s = .next s) ∧
    (s.fcastAt + 1000 ≤ s.time → ∃ t : State, exec .forecastUpdate s = .next t ∧
      t = { s with cubes := t.cubes, fabric := t.fabric, out := t.out, fcastAt := s.time / 1000 * 1000 } ∧
      (∀ q, s.part.cubes ≤ q → t.cube q = s.cube q) ∧
      ∀ q, q < s.part.cubes → t.cube q = { s.cube q with fcast := (t.cube q).fcast } ∧
        (t.cube q).fcast.toNat / 2 ^ 16 % 2 ^ 8 = s.announced q (·.cube) % 256 ∧
        (t.cube q).fcast.toNat / 2 ^ 24 % 2 ^ 8 = s.announced q (·.vec) % 256 ∧ (t.cube q).fcast.toNat / 2 ^ 32 % 2 ^ 16 = 0 ∧
        (s.tasksOf q = [] → s.queued = false →
          (t.cube q).fcast.toNat % 2 ^ 16 = 0 ∧ (t.cube q).fcast.toNat / 2 ^ 48 = 0))) ∧
  (∀ (s : State) (q : Nat) (l : BitVec 16), exec (.pwrDidt q l) s = .next (s.modCube q (fun x => { x with didtLimit := l }))) ∧
  (∀ (s : State) (q sensor : Nat) (quarters : Int), ∃ t : State, exec (.sensorReading q sensor quarters) s = .next t ∧
    t = { s with cubes := t.cubes } ∧ tblFind (t.cube q).sensors sensor = some quarters ∧
    (∀ d, d ≠ sensor → tblFind (t.cube q).sensors d = tblFind (s.cube q).sensors d) ∧
    (t.cube q).hot = ((s.cube q).hot || decide (460 ≤ quarters)) ∧ ∀ r, r ≠ q → t.cube r = s.cube r) ∧
  (∀ (s : State) (q power : Nat), (s.cycles / 1024 ≤ (s.cube q).govWindow → exec (.governorWindow q power) s = .next s) ∧
    ((s.cube q).govWindow < s.cycles / 1024 →
    let x := s.cube q
    let hot := x.hottest
    let tlim : Int := 4 * x.govTlim.toNat
    let above := x.govPlim.toNat < power ∨ tlim ≤ hot ∨ x.droop = true
    let calm := 100 * power < 95 * x.govPlim.toNat ∧ hot + 12 ≤ tlim
    ∃ t : State, exec (.governorWindow q power) s = .next t ∧ (t.cube q).govWindow = s.cycles / 1024 ∧
      (t.cube q).droop = false ∧ t.ctxs = s.ctxs ∧ t.ops = s.ops ∧ (∀ r, r ≠ q → t.cube r = s.cube r) ∧
      (420 ≤ hot → (t.cube q).govStep = 15 ∧ (t.cube q).calm = 0) ∧
      (hot < 420 → above → (t.cube q).govStep = min 15 (x.govStep + 1) ∧ (t.cube q).calm = 0) ∧
      (hot < 420 → ¬above → calm → x.calm = 15 → (t.cube q).govStep = x.govStep - 1 ∧ (t.cube q).calm = 0) ∧
      (hot < 420 → ¬above → calm → x.calm ≠ 15 → (t.cube q).govStep = x.govStep ∧ (t.cube q).calm = x.calm + 1) ∧
      (hot < 420 → ¬above → ¬calm → (t.cube q).govStep = x.govStep ∧ (t.cube q).calm = 0) ∧
      ((t.cube q).govStep = x.govStep → (t.cube q).govChg = x.govChg ∧ t.mem = s.mem) ∧
      ((t.cube q).govStep ≠ x.govStep → (t.cube q).govChg.toNat = min (2 ^ 32 - 1) (x.govChg.toNat + 1) ∧
        t.rontal.port.getLast? = some (BitVec.ofNat 256
          (Record.bits { kind := 3, die := q * 128, time := s.time, gstep := (t.cube q).govStep }))))) ∧
  (∀ (s : State) (r : Nat), let x := s.region r
    let least := s.ceiling * 100 / 115
    (x.droop = false → 100 * x.periods ≤ 102 * least → exec (.droopAlarm r) s =
      .next ((s.modRegion r (fun x => { x with droop := true })).modCube (r / 24) (fun x => { x with droop := true }))) ∧
    (x.droop = true ∨ 102 * least < 100 * x.periods → exec (.droopAlarm r) s = .next s) ∧
    (104 * least ≤ 100 * x.periods → exec (.droopAlarmClear r) s = .next (s.modRegion r (fun x => { x with droop := false }))) ∧
    (100 * x.periods < 104 * least → exec (.droopAlarmClear r) s = .next s) ∧
    (∃ t : State, exec (.clockStretch r) s = .next t ∧ t = { s with regions := t.regions, cubes := t.cubes } ∧
      t.region r = { x with stretch := (t.region r).stretch } ∧
      (t.region r).stretch.toNat = min (2 ^ 32 - 1) (x.stretch.toNat + 1) ∧
      t.cube (r / 24) = { s.cube (r / 24) with episodes := (s.cube (r / 24)).episodes + 1 } ∧
      (∀ j, j ≠ r → t.region j = s.region j) ∧ ∀ q, q ≠ r / 24 → t.cube q = s.cube q) ∧
    (∃ t : State, exec (.crossingBubble r) s = .next t ∧ t = { s with regions := t.regions } ∧
      t.region r = { x with bubble := (t.region r).bubble } ∧
      (t.region r).bubble.toNat = min (2 ^ 16 - 1) (x.bubble.toNat + 1) ∧ ∀ j, j ≠ r → t.region j = s.region j)) ∧
  (∀ s : State, s.rontal.port.length ≤ 256 →
    let last := fun (p : List (BitVec 256)) => p.drop (p.length - 256)
    let n := s.telAt + 1
    let m := s.telAggAt + 1
    (s.time < n * 250000 ∨ s.telAggAt < s.telAt / 4 → exec .telemetrySample s = .next s) ∧
    (n * 250000 ≤ s.time → s.telAt / 4 ≤ s.telAggAt → ∃ t : State, exec .telemetrySample s = .next t ∧ t.telAt = n ∧ t.ctxs = s.ctxs ∧
      t.rontal.port = last (s.rontal.port ++ s.liveDies.map (fun d => BitVec.ofNat 256 (s.sampleOf n d).bits)) ∧
      (∀ q, q < s.part.cubes → (t.cube q).peaks = [] ∧ (t.cube q).episodes = 0) ∧
      (s.telSize = 0#4 → t = { s with rontal := t.rontal, cubes := t.cubes, telAt := n })) ∧
    (s.time < m * 1000000 ∨ s.telAt < 4 * m → exec .telemetryAggregate s = .next s) ∧
    (m * 1000000 ≤ s.time → 4 * m ≤ s.telAt → ∃ t : State, exec .telemetryAggregate s = .next t ∧ t.telAggAt = m ∧
      t.ctxs = s.ctxs ∧ t.cubes = s.cubes ∧
      t.rontal.port = last (s.rontal.port ++ s.liveDies.map (fun d => BitVec.ofNat 256 (s.aggregateOf m d).bits)) ∧
      (s.telSize = 0#4 → t = { s with rontal := t.rontal, telAggAt := m })))

/-- R348 to R354: the bus tester takes the next bus of its rotation, and its run ends by a demand access, a pass, a first or a
second failure; a bundle that fails twice gives way to the spare, and breaks the products that fold over it, a weight-store bus leaves its banks' map pending, an elevator
starts to drain; a compacted weight-store map comes into force; a drained elevator leaves every table; a lost transaction is
retried 16 µs after it was sent, at most four times, and ends its operation with MCHECK after that, the chain entry it had reserved filled in error.

Some clauses rest on choices of the model (logs 48, 59). -/
def Obligations.StackMaintenance : Prop :=
  ∀ s : State,
    (∀ q n, s.cubeLive q = true → (s.cube q).testEn = true → (s.cube q).busRun = none →
      (s.cube q).busAt + 1000000 * max 1 (s.cube q).testPeriod.toNat ≤ s.time → s.nextBus q (s.cube q).busNext = some n →
      exec (.busTestRun q) s = .next (s.modCube q (fun x =>
        { x with busRun := some (n, false), busNext := n + 1, busAt := s.time }))) ∧
    (∀ q, (s.cubeLive q = false ∨ (s.cube q).testEn = false ∨ (s.cube q).busRun ≠ none ∨
        s.time < (s.cube q).busAt + 1000000 * max 1 (s.cube q).testPeriod.toNat) → exec (.busTestRun q) s = .next s) ∧
    (∀ q n again, (s.cube q).busRun = some (n, again) →
      let x := s.cube q
      let col := n / 81
      let iface := n / 9 % 9
      let bus := n % 9
      let k := q * 96 + col
      (∀ pass, exec (.busTestCompletion q pass true) s =
        .next (s.modCube q (fun y => { y with busRun := none, testAborts := satInc y.testAborts }))) ∧
      exec (.busTestCompletion q true false) s =
        .next (s.modCube q (fun y => { y with busRun := none, testRuns := satInc y.testRuns })) ∧
      (again = false → exec (.busTestCompletion q false false) s =
        .next (s.modCube q (fun x => { x with busRun := some (n, true) }))) ∧
      (again = true → ∃ t : State, exec (.busTestCompletion q false false) s = .next t ∧ (t.cube q).busRun = none ∧
        (t.cube q).testFails.toNat = min 65535 (x.testFails.toNat + 1) ∧ .msix 2 ∈ t.out ∧ t.ctxs = s.ctxs ∧
        (bus < 3 → t.column k = { s.column k with
            bundles := tblSet (s.column k).bundles iface (tblGet (s.column k).bundles iface 0 ||| 2 ^ bus)
            noFold := (s.column k).noFold || decide (tblGet (s.column k).bundles iface 0 ≠ 0) } ∧
          ∀ o ∈ s.ops, let folding := o.isProduct = true ∧ o.core = k ∧ o.started = true ∧
              s.foldUses k (o.regs.cube.layers.getLastD 0) iface bus = true
            (folding → { o with broken := true } ∈ t.ops) ∧ (¬ folding → o ∈ t.ops)) ∧
        (3 ≤ bus → t.ops = s.ops) ∧
        (3 ≤ bus → bus < 8 →
          t.column k = { s.column k with wsBuses := (s.column k).wsBuses ++ [(iface, bus)], pend := true }) ∧
        (bus = 8 → (t.cube q).elevators = tblSet x.elevators (col / 4) (s.time, false)))) ∧
    (∀ k, ((s.column k).pend = true → s.mapFree k = true → ∃ t : State, exec (.wsMapApplication k) s = .next t ∧
      t.column k = { s.column k with applied := (s.column k).applied ++ (s.column k).wsBuses, wsBuses := [], pend := false } ∧
      (∀ j, j ≠ k → t.column j = s.column j) ∧ t.ctxs = s.ctxs ∧ t.cubes = s.cubes ∧ t.banks = s.banks) ∧
      ((s.column k).pend = false ∨ s.mapFree k = false → exec (.wsMapApplication k) s = .next s)) ∧
    (∀ q cluster at_, tblFind (s.cube q).elevators cluster = some (at_, false) →
      (at_ + 4000 ≤ s.time → ∃ t : State, exec (.elevatorDrainEnd q cluster) s = .next t ∧
        t = { s with cubes := t.cubes, retries := t.retries } ∧
        t.cube q = { s.cube q with elevators := tblSet (s.cube q).elevators cluster (at_, true) } ∧
        (∀ p, p ≠ q → t.cube p = s.cube p) ∧
        (∀ o ∈ s.losers q cluster, ∃ r, tblFind t.retries o.id = some r ∧ r.lost = true) ∧
        ∀ o ∈ s.ops, (∀ p ∈ s.losers q cluster, p.id ≠ o.id) → tblFind t.retries o.id = tblFind s.retries o.id) ∧
      (s.time < at_ + 4000 → exec (.elevatorDrainEnd q cluster) s = .next s)) ∧
    (∀ id o r, s.ops.find? (fun p => p.id == id) = some o → tblFind s.retries id = some r →
      (r.lost = false ∨ s.time < r.sent + 16000 → exec (.transactionRetry id) s = .next s) ∧
      (r.lost = true → r.sent + 16000 ≤ s.time →
        (r.count < 4 → exec (.transactionRetry id) s =
          .next { s with retries := tblSet s.retries id ⟨r.count + 1, s.time, false⟩ }) ∧
        (4 ≤ r.count → o.entry = none → ∃ t : State, exec (.transactionRetry id) s = .next t ∧
          t.ops = s.ops.filter (fun p => p.id != id) ∧ tblFind t.retries id = none ∧
          (∃ u, u.cause = cMcheck ∧ u.addr = o.errorAt ∧ (t.ctx o.ctx).asyncs = (s.ctx o.ctx).asyncs ++ [u]) ∧
          (o.engine ≠ 4 → o.engine ≠ 6 → o.pops = [] → t.mem = s.mem) ∧
          (∀ p, o.engine ≠ 4 → o.engine ≠ 6 → o.chainOut = some p →
            ∀ e ∈ (t.core o.core).queue p, e.id = o.id → e.filled = true ∧ e.err = true))))

/-! Steps without a bundle, and what is on its way (spec 01 R31 to R35; spec 09 R291, R294, R297). -/

/-- R30, R31, R32, R33, R35: a stall step spends one owed stall step and counts as a step of the context, and so does one that the
full write queue makes; with the last the bundle ends; a write whose count has run out lands; a transient whose count has run out
goes.

R291, R294, R297: of the pending asynchronous events that with the lowest cause, the oldest of equals, is taken, outside a
handler; a sleeping context to which no kill is due wakes for a pending event or a request to stop.

Some clauses rest on choices of the model (logs 17, 56, 59). -/
def Obligations.StepsAndAsynchronousEvents : Prop :=
  (∀ (s : State) (c : Nat),
     (1 < (s.ctx c).owed → ∃ t : State, exec (.stallStep c) s = .next t ∧
       t = { s with ctxs := t.ctxs, ops := t.ops, mem := t.mem } ∧ (∀ k, k ≠ c → t.ctx k = s.ctx k) ∧
       t.ctx c = Ctx.tick { s.ctx c with owed := (s.ctx c).owed - 1 } ∧ t.ops.map (·.id) = s.ops.map (·.id) ∧
       (∀ y, (∀ p, y < Config.polderBase + 128 * p + 52 ∨ Config.polderBase + 128 * p + 56 ≤ y) →
         memGet t.mem y = memGet s.mem y)) ∧
     ((s.ctx c).owed = 1 → (s.ctx c).xfer = none → (s.ctx c).edges = [] → (s.ctx c).after = none → (s.ctx c).preempt = .none →
       ∃ t : State, exec (.stallStep c) s = .next t ∧ t = { s with ctxs := t.ctxs, ops := t.ops, mem := t.mem } ∧
         t.ctx c = Ctx.tick { s.ctx c with owed := 0 } ∧ ∀ k, k ≠ c → t.ctx k = s.ctx k) ∧
     ((s.ctx c).owed = 0 →
       (s.ahead c = .room → ∃ t : State, exec (.stallStep c) s = .next t ∧
         t = { s with ctxs := t.ctxs, ops := t.ops, mem := t.mem } ∧ t.ctx c = Ctx.tick (s.ctx c) ∧ ∀ k, k ≠ c → t.ctx k = s.ctx k) ∧
       (s.ahead c ≠ .room → exec (.stallStep c) s = .next s)) ∧
     (∃ t : State, exec (.shadowQueueLanding c) s = .next t ∧ t = { s with ctxs := t.ctxs } ∧
       (∀ k, k ≠ c → t.ctx k = s.ctx k) ∧ (t.ctx c).shadow = (s.ctx c).shadow.filter (fun w => w.left != 0) ∧
       (∀ r, (∀ w ∈ (s.ctx c).shadow, ¬(w.file = .scalar ∧ w.reg = r ∧ w.left = 0)) →
         vget (t.ctx c).regs r = vget (s.ctx c).regs r) ∧
       (∀ r, (∀ w ∈ (s.ctx c).shadow, ¬(w.file = .handle ∧ w.reg = r ∧ w.left = 0)) →
         vget (t.ctx c).hregs r = vget (s.ctx c).hregs r) ∧
       (∀ pre post w, (s.ctx c).shadow = pre ++ w :: post → w.left = 0 →
         (∀ v ∈ post, ¬(v.file = w.file ∧ v.reg = w.reg ∧ v.left = 0)) →
         (w.file = .scalar → w.reg ≠ 0#5 → vget (t.ctx c).regs w.reg = w.val.setWidth 64) ∧
         (w.file = .handle → vget (t.ctx c).hregs w.reg = w.val))) ∧
     exec (.transientExpiry c) s =
       .next (s.modCtx c (fun x => { x with bypass := x.bypass.filter (fun b => b.left != 0) }))) ∧
  (∀ (s : State) (c : Nat), let x := s.ctx c
     (∀ pre t post, x.asyncs = pre ++ t :: post → (∀ u ∈ pre, t.cause.toNat < u.cause.toNat) →
       (∀ u ∈ post, t.cause.toNat ≤ u.cause.toNat) → x.task ≠ none → x.ending = .none → x.stopped = false →
       x.inh = false → t.cause ≠ cRecompute → t.cause ≠ cBreak → t.coll = 0#32 → s.handlerOf c ≠ 0#64 →
       ∃ u : State, exec (.asynchronousTrap c) s = .next u ∧ (u.ctx c).pc = s.handlerOf c ∧ (u.ctx c).mode = .supervisor ∧
         (u.ctx c).inh = true ∧ (u.ctx c).trp.last = t ∧ (u.ctx c).trp.pc = x.pc ∧ (u.ctx c).asyncs = pre ++ post ∧
         (u.ctx c).asleep = false ∧ (u.ctx c).regs = x.regs ∧ u.mem = s.mem ∧ ∀ k, k ≠ c → u.ctx k = s.ctx k) ∧
     (x.inh = true → exec (.asynchronousTrap c) s = .next s) ∧
     (x.asleep = true → s.killDue c = false → (x.asyncs ≠ [] ∨ x.preempt ≠ .none ∨ x.dying = true) →
       exec (.idleWake c) s = .next (s.modCtx c (fun x => { x with asleep := false, readyAt := s.cycles }))))

/-! The selector, budgets, deadlock and recomputes (spec 09 R280, R285, R298, R306). -/

/-- R280, R285: the selector keeps the holder while it owes stall steps, unless it yields; else the slot goes to a context promised
it, and to a ready context that no other ready one exceeds in priority where the holder is not ready. A holder of 4,096 cycles yields to a
ready context of its priority or more; one that has waited 16,384 cycles is promised the slot; each millisecond every USED
returns to 0.

R306: in a deadlocked cube the smallest full queue, of the chain queues and the receive stagings, takes a chunk of the
spillway, or, where there is none to take or no free chunk, the context blocked longest takes DEADLOCK; a queue that its own
capacity holds gives a chunk back.

Some clauses rest on choices of the model (logs 42, 43, 59). -/
def Obligations.SelectorAndDeadlock : Prop :=
  (∀ s : State,
     (∀ k c, (s.core k).holder = some c → s.isReady c = true → coreOf c = k →
       ((s.ctx c).owed ≠ 0 → (s.ctx c).yielded = false → s.selected k = some c) ∧
       ((s.ctx c).owed = 0 ∨ (s.ctx c).yielded = true → ∀ p, (s.core k).prefer = some p → s.isReady p = true → s.selected k = some p) ∧
       ((s.core k).prefer = none → (s.ctx c).yielded = false → s.selected k = some c) ∧
       ((s.core k).prefer = none → (s.ctx c).yielded = true → ∀ e, s.selected k = some e →
         (∃ d ∈ s.readyOn k, d ≠ c) → e ≠ c ∧ e ∈ s.readyOn k ∧ ∀ d ∈ s.readyOn k, d ≠ c → s.prioOf d ≤ s.prioOf e)) ∧
     (∀ k e, (s.core k).holder = none → (s.core k).prefer = none → s.selected k = some e →
       e ∈ s.readyOn k ∧ ∀ d ∈ s.readyOn k, s.prioOf d ≤ s.prioOf e) ∧
     (∀ k c d, (s.core k).holder = some c → (s.ctx c).yielded = false → (s.ctx c).owed = 0 → s.isReady c = true →
       (s.core k).since + 4096 ≤ s.cycles → d ∈ s.readyOn k → d ≠ c → s.prioOf c ≤ s.prioOf d →
       exec (.quantumExpiry k) s = .next (s.modCtx c (fun x => { x with yielded := true }))) ∧
     (∀ c, s.isReady c = true → (s.core (coreOf c)).holder ≠ some c → (s.core (coreOf c)).prefer = none →
       16384 ≤ s.waited c → exec (.progressPromise c) s = .next (s.modCore (coreOf c) (fun k => { k with prefer := some c }))) ∧
     (s.windowAt < s.time / 1000000 → ∃ t : State, exec .stepBudgetWindow s = .next t ∧
       t = { s with mem := t.mem, ctxs := t.ctxs, windowAt := s.time / 1000000 } ∧
       (∀ p j, p < 4096 → j < 4 → memGet t.mem (Config.polderBase + 128 * p + 52 + j) = 0#8) ∧
       (∀ y, (∀ p, y < Config.polderBase + 128 * p + 52 ∨ Config.polderBase + 128 * p + 56 ≤ y) →
         memGet t.mem y = memGet s.mem y) ∧
       ∀ c, t.ctx c = { s.ctx c with readyAt := (t.ctx c).readyAt }) ∧
     (s.time / 1000000 ≤ s.windowAt → exec .stepBudgetWindow s = .next s)) ∧
  (∀ s : State,
     (∀ q, s.deadlocked q = true → ∃ t : State, exec (.deadlockDetection q) s = .next t ∧
       (t.cube q).lastProgress = s.cycles ∧ t.mem = s.mem ∧
       (s.fullQueues q ≠ [] → s.freeChunks q ≠ 0 → ∃ e ∈ s.fullQueues q, (∀ f ∈ s.fullQueues q, e.1 ≤ f.1) ∧
         (t.core e.2.1).capacity e.2.2 = (s.core e.2.1).capacity e.2.2 + 16 ∧
         (e.2.2 = 3 → (t.core e.2.1).stagingBytes = (s.core e.2.1).stagingBytes + 65536) ∧ t.ctxs = s.ctxs ∧
         (t.cube q).spwCount.toNat = min (2 ^ 32 - 1) ((s.cube q).spwCount.toNat + 1)) ∧
       ((s.fullQueues q = [] ∨ s.freeChunks q = 0) → t.cores = s.cores ∧
         ∃ c ∈ s.tasksOf q, (∀ d ∈ s.tasksOf q, ((s.ctx c).waitFrom).getD 0 ≤ ((s.ctx d).waitFrom).getD 0) ∧
           (t.ctx c).asyncs = (s.ctx c).asyncs ++ [{ cause := cDeadlock, async := true }] ∧
           ∀ k, k ≠ c → t.ctx k = s.ctx k)) ∧
     (∀ q, s.deadlocked q = false → exec (.deadlockDetection q) s = .next s) ∧
     (∀ k, (s.core k).staged ≤ 65536 → ∃ t : State, exec (.spillwayChunkReturn k 3) s = .next t ∧ t = { s with cores := t.cores } ∧
       (t.core k).stagingBytes = max 65536 ((s.core k).stagingBytes - 65536) ∧ ∀ j, j ≠ k → t.core j = s.core j) ∧
     (∀ k, 65536 < (s.core k).staged → exec (.spillwayChunkReturn k 3) s = .next s) ∧
     (∀ k q : Nat, q < 3 → 8 < ((s.core k).queue q).length → exec (.spillwayChunkReturn k q) s = .next s) ∧
     (∀ k q : Nat, q < 3 → ((s.core k).queue q).length ≤ 8 → ∃ t : State, exec (.spillwayChunkReturn k q) s = .next t ∧
       t = { s with cores := t.cores } ∧ (t.core k).capacity q = (s.core k).capacity q - (if (s.core k).capacity q = 8 then 0 else 16) ∧
       ∀ j, j ≠ k → t.core j = s.core j))

/-- R298: a producer launch that has ended leaves; in success it clears DROPPED and RECOMP of the record and every context that
waited reloads its handle from it and goes on; in failure it clears RECOMP, and a context that waited alone takes
RECOMPUTE_FAILED.

Some clauses rest on choices of the model (logs 44, 59). -/
def Obligations.RecomputeEnds : Prop :=
  ∀ (s : State) (m : Launch) (loc : Nat), s.launches.find? (fun l => l.id == m.id) = some m → m.consumer = some loc →
    s.runners m.id = [] → (s.ctxs.map (·.1)).Nodup →
    (m.failed = false → (m.begun = 0 ∨ m.ended ≠ m.tasks) → exec (.recomputeProducerCompletion m.id) s = .next s) ∧
    (m.failed = false → m.begun ≠ 0 → m.ended = m.tasks →
      ∃ t : State, exec (.recomputeProducerCompletion m.id) s = .next t ∧
        t.launches = s.launches.filter (fun n => n.id != m.id) ∧
        (memGet t.mem (loc + 48)).toNat = (memGet s.mem (loc + 48)).toNat / 4 * 4 ∧
        (∀ y, y ≠ loc + 48 → memGet t.mem y = memGet s.mem y) ∧
        ∀ c, (∀ r, (s.ctx c).recompute = some (r, loc) →
            (t.ctx c).recompute = none ∧ (t.ctx c).blocked = false ∧
            (t.ctx c).hreg r = reloaded (BitVec.ofNat 512 (memRead t.mem loc 64)) (hTrec ((s.ctx c).hreg r))) ∧
          ((∀ r, (s.ctx c).recompute ≠ some (r, loc)) → t.ctx c = s.ctx c)) ∧
    (m.failed = true → ∃ t : State, exec (.recomputeProducerCompletion m.id) s = .next t ∧
      (s.consumers loc = [] → t.launches = s.launches.filter (fun n => n.id != m.id) ∧
        memRead t.mem (loc + 48) 1 = memRead s.mem (loc + 48) 1 / 4 * 4 + memRead s.mem (loc + 48) 1 % 2) ∧
      (∀ c r, s.consumers loc = [(c, r)] → (s.ctx c).inh = false →
        let v := memRead s.mem (loc + 48) 1
        let h := (s.store (loc + 48) 1 (v / 4 * 4 + v % 2)).handlerOf c
        h ≠ 0#64 → (t.ctx c).recompute = none ∧ (t.ctx c).trp.last.cause = cRecomputeFailed ∧ (t.ctx c).pc = h ∧
          (t.ctx c).inh = true))

/-! Launches, placement, the end of tasks and pre-emption (spec 09 R281 to R288, R296; spec 14 R372 to R377). -/

/-- R282, R373, R374: a doorbell sets the tail and is remembered; in a state other than ready nothing is taken. Else the entry of the
oldest doorbell is taken: an unreadable record is rejected with REASON 7, a record that breaks a rule with the reason of the
lowest number that applies, a launch of a domain that is held waits, and any other begins and waits to be placed.

Some clauses rest on choices of the model (logs 38, 59). -/
def Obligations.LaunchQueues : Prop :=
  ∀ s : State,
    (∀ (q : BitVec 5) (tail : BitVec 16), exec (.doorbell q tail) s = .next
      { s.setQueue q.toNat { s.queue q.toNat with tail := tail } with
        doorbells := s.doorbells ++ [(q.toNat, tail)], intervals := s.intervals + 1 }) ∧
    (s.rontal.state ≠ 2#3 → exec .launchBegin s = .next s) ∧
    (∀ q, s.rontal.state = 2#3 → s.nextProducer = none → s.heldLaunches.find? s.heldReady = none → s.nextQueue = some q →
      let i := (s.queue q).head
      let e := (s.queue q).entryAt i.toNat
      let u := (s.setQueue q { s.queue q with head := i + 1 }).trimDoorbells
      let rejected := fun (t : State) (reason : Nat) => memRead t.mem (e + 16) 8 = 2 + 256 * reason ∧
        memRead t.mem (e + 32) 8 = s.time % 2 ^ 64 ∧ memRead t.mem (e + 40) 24 = 0 ∧ t.launches = s.launches ∧
        ((s.queue q).ien = true → .msix (8 + q) ∈ t.out)
      let found := u.readRecord ⟨(s.queue q).asid.toNat, true, 0, 0⟩ (BitVec.ofNat 64 (memRead s.mem e 8))
      ∃ t : State, exec .launchBegin s = .next t ∧ (t.queue q).head = i + 1 ∧ t.ctxs = s.ctxs ∧
        (∀ f, found = .error (.trap f) → rejected t 7) ∧
        (∀ h addrs, found = .ok (h, addrs) →
          let r := u.rejectReason ⟨(s.queue q).asid.toNat, decide (q < 4), none⟩ h
          let held := u.domainHeld (u.effField 1 h.polder 7 1) = true ∨ u.remapping h.polder = true
          (r ≠ 0 → rejected t r) ∧
          (r = 0 → held → t.heldLaunches = s.heldLaunches ++ [⟨q, e, (s.queue q).asid.toNat⟩] ∧ t.launches = s.launches) ∧
          (r = 0 → ¬held → ∃ l, t.launches = s.launches ++ [l] ∧ t.waiting = s.waiting ++ [l.id] ∧ l.id = s.seq ∧
            l.queue = some (q, e) ∧ l.polder = h.polder ∧ l.code = h.code ∧ l.super = h.super ∧ l.tasks = h.tasks ∧
            l.group = h.group ∧ l.addrs = addrs ∧ l.nextGroup = 0 ∧ l.ended = 0 ∧ l.failed = false ∧ l.begun ≠ 0 ∧
            (h.token = false → h.join = 0#64 → memRead t.mem (e + 16) 8 = 1 ∧
              memRead t.mem (e + 24) 8 = s.time % 2 ^ 64 ∧ memRead t.mem (e + 40) 24 = 0)))) ∧
    (∀ (src : Source) (h : Machine.Header), let p := (src.bound.map (·.1)).getD h.polder
      let r := s.rejectReason src h
      r ≤ 8 ∧ (r = 1 ↔ 4096 ≤ p ∨ (s.polField p 2 2).testBit 0 = false) ∧ (r = 2 → h.code.toNat % 4 ≠ 0) ∧
      (r = 0 → h.code.toNat % 4 = 0 ∧ 1 ≤ h.tasks ∧ h.group ≤ 16 ∧ h.pclass ≠ 3 ∧ (h.super = true → src.priv = true) ∧
        h.joinn ≤ 16 ∧ h.dmapn ≤ 64 ∧ h.imgn ≤ 256 ∧ h.sporg % 64 = 0 ∧ h.sporg + h.spad ≤ 0x1B0000 ∧ h.done.toNat % 8 = 0 ∧
        s.effField 2 p 8 2 = src.asid) ∧
      (r ≠ 1 → h.code.toNat % 4 ≠ 0 → r = 2) ∧
      (r = 5 → h.super = true ∧ src.priv = false) ∧ (r = 8 → s.effField 2 p 8 2 ≠ src.asid))

/-- R14, R282, R284: a group of one task without images or schedule that finds a place starts on the lowest free context of its
core: s1 holds its address, s2 its index, s3 the number of tasks, every other register is 0, and no other context changes.
With no place and no victim nothing changes; with a victim group, each of its contexts whose task has not ended is asked to stop. A
part that is not ready places nothing (R386).

Some clauses rest on choices of the model (logs 39, 59). -/
def Obligations.GroupPlacement : Prop :=
  ∀ (s : State) (l : Launch), s.waits l.id = some l → (∀ m ∈ s.launches, m.id = l.id → m.failed = false) →
    (s.rontal.state ≠ 2#3 → exec (.groupPlacement l.id) s = .next s) ∧
    (∀ k a c rest, s.findPlace l l.nextGroup false = some [k] → l.groupAddrs l.nextGroup = [a] → s.placedFirst l.id = false →
      s.rontal.state = 2#3 → s.freeOn k [] = c :: rest → l.imgn = 0 → l.sched = 0#64 →
      ∃ t : State, exec (.groupPlacement l.id) s = .next t ∧ t.mem = s.mem ∧
        t.launches = s.launches.map (fun m => if m.id == l.id then { m with nextGroup := m.nextGroup + 1 } else m) ∧
        (∀ d, d ≠ c → t.ctx d = s.ctx d) ∧ (t.ctx c).pc = l.code ∧
        (t.ctx c).mode = (if l.super then Mode.supervisor else Mode.user) ∧
        (∀ r, vget (t.ctx c).regs r = if r = 1#5 then a else if r = 2#5 then BitVec.ofNat 64 (l.nextGroup * max l.group 1)
          else if r = 3#5 then BitVec.ofNat 64 l.tasks else 0#64) ∧
        t.ctx c = { Ctx.reset with
          pc := (t.ctx c).pc, mode := (t.ctx c).mode, regs := (t.ctx c).regs, race := (t.ctx c).race
          task := some ⟨l.id, l.nextGroup * max l.group 1, l.nextGroup * max l.group 1 / max l.group 1, s.logical k⟩
          readyAt := s.cycles, lastIssue := s.cycles }) ∧
    (s.rontal.state = 2#3 → s.findPlace l l.nextGroup false = none →
      (s.preempting = true ∨ s.victim l = none → exec (.groupPlacement l.id) s = .next s) ∧
      (∀ cs, s.preempting = false → s.victim l = some cs → ∃ t : State, exec (.groupPlacement l.id) s = .next t ∧
        t = { s with ctxs := t.ctxs } ∧ (∀ c, c ∉ cs → t.ctx c = s.ctx c) ∧
        ∀ c ∈ cs, ((s.ctx c).ending ≠ .none → t.ctx c = s.ctx c) ∧ ((s.ctx c).ending = .none → (t.ctx c).asleep = false ∧
          ((t.ctx c).preempt = .req s.time ∨ ∃ m, (t.ctx c).preempt = .stopped s.time false m))))

/-- R283, R296, R304: a task that is ending waits for its stall steps, operations, loads and stores, where it is killed or stopped
its copies being cancelled; then its context is free, no other context changes, and unless a fault-domain stop ended it the launch
counts it, also in DONE; the last one completes the launch, whose queue entry takes STATE 3 and the time.

Some clauses rest on choices of the model (logs 37, 59, 66). -/
def Obligations.TaskEnds : Prop :=
  ∀ (s : State) (c : Nat) (w : Task) (l : Launch), (s.ctx c).task = some w →
    s.launches.find? (fun m => m.id == w.launch) = some l → (s.ctx c).ending ≠ .none →
    let copy := fun (o : Op) => o.ctx = c ∧ o.engine = 4 ∧ o.entry = none
    let drained := s.opsDone c = true ∧ s.loadsDone c = true ∧ ((s.ctx c).ending = .stopped ∨ s.storesDone c 4 = true)
    ((s.ctx c).owed ≠ 0 → exec (.taskEnd c) s = .next s) ∧
    ((s.ctx c).owed = 0 → ((s.ctx c).ending = .finished ∨ ∀ o ∈ s.ops, ¬ copy o) → ¬drained → exec (.taskEnd c) s = .next s) ∧
    ((s.ctx c).owed = 0 → (s.ctx c).ending ≠ .finished → ∃ t : State, exec (.taskEnd c) s = .next t ∧
      (∀ o ∈ t.ops, ¬ copy o) ∧ ∀ k, k ≠ c → t.ctx k = s.ctx k) ∧
    ((s.ctx c).owed = 0 → (∀ o ∈ s.ops, ¬ copy o) → drained → ∃ t : State, exec (.taskEnd c) s = .next t ∧
      t.ctx c = Ctx.reset ∧ (∀ k, k ≠ c → t.ctx k = s.ctx k) ∧ (t.core (coreOf c)).holder ≠ some c ∧
      ((s.ctx c).ending ≠ .stopped → l.failed = false → l.consumer = none → l.ended + 1 = l.tasks →
        t.launches = s.launches.filter (fun m => m.id != w.launch)) ∧
      ((s.ctx c).ending ≠ .stopped → l.failed = false → l.ended + 1 ≠ l.tasks → t.launches =
        s.launches.map (fun m => if m.id == w.launch then { m with ended := m.ended + 1 } else m)) ∧
      ((s.ctx c).ending = .stopped → l.failed = true → ∀ m ∈ t.launches, m ∈ s.launches) ∧
      (let unbound := ∀ n, n < 8 → ((s.ctx c).binding n).bound = false
       (unbound → (l.done = none ∨ (s.ctx c).ending = .stopped) → l.queue = none → t.mem = s.mem) ∧
       (∀ a pages, unbound → (s.ctx c).ending ≠ .stopped → l.queue = none → l.done = some a → a.toNat % 8 = 0 → s.poison = [] →
          s.spanPages l.agent .write a 8 = .ok pages →
          leNat (t.pageBytes pages a 8) = (leNat (s.pageBytes pages a 8) + 1) % 2 ^ 64)) ∧
      (∀ q e, (s.ctx c).ending ≠ .stopped → l.failed = false → l.consumer = none → l.ended + 1 = l.tasks →
        l.queue = some (q, e) → memRead t.mem (e + 16) 8 = 3 ∧ memRead t.mem (e + 32) 8 = s.time % 2 ^ 64 ∧ memRead t.mem (e + 40) 24 = 0 ∧
        ((s.queue q).ien = true → .msix (8 + q) ∈ t.out)))

/-- R205, R288, R289, R391: once D, at least 1,000 ns, has passed since the request, a context of a standard launch is forced to
stop, and one of another class is not. A stopped context whose operations are discharged is saved with its registers that the live
mask names and the bytes of its base-slice allotment, a stream binding that the mask leaves out ended, and is free. A saved task
that returns, to the core it left whatever the core map has become, holds what was saved.

Some clauses rest on choices of the model (logs 40, 59, 66). -/
def Obligations.PreemptionOfTasks : Prop :=
  ∀ s : State,
    (∀ c t0 l, (s.ctx c).preempt = .req t0 → s.launchOf c = some l → (s.ctx c).ending = .none →
      (t0 + max 1000 s.pdl.toNat ≤ s.time →
        (l.pclass = 0 → exec (.preemptionDeadline c) s =
          .next (s.modCtx c (fun x => { x with preempt := .stopped t0 true (BitVec.allOnes 32) }))) ∧
        (l.pclass ≠ 0 → exec (.preemptionDeadline c) s = .next s)) ∧
      (s.time < t0 + max 1000 s.pdl.toNat → exec (.preemptionDeadline c) s = .next s)) ∧
    (∀ c t0 f m, (s.ctx c).preempt = .stopped t0 f m → s.discharged c t0 = false → exec (.save c) s = .next s) ∧
    (∀ c t0 f m w, (s.ctx c).preempt = .stopped t0 f m → (s.ctx c).task = some w → (s.ctx c).ending = .none →
      s.discharged c t0 = true → (s.ctx c).dying = false → (∀ g ∈ s.saved, ∀ y ∈ g.ctxs, y.image.dying = false) →
      let lost := fun (n : Nat) => n < 8 ∧ ((s.ctx c).binding n).bound = true ∧ m.getLsbD (4 + n / 2) = false
      ∃ t : State, exec (.save c) s = .next t ∧ t.ctx c = Ctx.reset ∧ (∀ k, k ≠ c → t.ctx k = s.ctx k) ∧
        (∀ o ∈ t.ops, o.ctx ≠ c) ∧ (t.core (coreOf c)).holder ≠ some c ∧
        ∃ g ∈ t.saved, g.launch = w.launch ∧ g.group = w.group ∧ ∃ x ∈ g.ctxs, x.place = coreOf c ∧
          x.image.pc = (s.ctx c).pc ∧ x.image.mode = (s.ctx c).mode ∧ x.image.task = some w ∧ x.image.preempt = .none ∧
          x.image.shadow = (s.ctx c).shadow ∧ x.image.trp = (s.ctx c).trp ∧ x.image.inh = (s.ctx c).inh ∧
          (∀ r : BitVec 5, (r = 0#5 ∨ m.getLsbD (8 + r.toNat / 2) = true) → vget x.image.regs r = vget (s.ctx c).regs r) ∧
          (∀ r : BitVec 5, m.getLsbD (24 + r.toNat / 4) = true → (∀ n, lost n → ((s.ctx c).binding n).hreg ≠ r) →
            vget x.image.hregs r = vget (s.ctx c).hregs r) ∧
          (∀ n, lost n → (x.image.binding n).bound = false ∧
            (m.getLsbD (24 + ((s.ctx c).binding n).hreg.toNat / 4) = true →
              hKind (vget x.image.hregs ((s.ctx c).binding n).hreg) = kRing)) ∧
          (m.getLsbD 2 = true → x.image.preds = (s.ctx c).preds) ∧
          ((∀ n, n < 8 → ((s.ctx c).binding n).bound = false) → (∀ o ∈ s.ops, o.ctx ≠ c) → t.mem = s.mem ∧ x.copies = [] ∧
            (∀ p ∈ s.mem, spadLoc (coreOf c) (s.spadOf c).1 ≤ p.1 →
              p.1 < spadLoc (coreOf c) (s.spadOf c).1 + (s.spadOf c).2 → p ∈ x.spad) ∧
            (m.getLsbD 1 = true → ∀ p ∈ s.mem, spadLoc (coreOf c) (accBase + 4096 * (s.accOf c).1) ≤ p.1 →
              p.1 < spadLoc (coreOf c) (accBase + 4096 * (s.accOf c).1) + 4096 * (s.accOf c).2 → p ∈ x.spad))) ∧
    (∀ g grp l, s.saved[g]? = some grp → s.launches.find? (fun m => m.id == grp.launch) = some l →
      ((s.rontal.state ≠ 2#3 ∨ s.mayReturn' grp l = false) → exec (.resume g) s = .next s) ∧
      (∀ x c rest, s.rontal.state = 2#3 → s.mayReturn' grp l = true → grp.ctxs = [x] → s.freeOn x.place [] = c :: rest →
        grp.rings = [] → x.image.preempt = .none → x.image.edges = [] → x.image.after = none → x.image.xfer = none →
        ∃ t : State, exec (.resume g) s = .next t ∧ t.saved = s.saved.eraseIdx g ∧ (∀ k, k ≠ c → t.ctx k = s.ctx k) ∧
          (t.ctx c).pc = x.image.pc ∧ (t.ctx c).regs = x.image.regs ∧ (t.ctx c).hregs = x.image.hregs ∧
          (t.ctx c).preds = x.image.preds ∧ (t.ctx c).mode = x.image.mode ∧ (t.ctx c).task = x.image.task ∧
          (t.ctx c).trp = x.image.trp ∧ (t.ctx c).shadow = x.image.shadow ∧
          ((∀ o ∈ x.copies, o.engine ≠ 4) →
            t.ctx c = { x.image with
              readyAt := s.cycles, lastIssue := s.cycles, rowsOwed := (t.ctx c).rowsOwed, waitFrom := (t.ctx c).waitFrom } ∧
            (x.rows = [] → x.image.rowsOwed = [] → (t.ctx c).rowsOwed = []) ∧
            (∀ pre post p, x.spad = pre ++ p :: post → (∀ q ∈ post, q.1 ≠ p.1) → memGet t.mem p.1 = p.2) ∧
            (∀ y, (∀ q ∈ x.spad, q.1 ≠ y) → spadLoc x.place l.sporg ≤ y → y < spadLoc x.place l.sporg + l.spad →
              memGet t.mem y = 0#8))))

/-! The weir and membership (spec 12 R325, R326, R340 to R343). -/

/-- R340, R341: a limit that this module's supervisor asks for is rounded and clamped; a lower one is announced 250 µs ahead, a
higher one proposed to every other member; the lowering is repeated until every other member has acknowledged it. Lowerings
and proposals of another member are acknowledged and wait for their instant; a lowering that is late applies at once unless a
later change of that member is in force, and a repeated one changes nothing; a proposal waits for the other members' grants too,
those that came before it counting. A change comes into force when its instant has passed and no grant is
outstanding. The ceiling is the least limit, and 1,400 MHz at the floor.

R342, R343: a heartbeat goes out every 100 µs with the announcements still open; one that comes in is noted, or tells this
module that it has been evicted. Silence of 300 µs evicts: the ceiling drops to the floor, SEQ counts, and every collective in
flight that includes an evicted member, without a join, faults. A request to join makes a member at the next SEQ once the other
members have acknowledged it, before it or after; a departing
member leaves, this module once its collectives have completed. (The messages of a joining module are the model's, log 46.)

Some clauses rest on choices of the model (logs 46, 59). -/
def Obligations.WeirAndMembership : Prop :=
  (∀ s : State, let f := s.fabric
     (∀ v : BitVec 12, let lim := max 1400 (min 2100 (v.toNat / 25 * 25))
       (lim < s.ownLimit → exec (.weirReq v) s = .next { s with
         fabric := { f with request := v.toNat, announces := f.announces ++ [⟨f.node, lim, s.time + 250000, false, []⟩],
                            unacked := if f.others = [] then f.unacked
                              else f.unacked ++ [⟨f.node, lim, s.time + 250000, false, f.others⟩] }
         out := if s.grouped then s.out ++ [.lowering f.seq.toNat lim (s.time + 250000)] else s.out }) ∧
       (s.ownLimit < lim ∨ (s.ownLimit = lim ∧ f.floor = true) → exec (.weirReq v) s = .next { s with
         fabric := { f with request := v.toNat, announces := f.announces ++ [⟨f.node, lim, s.time + 250000, true, f.others⟩] }
         out := if s.grouped then s.out ++ [.proposal lim (s.time + 250000)] else s.out }) ∧
       (s.ownLimit = lim → f.floor = false → exec (.weirReq v) s = .next { s with fabric := { f with request := v.toNat } })) ∧
     (∀ node limit at_ : Nat, s.grouped = true → node ∈ f.others →
       let low : Announce := ⟨node, limit, at_, false, []⟩
       let up : Announce := ⟨node, limit, at_, true,
         f.others.filter (fun n => n != node && !f.grantsEarly.contains (node, n, limit, at_))⟩
       let known : Prop := ∃ b ∈ f.known, b.node = node ∧ b.limit = limit ∧ b.at_ = at_ ∧ b.raise = true
       let superseded : Prop := ∃ b ∈ f.known, b.node = node ∧ at_ < b.at_ ∧
         ∀ c ∈ f.announces, ¬(c.node = node ∧ c.limit = b.limit ∧ c.at_ = b.at_ ∧ c.raise = b.raise)
       (low ∈ f.known →
         exec (.loweringAnnouncement node limit at_) s = .next { s with out := s.out ++ [.lowered node limit at_] }) ∧
       (low ∉ f.known → s.time ≤ at_ → exec (.loweringAnnouncement node limit at_) s =
         .next { s with
           out := s.out ++ [.lowered node limit at_]
           fabric := { f with announces := f.announces ++ [low], known := f.known ++ [low] } }) ∧
       (low ∉ f.known → at_ < s.time → ∃ t : State, exec (.loweringAnnouncement node limit at_) s = .next t ∧
         (superseded → t.fabric.limits = f.limits) ∧ (¬ superseded → t.limitOf node = limit) ∧
         (∀ n, n ≠ node → t.limitOf n = s.limitOf n) ∧ t.fabric.late.toNat = min 65535 (f.late.toNat + 1) ∧
         t = { s with
           out := s.out ++ [.lowered node limit at_]
           fabric := { f with limits := t.fabric.limits, late := t.fabric.late, known := f.known ++ [low] } }) ∧
       (known → exec (.raiseProposal node limit at_) s = .next { s with out := s.out ++ [.grant node limit at_] }) ∧
       (¬known → exec (.raiseProposal node limit at_) s =
         .next { s with
           out := s.out ++ [.grant node limit at_]
           fabric := { f with announces := f.announces ++ [up], known := f.known ++ [up],
                              grantsEarly := f.grantsEarly.filter (fun g => !(g.1 == node && g.2.2 == (limit, at_))) } })) ∧
     (∀ node limit at_ n : Nat, (∃ a ∈ (s.loweringKnown node limit at_).fabric.unacked, n ∈ a.waiting ∧ a.limit = limit ∧ a.at_ = at_) ↔
       n ≠ node ∧ ∃ a ∈ f.unacked, n ∈ a.waiting ∧ a.limit = limit ∧ a.at_ = at_) ∧
     (∀ node : Nat, let first := f.announces.find? (fun a => a.node == f.node && a.raise && a.waiting.contains node)
       (first = none → exec (.raiseGrant node) s = .next s) ∧
       (∀ a, first = some a → node ∈ f.members → exec (.raiseGrant node) s = .next { s with
         fabric := { f with announces := f.announces.map (fun b =>
           if b.node = f.node ∧ b.limit = a.limit ∧ b.at_ = a.at_ ∧ b.raise = true then
             { b with waiting := b.waiting.filter (fun n => n != node) } else b) } })) ∧
     (∀ proposer node limit at_ : Nat, node ∈ f.members → proposer ≠ f.node →
       (∀ b, b ∈ f.announces ∨ b ∈ f.known → ¬(b.node = proposer ∧ b.limit = limit ∧ b.at_ = at_ ∧ b.raise = true)) →
       (s.grantedFor proposer node limit at_).fabric.grantsEarly = f.grantsEarly ++ [(proposer, node, limit, at_)]) ∧
     (∃ t : State, exec .ceilingChange s = .next t ∧
       t = { s with fabric := { f with announces := t.fabric.announces, limits := t.fabric.limits, floor := t.fabric.floor } } ∧
       (∀ a, a ∈ t.fabric.announces ↔ a ∈ f.announces ∧ ¬(a.at_ ≤ s.time ∧ a.waiting = [])) ∧
       (∀ n, (∀ a ∈ f.announces, a.at_ ≤ s.time → a.waiting = [] → a.node ≠ n) → t.limitOf n = s.limitOf n) ∧
       (∀ a, f.announces.filter (fun b => decide (b.at_ ≤ s.time) && b.waiting.isEmpty) = [a] →
         t.limitOf a.node = a.limit ∧ t.fabric.floor = (f.floor && !a.raise))) ∧
     (f.floor = true → s.ceiling = 1400) ∧
     (f.floor = false → s.ceiling ≤ s.ownLimit ∧ (∀ m ∈ f.members, s.ceiling ≤ s.limitOf m) ∧
       ∃ m, (m = f.node ∨ m ∈ f.members) ∧ s.ceiling = s.limitOf m)) ∧
  (∀ s : State, let f := s.fabric
     (s.grouped = true → f.sentAt + 100000 ≤ s.time → ∃ t : State, exec .heartbeatSend s = .next t ∧
       t = { s with fabric := { f with sentAt := s.time }, out := t.out } ∧
       t.out = s.out ++ .heartbeat f.seq.toNat s.ownLimit f.members :: (f.announces.filter (fun a => a.node == f.node && a.raise && !a.waiting.isEmpty)).map
         (fun a => Outgoing.proposal a.limit a.at_) ++ f.unacked.map (fun a => Outgoing.lowering f.seq.toNat a.limit a.at_)) ∧
     (s.grouped = false ∨ s.time < f.sentAt + 100000 → exec .heartbeatSend s = .next s) ∧
     (∀ (node seq limit : Nat) (ms : List Nat), s.part.fabric = true → node ≠ f.node → node ∈ f.members →
       let newer := 0 < (BitVec.ofNat 32 seq - f.seq).toInt
       (f.node ∈ ms → (newer → ∀ n ∈ f.others, n ∈ ms) → ∃ t : State, exec (.heartbeat node seq limit ms) s = .next t ∧
         t = { s with fabric := { f with heard := t.fabric.heard, limits := t.fabric.limits } } ∧
         tblGet t.fabric.heard node 0 = s.time ∧
         (tblFind f.limits node = none → t.limitOf node = limit) ∧ (tblFind f.limits node ≠ none → t.fabric.limits = f.limits)) ∧
       (newer → f.node ∈ ms → (∃ n ∈ f.others, n ∉ ms) → ∃ t : State, exec (.heartbeat node seq limit ms) s = .next t ∧
         (∀ n, n ∈ t.fabric.members ↔ n ∈ f.members ∧ (n = f.node ∨ n ∈ ms)) ∧ t.fabric.seq = BitVec.ofNat 32 seq ∧
         t.fabric.floor = true ∧ t.ceiling = 1400) ∧
       (newer → f.node ∉ ms → ∃ t : State, exec (.heartbeat node seq limit ms) s = .next t ∧
         t.fabric.members = f.members.filter (fun n => n == f.node) ∧ t.fabric.floor = true ∧ t.ceiling = 1400)) ∧
     (∀ (node limit seq : Nat) (ms : List Nat), s.part.fabric = true → f.forming = none → f.joining = true →
       let t := s.joinKnown node f.node limit seq ms
       let all := ∀ n ∈ ms, n = f.node ∨ n = node ∨ tblFind f.acks n ≠ none
       (¬all → t = { s with fabric := { f with acks := tblSet f.acks node (limit, seq) } }) ∧
       (all → t.fabric.joining = false ∧ (∀ n, n ∈ t.fabric.members ↔ n = f.node ∨ n ∈ ms) ∧ t.limitOf node = limit ∧
         ∀ q ∈ f.acks, q.1 ≠ node → (∀ r ∈ f.acks, r.1 = q.1 → r = q) → t.limitOf q.1 = q.2.1)) ∧
     (∀ node, s.part.fabric = true → node ∈ f.others → tblGet f.heard node 0 + 300000 ≤ s.time →
       let gone := f.others.filter (fun n => decide (tblGet f.heard n 0 + 300000 ≤ s.time))
       ∃ t : State, exec (.memberEviction node) s = .next t ∧ node ∉ t.fabric.members ∧
         (∀ n, n ∈ t.fabric.members ↔ n ∈ f.members ∧ n ∉ gone) ∧ t.fabric.floor = true ∧ t.ceiling = 1400 ∧
         t.fabric.seq = f.seq + 1 ∧ t.fabric.evict.toNat = min 65535 (f.evict.toNat + gone.length) ∧ t.mem = s.mem ∧
         ∀ o ∈ s.colls, o.done = false → o.join = none → (∃ n ∈ o.members, n ∈ gone) →
           ∃ e ∈ (t.ctx o.ctx).faults, e.engine = 5 ∧ e.cause = cMemberSilent ∧ e.coll = o.ident) ∧
     (∀ node limit : Nat, s.part.fabric = true → node ∉ f.members → node < 256 →
       let wait := f.others.filter (fun n => !(tblGet f.early node []).contains n)
       let told := s.out ++ [.joinAcknowledgement node s.ownLimit f.seq.toNat f.members]
       (tblFind f.admits node ≠ none → exec (.joinRequest node limit) s = .next { s with out := told }) ∧
       (tblFind f.admits node = none → wait ≠ [] → (∀ p ∈ f.admits, p.2.2 ≠ []) → exec (.joinRequest node limit) s =
         .next { s with out := told, fabric := { f with admits := tblSet f.admits node (limit, wait), early := tblDel f.early node } }) ∧
       (wait = [] → f.admits = [] → ∃ t : State, exec (.joinRequest node limit) s = .next t ∧ t.out = told ∧
         (∀ n, n ∈ t.fabric.members ↔ n = node ∨ n ∈ f.members) ∧ t.fabric.seq = f.seq + 1 ∧ t.limitOf node = limit)) ∧
     (∀ node limit : Nat, s.part.fabric = false ∨ node ∈ f.members ∨ 256 ≤ node → exec (.joinRequest node limit) s = .next s) ∧
     (∀ node, s.grouped = true → node ∈ f.members →
       (node ≠ f.node → ∃ t : State, exec (.departure node) s = .next t ∧ t = { s with fabric := t.fabric } ∧
         t.fabric.members = f.members.filter (fun n => n != node) ∧ t.fabric.seq = f.seq + 1) ∧
       (node = f.node → f.leaving = true → (∀ o ∈ s.colls, o.done = true) → ∃ t : State,
         exec (.departure node) s = .next t ∧ t.fabric.members = f.members.filter (fun n => n == f.node) ∧
         t.fabric.leaving = false ∧ t.out = s.out ++ [.departure]) ∧
       (node = f.node → ¬(f.leaving = true ∧ ∀ o ∈ s.colls, o.done = true) → exec (.departure node) s = .next s)))

/-- R325, R326: an access of another member that a grant admits reads or writes package memory at the grant's base plus the
offset in it; a read or an atomic is answered with what was there; one that no grant admits does nothing. A window load that
has not returned within 1 ms completes with an error attached to its register.

R10, R369, R371, R372, R377, R378: what a host write to each register of BAR0 does, and that one to an offset no block assigns is
ignored. Writes of a queue's BASE, SIZE, LOC and ASID are ignored while it is enabled.

R92, R368, R371: a host access through BAR2 reaches package memory at BASE plus its offset; it reads, writes or performs a
FetchAdd, Swap or CAS there. One that reaches absent memory sets HOSTERR; a read of it returns all ones. A window that asks for encryption under an empty key
slot gives bytes that the spec leaves open (log 52).

R377: the host's acknowledgement of a fault domain clears its bit of DEV.FDSTAT, and no other.

Some clauses rest on choices of the model (logs 25, 47, 53, 59). -/
def Obligations.WindowsAndHostRegisters : Prop :=
  (∀ s : State,
     (∀ (node op : BitVec 8) (off size : Nat) (data cmp : BitVec 64) (g : Grant), s.part.fabric = true →
       node.toNat ∈ s.fabric.others → op.toNat ≤ 11 → s.grantOf s.fabric.node off = some g →
       let pa := g.base + (off - g.lo)
       let old := memRead s.mem pa size
       let admitted := (if op = 0#8 then g.read else g.write) = true ∧ off + size ≤ g.hi + 1 ∧
         ∀ k, g.key = some k → tblFind s.rontal.keys k ≠ none
       (¬admitted → exec (.fabricWindowAccess node op off size data cmp) s = .next s) ∧
       (admitted → ∃ t : State, exec (.fabricWindowAccess node op off size data cmp) s = .next t ∧ t.ctxs = s.ctxs ∧
         t.out = s.out ++ (if op = 1#8 then [] else [.windowReply node.toNat (BitVec.ofNat 64 old)]) ∧
         (op = 0#8 → t.mem = s.mem) ∧ (∀ y, (y < pa ∨ pa + size ≤ y) → memGet t.mem y = memGet s.mem y) ∧
         (op ≠ 0#8 → ∀ j, j < size → memGet t.mem (pa + j) = BitVec.ofNat 8 ((if op = 1#8 then data.toNat
           else atomicNew (op.toNat - 2) size old data.toNat cmp.toNat) / 256 ^ j)))) ∧
     (∀ (node op : BitVec 8) (off size : Nat) (data cmp : BitVec 64), s.grantOf s.fabric.node off = none →
       exec (.fabricWindowAccess node op off size data cmp) s = .next s) ∧
     (∀ l : PendLoad, s.loads.find? (fun k => k.id == l.id) = some l → l.remote = true → l.issued + 1000000 ≤ s.time →
       ∃ t : State, exec (.windowAccessTimeout l.id) s = .next t ∧ t.loads = s.loads.filter (fun k => k.id != l.id) ∧
         t.mem = s.mem ∧ t.ctx l.ctx = { s.ctx l.ctx with busyErr := (t.ctx l.ctx).busyErr } ∧
         ((s.ctx l.ctx).busy l.file l.reg = true →
           (t.ctx l.ctx).busyErr = (s.ctx l.ctx).busyErr ++ [(l.file, l.reg, l.addr)]))) ∧
  (∀ (s : State) (v : BitVec 64),
     let put := fun (off : Nat) => exec (.registerWrite true off v) s
     put 0x0 = .next (if v.getLsbD 16 then { s with rontal := { s.rontal with hostErr := false } } else s) ∧
     put 0x8 = .next (if v.extractLsb' 0 2 = 0#2 then s else { s with rontal := { s.rontal with request := v.setWidth 3 } }) ∧
     (∀ w, w < 4 → ∃ t : State, put (0x40 + 8 * w) = .next t ∧
       t = { s with rontal := { s.rontal with fdstat := t.rontal.fdstat } } ∧
       ∀ i, i < 256 → t.rontal.fdstat.getLsbD i = (s.rontal.fdstat.getLsbD i && !(i / 64 == w && v.getLsbD (i % 64)))) ∧
     (∀ n, n < 32 → let q := s.queue n
       put (0x1000 + 64 * n) = .next (if q.en then s else s.setQueue n { q with base := BitVec.ofNat 64 (v.toNat / 64 * 64) }) ∧
       put (0x1000 + 64 * n + 8) = .next (s.setQueue n (if q.en then { q with ien := v.getLsbD 3, en := v.getLsbD 0 }
         else { q with ien := v.getLsbD 3, en := v.getLsbD 0, asid := v.extractLsb' 32 12, size := v.extractLsb' 16 4,
                       loc := v.getLsbD 1 })) ∧
       put (0x1000 + 64 * n + 16) =
         .next { s.setQueue n { q with tail := v.setWidth 16 } with
           doorbells := s.doorbells ++ [(n, v.setWidth 16)], intervals := s.intervals + 1 }) ∧
     (∀ k, k < 128 → ∃ t : State, put (0x2000 + 8 * k) = .next t ∧
       t = { s with rontal := { s.rontal with msix := t.rontal.msix } } ∧ tblFind t.rontal.msix k = some v ∧
       ∀ j, j ≠ k → tblFind t.rontal.msix j = tblFind s.rontal.msix j) ∧
     put 0x8000 = .next { s with rontal := { s.rontal with
       winBase := v.extractLsb' 36 16, winKey := v.extractLsb' 17 13, winEnc := v.getLsbD 16 } } ∧
     (s.rontal.busy = false → ∃ t : State, put 0x4000 = .next t ∧ t.rontal.busy = true ∧
       t = { s with rontal := { s.rontal with busy := true, mailbox := t.rontal.mailbox } } ∧
       (∀ j, j < 4 → tblFind t.rontal.mailbox j = some (BitVec.ofNat 8 (v.toNat / 256 ^ j))) ∧
       (∀ j, 4 ≤ j → j < 8 → tblFind t.rontal.mailbox j = some 0#8) ∧
       ∀ j, 8 ≤ j → tblFind t.rontal.mailbox j = tblFind s.rontal.mailbox j) ∧
     (s.rontal.busy = true → put 0x4000 = .next s) ∧
     (∀ k, 64 ≤ k → k < 4096 → ∃ t : State, put (0x4000 + k) = .next t ∧
       t = { s with rontal := { s.rontal with mailbox := t.rontal.mailbox } } ∧
       (∀ j, j < 8 → tblFind t.rontal.mailbox (k + j) = some (BitVec.ofNat 8 (v.toNat / 256 ^ j))) ∧
       ∀ j, (j < k ∨ k + 8 ≤ j) → tblFind t.rontal.mailbox j = tblFind s.rontal.mailbox j) ∧
     (∀ off, (0x10 ≤ off ∧ off < 0x40 ∨ 0x60 ≤ off ∧ off < 0x1000 ∨ 0x1800 ≤ off ∧ off < 0x2000 ∨
       0x2400 ≤ off ∧ off < 0x4000 ∨ 0x5000 ≤ off ∧ off < 0x8000 ∨ 0x8008 ≤ off) → put off = .next s) ∧
     exec (.registerWrite false 0x106 v) s = .next (s.modMe (fun c => { c with trp := { c.trp with scrA := v } }))) ∧
  (∀ (s : State) (op : BitVec 8) (off size data : Nat) (cmp : BitVec 64),
     off + size ≤ 2 ^ 36 → 1 ≤ size → (op.toNat ≤ 1 ∨ op.toNat ∈ [2, 10, 11] ∧ (size = 4 ∨ size = 8)) →
     let pa := s.rontal.winBase.toNat * 2 ^ 36 + off
     let old := memRead s.mem pa size
     (s.installed pa size = false → exec (.hostWindowAccess op off size data cmp) s = .next { s with
       rontal := { s.rontal with hostErr := true }
       out := if op = 1#8 then s.out else s.out ++ [.hostData (2 ^ (8 * size) - 1)] }) ∧
     (s.installed pa size = true → (s.rontal.winEnc = true → tblFind s.rontal.keys s.rontal.winKey.toNat ≠ none) →
       ∃ t : State, exec (.hostWindowAccess op off size data cmp) s = .next t ∧ t.ctxs = s.ctxs ∧ t.rontal = s.rontal ∧ t.out = (if op = 1#8 then s.out else s.out ++ [.hostData old]) ∧
       (op = 0#8 → t.mem = s.mem) ∧ (∀ y, (y < pa ∨ pa + size ≤ y) → memGet t.mem y = memGet s.mem y) ∧
       (op ≠ 0#8 → ∀ j, j < size → memGet t.mem (pa + j) = BitVec.ofNat 8 ((if op = 1#8 then data
         else if op = 2#8 then (old + data % 2 ^ (8 * size)) % 2 ^ (8 * size)
         else if op = 10#8 then data % 2 ^ (8 * size)
         else if old = cmp.toNat % 2 ^ (8 * size) then data % 2 ^ (8 * size) else old) / 256 ^ j))) ∧
     (s.installed pa size = true → s.rontal.winEnc = true → tblFind s.rontal.keys s.rontal.winKey.toNat = none →
       ∃ t : State, exec (.hostWindowAccess op off size data cmp) s = .next t ∧ t.ctxs = s.ctxs ∧ t.rontal = s.rontal ∧
         t.out.length = s.out.length + (if op = 1#8 then 0 else 1) ∧
         ∀ y, (y < pa ∨ pa + size ≤ y) → memGet t.mem y = memGet s.mem y)) ∧
  (∀ (s : State) (d : BitVec 8), ∃ t : State, exec (.faultDomainAcknowledge d) s = .next t ∧
     t = { s with rontal := { s.rontal with fdstat := t.rontal.fdstat } } ∧
     ∀ i, i < 256 → t.rontal.fdstat.getLsbD i = (s.rontal.fdstat.getLsbD i && i != d.toNat))

/-! The host and the management port (spec 14 R368 to R372, R377, R378, R380 to R385, R387, R391). -/

/-- R343, R378, R382, R383, R387: a command whose code the host has written, and whose end it awaits, ends with a status, a payload and vector 0, and does what its row
says: the addresses of the tables; joining, leaving and forming a group, refused without UALink; a key is loaded only in a
session and never into slot 0, and loading a slot that has held none changes no memory; the measurements are signed with the
caller's nonce, where there is an identity key. A command that is not the one in the mailbox does nothing.

R380, R381, R383 to R385, R387, R391: what each command of the Aqkin port answers and changes.

Some clauses rest on choices of the model (logs 9, 10, 32, 52, 53, 59). -/
def Obligations.RontalCommands : Prop :=
  (∀ s : State,
     let ends := fun (i : Instr) (code status : Nat) (payload : List Byte) (f : Fabric) (keys : Tbl (BitVec 256))
         (first : List Outgoing) => s.rontal.busy = true → s.mailCode = code →
       ∃ t : State, exec i s = .next t ∧ t.rontal.busy = false ∧
         t = { s with fabric := f, out := s.out ++ first ++ [.reply code status payload, .msix 0]
                      rontal := { s.rontal with busy := false, keys := keys, mailbox := t.rontal.mailbox } } ∧
         (payload = [] → tblFind t.rontal.mailbox 4 = some (BitVec.ofNat 8 status))
     let f := s.fabric
     let keys := s.rontal.keys
     (∀ (i : Instr) (code : Nat), (match i with
         | .info => code = 1
         | .group _ _ => code = 2
         | .keyLoad _ _ => code = 3
         | .keyClear _ => code = 4
         | .attest _ => code = 5
         | .errlog _ => code = 6
         | _ => False) → ¬(s.rontal.busy = true ∧ s.mailCode = code) → exec i s = .next s) ∧
     ends .info 1 1 ([Config.polderBase, Config.asidBase, Config.saveBase, Config.raceShadowBase].flatMap (leBytes 8)) f keys [] ∧
     (∀ nodes : List Nat,
       (s.part.fabric = false → ∀ cmd, ends (.group cmd nodes) 2 2 [] f keys []) ∧
       (s.part.fabric = true → ends (.group 0 nodes) 2 1 [] { f with joining := true, acks := [] } keys [.joinRequest s.ownLimit]) ∧
       (s.grouped = true → ends (.group 1 nodes) 2 1 [] { f with leaving := true } keys []) ∧
       (s.part.fabric = true → (∀ n ∈ f.node :: nodes, n < 256) → ∃ ms : List Nat, (∀ n, n ∈ ms ↔ n = f.node ∨ n ∈ nodes) ∧
         ms.Pairwise (· < ·) ∧
         ends (.group 2 nodes) 2 1 [] { f with forming := some ms, acks := [] } keys [.formRequest s.ownLimit f.seq.toNat ms])) ∧
     (∀ (slot : BitVec 13) (w : BitVec 320),
       ((slot = 0#13 ∨ s.rontal.session = none) → ends (.keyLoad slot w) 3 2 [] f keys []) ∧
       (∀ key, slot ≠ 0#13 → s.rontal.session = some key → match Config.unwrapKey key w with
         | none => ends (.keyLoad slot w) 3 2 [] f keys []
         | some k => s.rontal.busy = true → s.mailCode = 3 → ∃ t : State, exec (.keyLoad slot w) s = .next t ∧ slot.toNat ∈ t.rontal.worn ∧
             t = { s with mem := t.mem, out := s.out ++ [.reply 3 1 [], .msix 0]
                          rontal := { s.rontal with busy := false, keys := tblSet keys slot.toNat k, worn := t.rontal.worn,
                                                    mailbox := t.rontal.mailbox } } ∧
             tblFind t.rontal.mailbox 4 = some 1 ∧ (slot.toNat ∉ s.rontal.worn → t.mem = s.mem) ∧
             ∀ l, isPackage l = false → memGet t.mem l = memGet s.mem l) ∧
       (slot = 0#13 → ends (.keyClear slot) 4 2 [] f keys []) ∧
       (slot ≠ 0#13 → ends (.keyClear slot) 4 1 [] f (tblDel keys slot.toNat) [])) ∧
     (∀ nonce : BitVec 256, match s.report nonce with
         | some b => ends (.attest nonce) 5 1 b f keys []
         | none => ends (.attest nonce) 5 2 [] f keys []) ∧
     (∀ (index : BitVec 32) (es : List ErrEntry), s.rontal.errors = es → (∀ e ∈ es, index.toNat ≤ e.index.toNat) → es.length ≤ 125 →
       ends (.errlog index) 6 1 (leBytes 4 ((es.head?.map (fun e => e.index.toNat)).getD s.rontal.errCount.toNat) ++
         es.flatMap ErrEntry.bytes) f keys [])) ∧
  (∀ s : State, let r := s.rontal
     let answers := fun (i : Instr) (code status : Nat) (payload : List Byte) (r : Rontal) =>
       exec i s = .next { s with rontal := r, out := s.out ++ [.aqkin code status payload] }
     answers .status 1 1 ([s.devStat, s.layerMap 0, s.layerMap 1, BitVec.ofNat 64 r.portLost].flatMap (fun w => leBytes 8 w.toNat)) r ∧
     answers (.reset 0) 2 1 [] { r with request := 2 } ∧ answers (.reset 1) 2 1 [] { r with request := 1 } ∧
     answers (.reset 2) 2 1 [] { r with request := 5 } ∧ answers (.reset 3) 2 2 [] r ∧
     (∀ n : Nat, answers (.telemetry n) 3 1 ((r.port.take (min n 32)).flatMap (fun x => leBytes 32 x.toNat))
       { r with port := r.port.drop (min n 32) }) ∧
     (∀ off len : Nat, ((r.dump = none ∨ 1024 < len) → answers (.dumpRead off len) 4 2 [] r) ∧
       (∀ d, r.dump = some d → len ≤ 1024 → answers (.dumpRead off len) 4 1 ((d.drop off).take len) r)) ∧
     answers .dumpClear 5 1 [] { r with dump := none } ∧
     answers .configRead 6 1 (leBytes 1 r.provNode.toNat ++ r.provBody ++ leBytes 96 r.provSig.toNat ++ s.deviceSection ++
       leBytes 96 r.deviceSig.toNat) r ∧
     (∀ (node : BitVec 8) (slot rb : Nat) (body : List (BitVec 8)) (sig : BitVec 768),
       let good := Config.verify Config.firmwareKey (Config.sha384 ((if slot = 0 then leBytes 1 node.toNat else leBytes 4 rb) ++ body)) sig
       (2 < slot → answers (.configWrite node slot rb body sig) 7 2 [] r) ∧
       (slot = 0 → answers (.configWrite node slot rb body sig) 7 (if good then 1 else 2) []
         (if good then { r with provNode := node, provBody := body, provSig := sig } else r)) ∧
       (1 ≤ slot → slot ≤ 2 → answers (.configWrite node slot rb body sig) 7 (if good then 1 else 2) []
         (if good then { r with images := tblSet r.images (slot - 1) ⟨rb, body, sig⟩ } else r))) ∧
     (∀ (q : Nat) (l : BitVec 7),
       (r.session = none ∨ 95 < l.toNat ∨ s.part.cubes ≤ q → answers (.cmapRestore q l) 8 2 [] r) ∧
       (r.session ≠ none → l.toNat ≤ 95 → q < s.part.cubes → s.mapped q l.toNat ≠ none → answers (.cmapRestore q l) 8 1 [] r) ∧
       (∀ p, r.session ≠ none → l.toNat ≤ 95 → q < s.part.cubes → q < 2 → s.mapped q l.toNat = none → s.restorable q l.toNat = some p →
         ∃ t : State, exec (.cmapRestore q l) s = .next t ∧ t.mapped q l.toNat = some p ∧
           t.out = s.out ++ [.aqkin 8 1 []] ∧ ∀ m, m ≠ l.toNat → t.mapped q m = s.mapped q m)) ∧
     (∀ v : BitVec 64, ((r.state = 1#3 ∧ r.cold = true ∨ r.request.getLsbD 1 = true) → answers (.timeset v) 9 1 [] { r with timeStart := v }) ∧
       ((r.state ≠ 1#3 ∨ r.cold = false) → r.request.getLsbD 1 = false → answers (.timeset v) 9 2 [] r)) ∧
     (∀ (index : BitVec 32) (n : Nat), answers (.errlogRead index n) 10 1 (s.errorsFrom index (min n 32)) r) ∧
     (∀ nonce : BitVec 256, match s.report nonce with
       | some b => answers (.getMeasurements nonce) 0xE0 1 b r
       | none => answers (.getMeasurements nonce) 0xE0 2 [] r) ∧
     exec .spdmSecuredSession s = .next { s with rontal := { r with session := some (Config.sessionKey s.tick) } })

/-! Starts and fatal errors (spec 13 R346; spec 14 R379 to R383, R386). -/

/-- R346, R379 to R381, R383: a cold start none of whose steps fails ends ready, with no task, launch, operation or access under
way, the weight store all zero, the timebase where TIMESET put it, the error log and the dump empty, only key slot 0 filled, and
the layer map that self-test gives; a failing supply, identity, image, layer map, package memory or weight store halts it at its
step, and a failing second tier, port or host link does not; the banks behind a weight-store bus that fails its test vanish. At
power-up the core maps are those that flash holds, without the writes it has yet to take. A warm start runs where it has been asked for, with the failures
that log 49 leaves free, and the rest is said of every list of failures: it keeps the timebase, the keys
and the log, and with KEEP memory outside the scratchpads; where the device section does not verify it is a cold start, whose
core maps are the identity.

R386: a fatal event of causes 1 to 5 powers the arrays down, so that cube operations are lost, stops every fault domain and
fails every launch, writes the dump with its format and cause, sets the state to fatal and raises vector 1; a second one, and any
other cause, does nothing.

Some clauses rest on choices of the model (logs 6, 9, 14, 26, 49, 50, 59). -/
def Obligations.StartsAndFatalEvents : Prop :=
  (∀ (s : State) (failing : List StartFailure),
     let idle := fun (t : State) => t.rontal.state = 2#3 ∧ t.rontal.stage = 9 ∧ t.rontal.halted = false ∧ t.ctxs = [] ∧
       t.launches = [] ∧ t.waiting = [] ∧ t.saved = [] ∧ t.ops = [] ∧ t.loads = [] ∧ t.stores = [] ∧ t.colls = [] ∧
       t.rontal.fdstat = 0#256 ∧ t.rontal.session = none ∧ t.rontal.busy = false ∧ t.pdl = 50000#32 ∧ t.telSize = 0#4 ∧
       (∀ q, (t.queue q).en = false)
     let halted := fun (t : State) (k : Nat) =>
       t.rontal.halted = true ∧ t.rontal.state = 1#3 ∧ t.rontal.stage = k ∧ t.launches = [] ∧ t.ctxs = []
     let halts := fun (i : Instr) (k : Nat) => ∃ t : State, exec i s = .next t ∧ halted t k
     let vanish := fun (t : State) => ∀ k i b, .bus k i b ∈ failing → k < 96 * s.part.cubes → i ≤ 8 → 4 ≤ b → b ≤ 7 →
       (i, b) ∈ (t.column k).applied
     let image := s.rontal.image
     let gone := fun (q : Nat) => ∃ a b, a < 9 ∧ b < 9 ∧ a ≠ b ∧ .die q a ∈ failing ∧ .die q b ∈ failing
     (.power ∈ failing → halts (.coldStart failing) 1) ∧
     (.power ∉ failing → .identity ∈ failing → halts (.coldStart failing) 2) ∧
     (.power ∉ failing → .identity ∉ failing → image = none → halts (.coldStart failing) 3) ∧
     (.power ∉ failing → .identity ∉ failing → image ≠ none →
       ((∀ q, q < s.part.cubes → gone q) → halts (.coldStart failing) 4) ∧
       ((∃ q, q < s.part.cubes ∧ ¬gone q) → .hbm ∈ failing → halts (.coldStart failing) 6) ∧
       ((∃ q, q < s.part.cubes ∧ ¬gone q) → .hbm ∉ failing → .store ∈ failing → halts (.coldStart failing) 7) ∧
       ((∃ q, q < s.part.cubes ∧ ¬gone q) → .hbm ∉ failing → .store ∉ failing →
         ∃ t : State, exec (.coldStart failing) s = .next t ∧ idle t ∧ t.time = s.rontal.timeStart.toNat ∧
           t.rontal.errors = [] ∧ t.rontal.dump = none ∧ (∀ k, k ≠ 0 → tblFind t.rontal.keys k = none) ∧
           tblFind t.rontal.keys 0 ≠ none ∧ (∀ y, wsBase ≤ y → memGet t.mem y = 0#8) ∧ (∀ k, (t.column k).guard = 0#32) ∧
           (t.rontal.tier2Down = true ↔ .tier2 ∈ failing) ∧ (t.rontal.linkUp = true ↔ .hostLink ∉ failing) ∧
           (∀ p n, p < s.part.ports → n < 256 → ((p, n) ∈ t.fabric.downLinks ↔ .port p ∈ failing)) ∧
           (∀ img, image = some img → t.rontal.rollback = img.rollback) ∧
           (s.rontal.persist = [] → s.sectionOk = false → ∀ q l, t.mapped q l = some l) ∧
           (s.rontal.request.getLsbD 1 = false → s.sectionOk = true → ∀ q l, q < s.part.cubes → l < 128 →
             t.mapped q l = (tblFind s.rontal.flashMap (q * 128 + l)).getD (some l)) ∧ vanish t ∧
           ∀ q, q < s.part.cubes →
             ((∀ d, .die q d ∈ failing → 9 ≤ d) →
               (t.cube q).withdrawn = false ∧ (t.cube q).failedDies = [] ∧ (t.cube q).unused = 8) ∧
             (∀ d, d < 9 → .die q d ∈ failing → (∀ e, .die q e ∈ failing → e < 9 → e = d) →
               (t.cube q).withdrawn = false ∧ (t.cube q).failedDies = [d] ∧ (t.cube q).unused = d) ∧
             (gone q → (t.cube q).withdrawn = true))) ∧
     (∀ keep : Bool, ¬(s.rontal.request.getLsbD 0 = true ∧ s.rontal.request.getLsbD 2 = keep) →
       exec (.warmStart keep) s = .next s) ∧
     (∀ keep : Bool, s.rontal.request.getLsbD 0 = true → s.rontal.request.getLsbD 2 = keep →
       exec (.warmStart keep) s = .next (s.warmRun keep (Config.selfTest s.tick)) ∧
       let t := s.warmRun keep failing
       (s.flushMap.sectionOk = false → t = s.flushMap.coldRun failing) ∧
       (s.flushMap.sectionOk = true →
         (.identity ∈ failing → halted t 2) ∧
         (.identity ∉ failing → image = none → halted t 3) ∧
         (.identity ∉ failing → image ≠ none → keep = false → .store ∈ failing → halted t 7) ∧
         (.identity ∉ failing → image ≠ none → (keep = true ∨ .store ∉ failing) →
           idle t ∧ vanish t ∧ t.time = s.time ∧
             t.rontal.keys = s.rontal.keys ∧ t.rontal.errors = s.rontal.errors ∧
             (∀ q, q < s.part.cubes → (t.cube q).withdrawn = (s.cube q).withdrawn ∧ (t.cube q).failedDies = (s.cube q).failedDies) ∧
             (keep = true → ∀ y, isSpad y = false → memGet t.mem y = memGet s.mem y) ∧
             (keep = false → ∀ y, wsBase ≤ y → memGet t.mem y = 0#8))))) ∧
  (∀ (s : State) (code : Nat) (addr : BitVec 64),
     ((s.rontal.state = 3#3 ∨ code = 0 ∨ 5 < code) → exec (.fatalEvent code addr) s = .next s) ∧
     (s.rontal.state ≠ 3#3 → 1 ≤ code → code ≤ 5 → ∃ t : State, exec (.fatalEvent code addr) s = .next t ∧
       t.rontal.state = 3#3 ∧ t.rontal.fdstat = BitVec.allOnes 256 ∧ t.ops = s.ops.filter (fun o => o.engine != 0) ∧
       t.out.getLast? = some (.msix 1) ∧ t.rontal.errors.length ≤ s.rontal.errors.length + (if code = 2 then 1 else 0) ∧
       (∃ d, t.rontal.dump = some d ∧ d.take 8 = leBytes 4 1 ++ leBytes 4 code) ∧
       (∀ l ∈ s.launches, ∃ m ∈ t.launches, m.id = l.id ∧ m.failed = true) ∧
       ∀ l ∈ s.launches, l.failed = false → ∀ g ∈ t.saved, g.launch ≠ l.id))

/-! Decoding, the step and the whole machine (spec 01 R14; spec 02 R41, R42, R52, R53, R392; spec 14 R379). -/

/-- R41, R52: every well-formed word instruction, written with any header, is read back as itself, and its header with it. -/
def Obligations.RoundTrip : Prop :=
  ∀ (i : Instr) (h : Sys2Proof.Header), i.wf = true → i.isWord = true →
    decode (encodeWord h i) = .ok i ∧ decodeHeader (encodeWord h i) = h

/-- R53: a word that decodes has one spelling: it is what the encoder writes for its instruction and its header, so that no bit
of it is dropped and every unused field is 0. -/
def Obligations.OneSpelling : Prop :=
  ∀ (w : BitVec 32) (i : Instr), decode w = .ok i →
    i.wf = true ∧ i.isWord = true ∧ encodeWord (decodeHeader w) i = w

/-- R52 and the words that the spec writes out: words of several formats and families decode to the instructions they stand
for; a word with an unused bit set, an unassigned function and major 0 do not decode. -/
def Obligations.DecodeWords : Prop :=
  -- IMM: major 01, d = 3, a = 4, imm = -1
  decode 0b1_0_00_000001_00011_00100_111111111111#32 = .ok (.addi 3#5 4#5 (-1#12)) ∧
  -- LIMM: major 09, d = 2, imm = 5
  decode 0b1_0_00_001001_00010_00000000000000101#32 = .ok (.li 2#5 5#17) ∧
  -- ENG: jopen h3, jacc h3, h5, jarr s6, h3, jwait h3 and kpt of R301
  decode 0x8DC03000#32 = .ok (.jopen 3#5) ∧ decode 0x8DC65002#32 = .ok (.jacc 3#5 5#5) ∧
  decode 0x8DCC3004#32 = .ok (.jarr 6#5 3#5) ∧ decode 0x8DC03006#32 = .ok (.jwait 3#5) ∧ decode 0x8DC00008#32 = .ok .kpt ∧
  decode 0x8DC03001#32 = .error .reservedField ∧ (∃ e, decode 0x8DC0000A#32 = .error e) ∧ (∃ e, decode 0x80000000#32 = .error e)

/-- R392: when the slot is given to a context that owes no stall step, and the bundle at its PC is one word that decodes to an
instruction and passes stages 1 to 4, the step takes the trap that the meaning of the instruction takes, or waits where that
waits; else it performs that meaning, and the end of the bundle follows: the PC moves past the bundle, the stall count is owed, the
context's step is counted. A word that waits for the context's earlier accesses and operations is performed as if the bundle
had recorded none, which changes nothing where it has not. An event or an input that is chosen happens as its constructor of Instr says, and with no move open time passes.

Some clauses rest on choices of the model (logs 5, 15, 16). -/
def Obligations.StepRunsDecoded : Prop :=
  ∀ s : State, s.misplaced = false →
    (s.chosen = none → step s = .next s.passTime) ∧
    (∀ e t, s.chosen = some (.event e) → e.run ((s.progressOf e).foldl State.progress s) = .next t →
      step s = .next t.wakeAll.passTime) ∧
    (∀ e t, s.chosen = some (.input e) →
      e.run ((s.arrivalsOf e).foldl State.progress { s with inputs := s.inputs.tail }) = .next t →
      step s = .next t.wakeAll.passTime) ∧
    (∀ c b w i p, s.chosen = some (.core c) → (s.ctx c).owed = 0 →
      let u := { s.giveSlot c with cur := c }
      u.fetchBundle c (u.ctx c).pc = .ok b → b.words = [w] → decode w = .ok i → slotOf i ≠ .prefix_ → i ≠ .rft →
      u.ahead c = .go p →
      p = ⟨[(i, true)], (decodeHeader w).w.toNat, b.live, b.size, w :: b.live.toList⟩ ∧
      let v := { u with issue := u.seq }
      ∀ t, exec i v = .next t →
        let wait := fun (e : Ending) => (((v.keepRecords t).modMe (fun y => { y with ending := e })).block (i == .gbar)).wakeAll.passTime
        (∀ k, t.mark = .trapped k → step s = .next (v.precise k).wakeAll.passTime) ∧
        (t.mark = .waits → step s = .next (wait t.me.ending)) ∧
        (t.mark = .ran →
          let x := (v.keepRecords t).modMe (fun x => { x with scbSkip := x.scbSkip && x.inh, killPoint := false })
          let r := x.effectOf i
          let mine := fun (d id : Nat) => d = c ∧ v.seq ≤ id
          (waitsForEarlier i = false → exec i x = .next r) ∧
          ((∀ l ∈ x.loads, ¬mine l.ctx l.id) → (∀ l ∈ x.stores, ¬mine l.ctx l.id) → (∀ l ∈ x.ops, ¬mine l.ctx l.id) →
            (∀ l ∈ x.colls, ¬mine l.ctx l.id) → exec i x = .next r) ∧
          (∀ k, r.mark = .trapped k → step s = .next ((v.keepRecords t).precise k).wakeAll.passTime) ∧
          (r.mark = .ran → step s = .next
            ((((({ r with mark := .ran } : State).issued v.me p).progress (cubeOf c)).stepOver c).settle c).wakeAll.passTime) ∧
          (r.mark = .waits → step s = .next (wait r.me.ending))))

/-- Every step keeps memory in its canonical form, and ends in a next state unless a task stands in a context that the part does
not have.

Some clauses rest on choices of the model (logs 1, 60). -/
def Obligations.StepKeepsMemoryCanonical : Prop :=
  ∀ s : State, Memory.wf s.mem = true →
    (s.misplaced = true → step s = .fault .noSuchContext) ∧
    (s.misplaced = false → ∃ t, step s = .next t ∧ Memory.wf t.mem = true)

/-- R14, R24, R205, R289, R345, R379, R381: State.reset is the module at the end of a cold start: ready, at step 9, no task and no
launch, the timebase at 0, the weight store all zero, every queue disabled, every context with every scalar and handle register 0,
every predicate all ones, every binding unbound, every loop level idle; memory is in its canonical form. That a scalar or handle
register of a context that holds no task is 0, and that a byte of other memory reads 0, are the model's choices (logs 1, 2). -/
def Obligations.ResetState : Prop :=
  let s := State.reset
  Memory.wf s.mem = true ∧ (∀ a, memGet s.mem a = 0#8) ∧ s.rontal.state = 2#3 ∧ s.rontal.stage = 9 ∧
  s.rontal.fdstat = 0#256 ∧ s.time = 0 ∧ s.launches = [] ∧ s.ops = [] ∧ s.loads = [] ∧ s.stores = [] ∧ s.pdl = 50000#32 ∧
  s.comThr = 32#8 ∧ s.telBase = 0#64 ∧ (∀ q, (s.queue q).en = false) ∧
  (∀ k, (s.core k).holder = none ∧ ∀ q, (s.core k).queue q = []) ∧
  (∀ c, let x := s.ctx c
    x.task = none ∧ x.mode = .user ∧ x.inh = false ∧ x.owed = 0 ∧ x.xfer = none ∧ x.shadow = [] ∧ x.bypass = [] ∧
    (∀ r, x.sreg r = 0#64 ∧ x.hreg r = 0#256) ∧ (∀ n, n < 8 → (x.binding n).bound = false) ∧
    (∀ l, l < 6 → (x.loop l).active = false) ∧ x.preds.toList = List.replicate 8 (BitVec.allOnes 1024) ∧ x.step = 0#64) ∧
  (∀ q, (s.cube q).rga[1] = 0#64 ∧ (s.cube q).govStep = 0 ∧ (s.cube q).govTlim.toNat = 95 ∧ (s.cube q).govPlim.toNat = 1500 ∧
    ∀ l, l < 96 → s.mapped q l = some l)
end

