-- ==== Sys2Proof/Laws/Memory.lean ====
section
/-! SUPPORT. Tables and the byte memory: reads after writes, and the canonical form, which every memory operation
keeps. -/

namespace Sys2Proof.Machine

/-! Tables. -/

theorem tblFind_del_same {α : Type} (t : Tbl α) (i : Nat) : tblFind (tblDel t i) i = none := by
  induction t with
  | nil => rfl
  | cons p r ih => by_cases h : p.1 = i <;> simp [tblDel, tblFind, h, ih]

theorem tblFind_del_ne {α : Type} (t : Tbl α) {i j : Nat} (h : i ≠ j) : tblFind (tblDel t i) j = tblFind t j := by
  induction t with
  | nil => rfl
  | cons p r ih =>
    by_cases hp : p.1 = i
    · have : p.1 ≠ j := by omega
      simp [tblDel, tblFind, hp, ih, h]
    · simp only [tblDel, tblFind, if_neg hp, ih]

theorem tblFind_ins_same {α : Type} (t : Tbl α) (i : Nat) (v : α) (h : tblFind t i = none) :
    tblFind (tblIns t i v) i = some v := by
  induction t with
  | nil => simp [tblIns, tblFind]
  | cons p r ih =>
    by_cases hp : p.1 = i
    · simp [tblFind, hp] at h
    · by_cases hl : i < p.1
      · simp [tblIns, tblFind, hl]
      · simp only [tblFind, hp, if_false] at h
        simp [tblIns, tblFind, hl, hp, ih h]

theorem tblFind_ins_ne {α : Type} (t : Tbl α) {i j : Nat} (v : α) (h : i ≠ j) :
    tblFind (tblIns t i v) j = tblFind t j := by
  induction t with
  | nil => simp [tblIns, tblFind, h]
  | cons p r ih =>
    by_cases hl : i < p.1
    · simp [tblIns, tblFind, hl, h]
    · simp only [tblIns, tblFind, if_neg hl, ih]

/-- A row reads as it was last set. -/
theorem tblFind_set_same {α : Type} (t : Tbl α) (i : Nat) (v : α) : tblFind (tblSet t i v) i = some v :=
  tblFind_ins_same _ _ _ (tblFind_del_same t i)

/-- Setting a row leaves every other row alone. -/
theorem tblFind_set_ne {α : Type} (t : Tbl α) {i j : Nat} (v : α) (h : i ≠ j) : tblFind (tblSet t i v) j = tblFind t j := by
  rw [tblSet, tblFind_ins_ne _ _ h, tblFind_del_ne _ h]

@[simp] theorem tblGet_set_same {α : Type} (t : Tbl α) (i : Nat) (v d : α) : tblGet (tblSet t i v) i d = v := by
  simp [tblGet, tblFind_set_same]

theorem tblGet_set_ne {α : Type} (t : Tbl α) {i j : Nat} (v d : α) (h : i ≠ j) :
    tblGet (tblSet t i v) j d = tblGet t j d := by
  simp [tblGet, tblFind_set_ne t v h]

theorem tblGet_set {α : Type} (t : Tbl α) (i j : Nat) (v d : α) :
    tblGet (tblSet t i v) j d = if i = j then v else tblGet t j d := by
  by_cases h : i = j
  · subst h; simp
  · simp [h, tblGet_set_ne t v d h]

/-! Bytes. -/

/-- A byte reads as it was last stored. -/
@[simp] theorem memGet_set_same (m : List Host.Cell) (a : Nat) (v : Byte) : memGet (memSet m a v) a = v := by
  unfold memSet memGet
  split
  · next h => simp [tblGet, tblFind_del_same, h]
  · simp

/-- Storing a byte leaves every other byte alone. -/
theorem memGet_set_ne (m : List Host.Cell) {a b : Nat} (v : Byte) (h : a ≠ b) :
    memGet (memSet m a v) b = memGet m b := by
  unfold memSet memGet
  split
  · simp [tblGet, tblFind_del_ne m h]
  · exact tblGet_set_ne m v _ h

theorem memGet_set (m : List Host.Cell) (a b : Nat) (v : Byte) :
    memGet (memSet m a v) b = if a = b then v else memGet m b := by
  by_cases h : a = b
  · subst h; simp
  · simp [h, memGet_set_ne m v h]

/-- A write leaves every byte outside its bytes alone. -/
theorem memGet_write_out (m : List Host.Cell) (a n v b : Nat) (h : b < a ∨ a + n ≤ b) :
    memGet (memWrite m a n v) b = memGet m b := by
  induction n generalizing m a v with
  | zero => rfl
  | succ n ih =>
    rw [memWrite, ih _ _ _ (by omega), memGet_set_ne _ _ (by omega)]

/-- A byte of a write reads as that byte of the value. -/
theorem memGet_write_in (m : List Host.Cell) (a n v b : Nat) (h : a ≤ b ∧ b < a + n) :
    memGet (memWrite m a n v) b = BitVec.ofNat 8 (v / 256 ^ (b - a)) := by
  induction n generalizing m a v with
  | zero => omega
  | succ n ih =>
    rw [memWrite]
    by_cases hb : b = a
    · subst hb
      rw [memGet_write_out _ _ _ _ _ (by omega)]; simp
    · rw [ih _ _ _ (by omega)]
      have : b - a = (b - (a + 1)) + 1 := by omega
      rw [this, Nat.pow_succ, Nat.mul_comm, Nat.div_div_eq_div_mul]

theorem memRead_congr (m m' : List Host.Cell) (a n : Nat) (h : ∀ b, a ≤ b → b < a + n → memGet m b = memGet m' b) :
    memRead m a n = memRead m' a n := by
  induction n generalizing a with
  | zero => rfl
  | succ n ih =>
    rw [memRead, memRead, h a (by omega) (by omega), ih _ (fun b h1 h2 => h b (by omega) (by omega))]

/-- A read of the bytes written gives the value written (R8). -/
theorem memRead_write_same (m : List Host.Cell) (a n v : Nat) : memRead (memWrite m a n v) a n = v % 256 ^ n := by
  induction n generalizing m a v with
  | zero => simp [memRead, Nat.mod_one]
  | succ n ih =>
    rw [memRead, memWrite, ih, memGet_write_out _ _ _ _ _ (by omega), memGet_set_same, BitVec.toNat_ofNat]
    rw [show (2 : Nat) ^ 8 = 256 from rfl, Nat.pow_succ', Nat.mod_mul (a := 256)]

/-- A read of other bytes than those written gives what it gave before. -/
theorem memRead_write_out (m : List Host.Cell) (a n v b k : Nat) (h : b + k ≤ a ∨ a + n ≤ b) :
    memRead (memWrite m a n v) b k = memRead m b k :=
  memRead_congr _ _ _ _ fun c _ _ => memGet_write_out _ _ _ _ _ (by omega)

/-! The canonical form. -/

/-- Every key of a list of cells is at least b. -/
def keysFrom (m : List Host.Cell) (b : Nat) : Prop := ∀ p ∈ m, b ≤ p.1

theorem memWf_cons (a : Nat) (v : Byte) (r : List Host.Cell) :
    memWf ((a, v) :: r) = true ↔ v ≠ 0#8 ∧ keysFrom r (a + 1) ∧ memWf r = true := by
  induction r generalizing a v with
  | nil => simp [memWf, keysFrom]
  | cons p r ih =>
    obtain ⟨b, w⟩ := p
    simp only [memWf, Bool.and_eq_true, bne_iff_ne, ne_eq, decide_eq_true_eq]
    constructor
    · rintro ⟨⟨hv, hab⟩, hr⟩
      refine ⟨hv, ?_, hr⟩
      intro p hp
      rcases List.mem_cons.mp hp with rfl | hp
      · exact hab
      · have := ((ih b w).mp hr).2.1 p hp
        omega
    · rintro ⟨hv, hk, hr⟩
      exact ⟨⟨hv, hk (b, w) (by simp)⟩, hr⟩

theorem keysFrom_del (m : List Host.Cell) (i b : Nat) (h : keysFrom m b) : keysFrom (tblDel m i) b := by
  induction m with
  | nil => exact h
  | cons p r ih =>
    have hr : keysFrom r b := fun q hq => h q (by simp [hq])
    simp only [tblDel]
    split
    · exact ih hr
    · intro q hq
      rcases List.mem_cons.mp hq with rfl | hq
      · exact h _ (by simp)
      · exact ih hr q hq

theorem memWf_del (m : List Host.Cell) (i : Nat) (h : memWf m = true) : memWf (tblDel m i) = true := by
  induction m with
  | nil => exact h
  | cons p r ih =>
    obtain ⟨a, v⟩ := p
    obtain ⟨hv, hk, hr⟩ := (memWf_cons a v r).mp h
    simp only [tblDel]
    split
    · exact ih hr
    · exact (memWf_cons _ _ _).mpr ⟨hv, keysFrom_del _ _ _ hk, ih hr⟩

theorem keysFrom_ins (m : List Host.Cell) (i b : Nat) (v : Byte) (h : keysFrom m b) (hi : b ≤ i) :
    keysFrom (tblIns m i v) b := by
  induction m with
  | nil => intro q hq; simp [tblIns] at hq; subst hq; exact hi
  | cons p r ih =>
    have hr : keysFrom r b := fun q hq => h q (by simp [hq])
    simp only [tblIns]
    split
    · intro q hq
      rcases List.mem_cons.mp hq with rfl | hq
      · exact hi
      · exact h q hq
    · intro q hq
      rcases List.mem_cons.mp hq with rfl | hq
      · exact h _ (by simp)
      · exact ih hr q hq

theorem memWf_ins (m : List Host.Cell) (i : Nat) (v : Byte) (hv : v ≠ 0#8) (h : memWf m = true)
    (hn : ∀ p ∈ m, p.1 ≠ i) : memWf (tblIns m i v) = true := by
  induction m with
  | nil => simp [tblIns, memWf, hv]
  | cons p r ih =>
    obtain ⟨a, w⟩ := p
    obtain ⟨hw, hk, hr⟩ := (memWf_cons a w r).mp h
    have ha : a ≠ i := hn (a, w) (by simp)
    simp only [tblIns]
    split
    · refine (memWf_cons _ _ _).mpr ⟨hv, ?_, h⟩
      intro q hq
      rcases List.mem_cons.mp hq with rfl | hq
      · omega
      · have := hk q hq
        omega
    · exact (memWf_cons _ _ _).mpr ⟨hw, keysFrom_ins _ _ _ _ hk (by omega), ih hr fun q hq => hn q (by simp [hq])⟩

theorem not_mem_del (m : List Host.Cell) (i : Nat) : ∀ p ∈ tblDel m i, p.1 ≠ i := by
  induction m with
  | nil => simp [tblDel]
  | cons p r ih =>
    simp only [tblDel]
    split
    · exact ih
    · intro q hq
      rcases List.mem_cons.mp hq with rfl | hq
      · assumption
      · exact ih q hq

/-- Storing a byte keeps the canonical form. -/
@[simp] theorem memWf_set (m : List Host.Cell) (a : Nat) (v : Byte) (h : memWf m = true) : memWf (memSet m a v) = true := by
  unfold memSet
  split
  · exact memWf_del m a h
  · next hv => exact memWf_ins _ _ _ hv (memWf_del m a h) (not_mem_del m a)

/-- Writing bytes keeps the canonical form. -/
@[simp] theorem memWf_write (m : List Host.Cell) (a n v : Nat) (h : memWf m = true) : memWf (memWrite m a n v) = true := by
  induction n generalizing m a v with
  | zero => exact h
  | succ n ih => exact ih _ _ _ (memWf_set _ _ _ h)

@[simp] theorem memWf_put (m : List Host.Cell) (a : Nat) (bs : List Byte) (h : memWf m = true) :
    memWf (memPut m a bs) = true := by
  induction bs generalizing m a with
  | nil => exact h
  | cons b r ih => exact ih _ _ (memWf_set _ _ _ h)

/-- Dropping cells keeps the canonical form. -/
@[simp] theorem memWf_filter (m : List Host.Cell) (f : Host.Cell → Bool) (h : memWf m = true) :
    memWf (m.filter f) = true := by
  induction m with
  | nil => exact h
  | cons p r ih =>
    obtain ⟨a, v⟩ := p
    obtain ⟨hv, hk, hr⟩ := (memWf_cons a v r).mp h
    rw [List.filter_cons]
    split
    · exact (memWf_cons _ _ _).mpr ⟨hv, fun q hq => hk q (List.mem_filter.mp hq).1, ih hr⟩
    · exact ih hr

@[simp] theorem memWf_zero (m : List Host.Cell) (a n : Nat) (h : memWf m = true) : memWf (memZero m a n) = true :=
  memWf_filter _ _ h

end Sys2Proof.Machine
end

