-- ==== Sys2Proof/Laws/State.lean ====
section
/-! SUPPORT. What each update of the state leaves alone, field by field. -/

namespace Sys2Proof.Machine

/-! setCtx. -/

@[simp] theorem State.setCtx_mem (s : State) (c : Nat) (x : Ctx) : (s.setCtx c x).mem = s.mem := rfl
@[simp] theorem State.setCtx_poison (s : State) (c : Nat) (x : Ctx) : (s.setCtx c x).poison = s.poison := rfl
@[simp] theorem State.setCtx_cores (s : State) (c : Nat) (x : Ctx) : (s.setCtx c x).cores = s.cores := rfl
@[simp] theorem State.setCtx_banks (s : State) (c : Nat) (x : Ctx) : (s.setCtx c x).banks = s.banks := rfl
@[simp] theorem State.setCtx_columns (s : State) (c : Nat) (x : Ctx) : (s.setCtx c x).columns = s.columns := rfl
@[simp] theorem State.setCtx_cubes (s : State) (c : Nat) (x : Ctx) : (s.setCtx c x).cubes = s.cubes := rfl
@[simp] theorem State.setCtx_regions (s : State) (c : Nat) (x : Ctx) : (s.setCtx c x).regions = s.regions := rfl
@[simp] theorem State.setCtx_loads (s : State) (c : Nat) (x : Ctx) : (s.setCtx c x).loads = s.loads := rfl
@[simp] theorem State.setCtx_stores (s : State) (c : Nat) (x : Ctx) : (s.setCtx c x).stores = s.stores := rfl
@[simp] theorem State.setCtx_ops (s : State) (c : Nat) (x : Ctx) : (s.setCtx c x).ops = s.ops := rfl
@[simp] theorem State.setCtx_unfilled (s : State) (c : Nat) (x : Ctx) : (s.setCtx c x).unfilled = s.unfilled := rfl
@[simp] theorem State.setCtx_colls (s : State) (c : Nat) (x : Ctx) : (s.setCtx c x).colls = s.colls := rfl
@[simp] theorem State.setCtx_launches (s : State) (c : Nat) (x : Ctx) : (s.setCtx c x).launches = s.launches := rfl
@[simp] theorem State.setCtx_waiting (s : State) (c : Nat) (x : Ctx) : (s.setCtx c x).waiting = s.waiting := rfl
@[simp] theorem State.setCtx_saved (s : State) (c : Nat) (x : Ctx) : (s.setCtx c x).saved = s.saved := rfl
@[simp] theorem State.setCtx_heldLaunches (s : State) (c : Nat) (x : Ctx) : (s.setCtx c x).heldLaunches = s.heldLaunches := rfl
@[simp] theorem State.setCtx_queues (s : State) (c : Nat) (x : Ctx) : (s.setCtx c x).queues = s.queues := rfl
@[simp] theorem State.setCtx_doorbells (s : State) (c : Nat) (x : Ctx) : (s.setCtx c x).doorbells = s.doorbells := rfl
@[simp] theorem State.setCtx_pubs (s : State) (c : Nat) (x : Ctx) : (s.setCtx c x).pubs = s.pubs := rfl
@[simp] theorem State.setCtx_pdl (s : State) (c : Nat) (x : Ctx) : (s.setCtx c x).pdl = s.pdl := rfl
@[simp] theorem State.setCtx_comThr (s : State) (c : Nat) (x : Ctx) : (s.setCtx c x).comThr = s.comThr := rfl
@[simp] theorem State.setCtx_intervals (s : State) (c : Nat) (x : Ctx) : (s.setCtx c x).intervals = s.intervals := rfl
@[simp] theorem State.setCtx_raceShadow (s : State) (c : Nat) (x : Ctx) : (s.setCtx c x).raceShadow = s.raceShadow := rfl
@[simp] theorem State.setCtx_raceLogs (s : State) (c : Nat) (x : Ctx) : (s.setCtx c x).raceLogs = s.raceLogs := rfl
@[simp] theorem State.setCtx_gaugeScopes (s : State) (c : Nat) (x : Ctx) : (s.setCtx c x).gaugeScopes = s.gaugeScopes := rfl
@[simp] theorem State.setCtx_retries (s : State) (c : Nat) (x : Ctx) : (s.setCtx c x).retries = s.retries := rfl
@[simp] theorem State.setCtx_fabric (s : State) (c : Nat) (x : Ctx) : (s.setCtx c x).fabric = s.fabric := rfl
@[simp] theorem State.setCtx_telBase (s : State) (c : Nat) (x : Ctx) : (s.setCtx c x).telBase = s.telBase := rfl
@[simp] theorem State.setCtx_telSize (s : State) (c : Nat) (x : Ctx) : (s.setCtx c x).telSize = s.telSize := rfl
@[simp] theorem State.setCtx_telWidx (s : State) (c : Nat) (x : Ctx) : (s.setCtx c x).telWidx = s.telWidx := rfl
@[simp] theorem State.setCtx_telRidx (s : State) (c : Nat) (x : Ctx) : (s.setCtx c x).telRidx = s.telRidx := rfl
@[simp] theorem State.setCtx_telLost (s : State) (c : Nat) (x : Ctx) : (s.setCtx c x).telLost = s.telLost := rfl
@[simp] theorem State.setCtx_telAt (s : State) (c : Nat) (x : Ctx) : (s.setCtx c x).telAt = s.telAt := rfl
@[simp] theorem State.setCtx_telAggAt (s : State) (c : Nat) (x : Ctx) : (s.setCtx c x).telAggAt = s.telAggAt := rfl
@[simp] theorem State.setCtx_fcastAt (s : State) (c : Nat) (x : Ctx) : (s.setCtx c x).fcastAt = s.fcastAt := rfl
@[simp] theorem State.setCtx_windowAt (s : State) (c : Nat) (x : Ctx) : (s.setCtx c x).windowAt = s.windowAt := rfl
@[simp] theorem State.setCtx_rontal (s : State) (c : Nat) (x : Ctx) : (s.setCtx c x).rontal = s.rontal := rfl
@[simp] theorem State.setCtx_part (s : State) (c : Nat) (x : Ctx) : (s.setCtx c x).part = s.part := rfl
@[simp] theorem State.setCtx_out (s : State) (c : Nat) (x : Ctx) : (s.setCtx c x).out = s.out := rfl
@[simp] theorem State.setCtx_time (s : State) (c : Nat) (x : Ctx) : (s.setCtx c x).time = s.time := rfl
@[simp] theorem State.setCtx_cycles (s : State) (c : Nat) (x : Ctx) : (s.setCtx c x).cycles = s.cycles := rfl
@[simp] theorem State.setCtx_cur (s : State) (c : Nat) (x : Ctx) : (s.setCtx c x).cur = s.cur := rfl
@[simp] theorem State.setCtx_mark (s : State) (c : Nat) (x : Ctx) : (s.setCtx c x).mark = s.mark := rfl
@[simp] theorem State.setCtx_issue (s : State) (c : Nat) (x : Ctx) : (s.setCtx c x).issue = s.issue := rfl
@[simp] theorem State.setCtx_inputs (s : State) (c : Nat) (x : Ctx) : (s.setCtx c x).inputs = s.inputs := rfl
@[simp] theorem State.setCtx_tick (s : State) (c : Nat) (x : Ctx) : (s.setCtx c x).tick = s.tick := rfl
@[simp] theorem State.setCtx_seq (s : State) (c : Nat) (x : Ctx) : (s.setCtx c x).seq = s.seq := rfl

/-! setCore. -/

@[simp] theorem State.setCore_mem (s : State) (k : Nat) (x : Core) : (s.setCore k x).mem = s.mem := rfl
@[simp] theorem State.setCore_poison (s : State) (k : Nat) (x : Core) : (s.setCore k x).poison = s.poison := rfl
@[simp] theorem State.setCore_ctxs (s : State) (k : Nat) (x : Core) : (s.setCore k x).ctxs = s.ctxs := rfl
@[simp] theorem State.setCore_banks (s : State) (k : Nat) (x : Core) : (s.setCore k x).banks = s.banks := rfl
@[simp] theorem State.setCore_columns (s : State) (k : Nat) (x : Core) : (s.setCore k x).columns = s.columns := rfl
@[simp] theorem State.setCore_cubes (s : State) (k : Nat) (x : Core) : (s.setCore k x).cubes = s.cubes := rfl
@[simp] theorem State.setCore_regions (s : State) (k : Nat) (x : Core) : (s.setCore k x).regions = s.regions := rfl
@[simp] theorem State.setCore_loads (s : State) (k : Nat) (x : Core) : (s.setCore k x).loads = s.loads := rfl
@[simp] theorem State.setCore_stores (s : State) (k : Nat) (x : Core) : (s.setCore k x).stores = s.stores := rfl
@[simp] theorem State.setCore_ops (s : State) (k : Nat) (x : Core) : (s.setCore k x).ops = s.ops := rfl
@[simp] theorem State.setCore_unfilled (s : State) (k : Nat) (x : Core) : (s.setCore k x).unfilled = s.unfilled := rfl
@[simp] theorem State.setCore_colls (s : State) (k : Nat) (x : Core) : (s.setCore k x).colls = s.colls := rfl
@[simp] theorem State.setCore_launches (s : State) (k : Nat) (x : Core) : (s.setCore k x).launches = s.launches := rfl
@[simp] theorem State.setCore_waiting (s : State) (k : Nat) (x : Core) : (s.setCore k x).waiting = s.waiting := rfl
@[simp] theorem State.setCore_saved (s : State) (k : Nat) (x : Core) : (s.setCore k x).saved = s.saved := rfl
@[simp] theorem State.setCore_heldLaunches (s : State) (k : Nat) (x : Core) : (s.setCore k x).heldLaunches = s.heldLaunches := rfl
@[simp] theorem State.setCore_queues (s : State) (k : Nat) (x : Core) : (s.setCore k x).queues = s.queues := rfl
@[simp] theorem State.setCore_doorbells (s : State) (k : Nat) (x : Core) : (s.setCore k x).doorbells = s.doorbells := rfl
@[simp] theorem State.setCore_pubs (s : State) (k : Nat) (x : Core) : (s.setCore k x).pubs = s.pubs := rfl
@[simp] theorem State.setCore_pdl (s : State) (k : Nat) (x : Core) : (s.setCore k x).pdl = s.pdl := rfl
@[simp] theorem State.setCore_comThr (s : State) (k : Nat) (x : Core) : (s.setCore k x).comThr = s.comThr := rfl
@[simp] theorem State.setCore_intervals (s : State) (k : Nat) (x : Core) : (s.setCore k x).intervals = s.intervals := rfl
@[simp] theorem State.setCore_raceShadow (s : State) (k : Nat) (x : Core) : (s.setCore k x).raceShadow = s.raceShadow := rfl
@[simp] theorem State.setCore_raceLogs (s : State) (k : Nat) (x : Core) : (s.setCore k x).raceLogs = s.raceLogs := rfl
@[simp] theorem State.setCore_gaugeScopes (s : State) (k : Nat) (x : Core) : (s.setCore k x).gaugeScopes = s.gaugeScopes := rfl
@[simp] theorem State.setCore_retries (s : State) (k : Nat) (x : Core) : (s.setCore k x).retries = s.retries := rfl
@[simp] theorem State.setCore_fabric (s : State) (k : Nat) (x : Core) : (s.setCore k x).fabric = s.fabric := rfl
@[simp] theorem State.setCore_telBase (s : State) (k : Nat) (x : Core) : (s.setCore k x).telBase = s.telBase := rfl
@[simp] theorem State.setCore_telSize (s : State) (k : Nat) (x : Core) : (s.setCore k x).telSize = s.telSize := rfl
@[simp] theorem State.setCore_telWidx (s : State) (k : Nat) (x : Core) : (s.setCore k x).telWidx = s.telWidx := rfl
@[simp] theorem State.setCore_telRidx (s : State) (k : Nat) (x : Core) : (s.setCore k x).telRidx = s.telRidx := rfl
@[simp] theorem State.setCore_telLost (s : State) (k : Nat) (x : Core) : (s.setCore k x).telLost = s.telLost := rfl
@[simp] theorem State.setCore_telAt (s : State) (k : Nat) (x : Core) : (s.setCore k x).telAt = s.telAt := rfl
@[simp] theorem State.setCore_telAggAt (s : State) (k : Nat) (x : Core) : (s.setCore k x).telAggAt = s.telAggAt := rfl
@[simp] theorem State.setCore_fcastAt (s : State) (k : Nat) (x : Core) : (s.setCore k x).fcastAt = s.fcastAt := rfl
@[simp] theorem State.setCore_windowAt (s : State) (k : Nat) (x : Core) : (s.setCore k x).windowAt = s.windowAt := rfl
@[simp] theorem State.setCore_rontal (s : State) (k : Nat) (x : Core) : (s.setCore k x).rontal = s.rontal := rfl
@[simp] theorem State.setCore_part (s : State) (k : Nat) (x : Core) : (s.setCore k x).part = s.part := rfl
@[simp] theorem State.setCore_out (s : State) (k : Nat) (x : Core) : (s.setCore k x).out = s.out := rfl
@[simp] theorem State.setCore_time (s : State) (k : Nat) (x : Core) : (s.setCore k x).time = s.time := rfl
@[simp] theorem State.setCore_cycles (s : State) (k : Nat) (x : Core) : (s.setCore k x).cycles = s.cycles := rfl
@[simp] theorem State.setCore_cur (s : State) (k : Nat) (x : Core) : (s.setCore k x).cur = s.cur := rfl
@[simp] theorem State.setCore_mark (s : State) (k : Nat) (x : Core) : (s.setCore k x).mark = s.mark := rfl
@[simp] theorem State.setCore_issue (s : State) (k : Nat) (x : Core) : (s.setCore k x).issue = s.issue := rfl
@[simp] theorem State.setCore_inputs (s : State) (k : Nat) (x : Core) : (s.setCore k x).inputs = s.inputs := rfl
@[simp] theorem State.setCore_tick (s : State) (k : Nat) (x : Core) : (s.setCore k x).tick = s.tick := rfl
@[simp] theorem State.setCore_seq (s : State) (k : Nat) (x : Core) : (s.setCore k x).seq = s.seq := rfl

/-! setBank. -/

@[simp] theorem State.setBank_mem (s : State) (b : Nat) (x : Bank) : (s.setBank b x).mem = s.mem := rfl
@[simp] theorem State.setBank_poison (s : State) (b : Nat) (x : Bank) : (s.setBank b x).poison = s.poison := rfl
@[simp] theorem State.setBank_ctxs (s : State) (b : Nat) (x : Bank) : (s.setBank b x).ctxs = s.ctxs := rfl
@[simp] theorem State.setBank_cores (s : State) (b : Nat) (x : Bank) : (s.setBank b x).cores = s.cores := rfl
@[simp] theorem State.setBank_columns (s : State) (b : Nat) (x : Bank) : (s.setBank b x).columns = s.columns := rfl
@[simp] theorem State.setBank_cubes (s : State) (b : Nat) (x : Bank) : (s.setBank b x).cubes = s.cubes := rfl
@[simp] theorem State.setBank_regions (s : State) (b : Nat) (x : Bank) : (s.setBank b x).regions = s.regions := rfl
@[simp] theorem State.setBank_loads (s : State) (b : Nat) (x : Bank) : (s.setBank b x).loads = s.loads := rfl
@[simp] theorem State.setBank_stores (s : State) (b : Nat) (x : Bank) : (s.setBank b x).stores = s.stores := rfl
@[simp] theorem State.setBank_ops (s : State) (b : Nat) (x : Bank) : (s.setBank b x).ops = s.ops := rfl
@[simp] theorem State.setBank_unfilled (s : State) (b : Nat) (x : Bank) : (s.setBank b x).unfilled = s.unfilled := rfl
@[simp] theorem State.setBank_colls (s : State) (b : Nat) (x : Bank) : (s.setBank b x).colls = s.colls := rfl
@[simp] theorem State.setBank_launches (s : State) (b : Nat) (x : Bank) : (s.setBank b x).launches = s.launches := rfl
@[simp] theorem State.setBank_waiting (s : State) (b : Nat) (x : Bank) : (s.setBank b x).waiting = s.waiting := rfl
@[simp] theorem State.setBank_saved (s : State) (b : Nat) (x : Bank) : (s.setBank b x).saved = s.saved := rfl
@[simp] theorem State.setBank_heldLaunches (s : State) (b : Nat) (x : Bank) : (s.setBank b x).heldLaunches = s.heldLaunches := rfl
@[simp] theorem State.setBank_queues (s : State) (b : Nat) (x : Bank) : (s.setBank b x).queues = s.queues := rfl
@[simp] theorem State.setBank_doorbells (s : State) (b : Nat) (x : Bank) : (s.setBank b x).doorbells = s.doorbells := rfl
@[simp] theorem State.setBank_pubs (s : State) (b : Nat) (x : Bank) : (s.setBank b x).pubs = s.pubs := rfl
@[simp] theorem State.setBank_pdl (s : State) (b : Nat) (x : Bank) : (s.setBank b x).pdl = s.pdl := rfl
@[simp] theorem State.setBank_comThr (s : State) (b : Nat) (x : Bank) : (s.setBank b x).comThr = s.comThr := rfl
@[simp] theorem State.setBank_intervals (s : State) (b : Nat) (x : Bank) : (s.setBank b x).intervals = s.intervals := rfl
@[simp] theorem State.setBank_raceShadow (s : State) (b : Nat) (x : Bank) : (s.setBank b x).raceShadow = s.raceShadow := rfl
@[simp] theorem State.setBank_raceLogs (s : State) (b : Nat) (x : Bank) : (s.setBank b x).raceLogs = s.raceLogs := rfl
@[simp] theorem State.setBank_gaugeScopes (s : State) (b : Nat) (x : Bank) : (s.setBank b x).gaugeScopes = s.gaugeScopes := rfl
@[simp] theorem State.setBank_retries (s : State) (b : Nat) (x : Bank) : (s.setBank b x).retries = s.retries := rfl
@[simp] theorem State.setBank_fabric (s : State) (b : Nat) (x : Bank) : (s.setBank b x).fabric = s.fabric := rfl
@[simp] theorem State.setBank_telBase (s : State) (b : Nat) (x : Bank) : (s.setBank b x).telBase = s.telBase := rfl
@[simp] theorem State.setBank_telSize (s : State) (b : Nat) (x : Bank) : (s.setBank b x).telSize = s.telSize := rfl
@[simp] theorem State.setBank_telWidx (s : State) (b : Nat) (x : Bank) : (s.setBank b x).telWidx = s.telWidx := rfl
@[simp] theorem State.setBank_telRidx (s : State) (b : Nat) (x : Bank) : (s.setBank b x).telRidx = s.telRidx := rfl
@[simp] theorem State.setBank_telLost (s : State) (b : Nat) (x : Bank) : (s.setBank b x).telLost = s.telLost := rfl
@[simp] theorem State.setBank_telAt (s : State) (b : Nat) (x : Bank) : (s.setBank b x).telAt = s.telAt := rfl
@[simp] theorem State.setBank_telAggAt (s : State) (b : Nat) (x : Bank) : (s.setBank b x).telAggAt = s.telAggAt := rfl
@[simp] theorem State.setBank_fcastAt (s : State) (b : Nat) (x : Bank) : (s.setBank b x).fcastAt = s.fcastAt := rfl
@[simp] theorem State.setBank_windowAt (s : State) (b : Nat) (x : Bank) : (s.setBank b x).windowAt = s.windowAt := rfl
@[simp] theorem State.setBank_rontal (s : State) (b : Nat) (x : Bank) : (s.setBank b x).rontal = s.rontal := rfl
@[simp] theorem State.setBank_part (s : State) (b : Nat) (x : Bank) : (s.setBank b x).part = s.part := rfl
@[simp] theorem State.setBank_out (s : State) (b : Nat) (x : Bank) : (s.setBank b x).out = s.out := rfl
@[simp] theorem State.setBank_time (s : State) (b : Nat) (x : Bank) : (s.setBank b x).time = s.time := rfl
@[simp] theorem State.setBank_cycles (s : State) (b : Nat) (x : Bank) : (s.setBank b x).cycles = s.cycles := rfl
@[simp] theorem State.setBank_cur (s : State) (b : Nat) (x : Bank) : (s.setBank b x).cur = s.cur := rfl
@[simp] theorem State.setBank_mark (s : State) (b : Nat) (x : Bank) : (s.setBank b x).mark = s.mark := rfl
@[simp] theorem State.setBank_issue (s : State) (b : Nat) (x : Bank) : (s.setBank b x).issue = s.issue := rfl
@[simp] theorem State.setBank_inputs (s : State) (b : Nat) (x : Bank) : (s.setBank b x).inputs = s.inputs := rfl
@[simp] theorem State.setBank_tick (s : State) (b : Nat) (x : Bank) : (s.setBank b x).tick = s.tick := rfl
@[simp] theorem State.setBank_seq (s : State) (b : Nat) (x : Bank) : (s.setBank b x).seq = s.seq := rfl

/-! setColumn. -/

@[simp] theorem State.setColumn_mem (s : State) (k : Nat) (x : Column) : (s.setColumn k x).mem = s.mem := rfl
@[simp] theorem State.setColumn_poison (s : State) (k : Nat) (x : Column) : (s.setColumn k x).poison = s.poison := rfl
@[simp] theorem State.setColumn_ctxs (s : State) (k : Nat) (x : Column) : (s.setColumn k x).ctxs = s.ctxs := rfl
@[simp] theorem State.setColumn_cores (s : State) (k : Nat) (x : Column) : (s.setColumn k x).cores = s.cores := rfl
@[simp] theorem State.setColumn_banks (s : State) (k : Nat) (x : Column) : (s.setColumn k x).banks = s.banks := rfl
@[simp] theorem State.setColumn_cubes (s : State) (k : Nat) (x : Column) : (s.setColumn k x).cubes = s.cubes := rfl
@[simp] theorem State.setColumn_regions (s : State) (k : Nat) (x : Column) : (s.setColumn k x).regions = s.regions := rfl
@[simp] theorem State.setColumn_loads (s : State) (k : Nat) (x : Column) : (s.setColumn k x).loads = s.loads := rfl
@[simp] theorem State.setColumn_stores (s : State) (k : Nat) (x : Column) : (s.setColumn k x).stores = s.stores := rfl
@[simp] theorem State.setColumn_ops (s : State) (k : Nat) (x : Column) : (s.setColumn k x).ops = s.ops := rfl
@[simp] theorem State.setColumn_unfilled (s : State) (k : Nat) (x : Column) : (s.setColumn k x).unfilled = s.unfilled := rfl
@[simp] theorem State.setColumn_colls (s : State) (k : Nat) (x : Column) : (s.setColumn k x).colls = s.colls := rfl
@[simp] theorem State.setColumn_launches (s : State) (k : Nat) (x : Column) : (s.setColumn k x).launches = s.launches := rfl
@[simp] theorem State.setColumn_waiting (s : State) (k : Nat) (x : Column) : (s.setColumn k x).waiting = s.waiting := rfl
@[simp] theorem State.setColumn_saved (s : State) (k : Nat) (x : Column) : (s.setColumn k x).saved = s.saved := rfl
@[simp] theorem State.setColumn_heldLaunches (s : State) (k : Nat) (x : Column) : (s.setColumn k x).heldLaunches = s.heldLaunches := rfl
@[simp] theorem State.setColumn_queues (s : State) (k : Nat) (x : Column) : (s.setColumn k x).queues = s.queues := rfl
@[simp] theorem State.setColumn_doorbells (s : State) (k : Nat) (x : Column) : (s.setColumn k x).doorbells = s.doorbells := rfl
@[simp] theorem State.setColumn_pubs (s : State) (k : Nat) (x : Column) : (s.setColumn k x).pubs = s.pubs := rfl
@[simp] theorem State.setColumn_pdl (s : State) (k : Nat) (x : Column) : (s.setColumn k x).pdl = s.pdl := rfl
@[simp] theorem State.setColumn_comThr (s : State) (k : Nat) (x : Column) : (s.setColumn k x).comThr = s.comThr := rfl
@[simp] theorem State.setColumn_intervals (s : State) (k : Nat) (x : Column) : (s.setColumn k x).intervals = s.intervals := rfl
@[simp] theorem State.setColumn_raceShadow (s : State) (k : Nat) (x : Column) : (s.setColumn k x).raceShadow = s.raceShadow := rfl
@[simp] theorem State.setColumn_raceLogs (s : State) (k : Nat) (x : Column) : (s.setColumn k x).raceLogs = s.raceLogs := rfl
@[simp] theorem State.setColumn_gaugeScopes (s : State) (k : Nat) (x : Column) : (s.setColumn k x).gaugeScopes = s.gaugeScopes := rfl
@[simp] theorem State.setColumn_retries (s : State) (k : Nat) (x : Column) : (s.setColumn k x).retries = s.retries := rfl
@[simp] theorem State.setColumn_fabric (s : State) (k : Nat) (x : Column) : (s.setColumn k x).fabric = s.fabric := rfl
@[simp] theorem State.setColumn_telBase (s : State) (k : Nat) (x : Column) : (s.setColumn k x).telBase = s.telBase := rfl
@[simp] theorem State.setColumn_telSize (s : State) (k : Nat) (x : Column) : (s.setColumn k x).telSize = s.telSize := rfl
@[simp] theorem State.setColumn_telWidx (s : State) (k : Nat) (x : Column) : (s.setColumn k x).telWidx = s.telWidx := rfl
@[simp] theorem State.setColumn_telRidx (s : State) (k : Nat) (x : Column) : (s.setColumn k x).telRidx = s.telRidx := rfl
@[simp] theorem State.setColumn_telLost (s : State) (k : Nat) (x : Column) : (s.setColumn k x).telLost = s.telLost := rfl
@[simp] theorem State.setColumn_telAt (s : State) (k : Nat) (x : Column) : (s.setColumn k x).telAt = s.telAt := rfl
@[simp] theorem State.setColumn_telAggAt (s : State) (k : Nat) (x : Column) : (s.setColumn k x).telAggAt = s.telAggAt := rfl
@[simp] theorem State.setColumn_fcastAt (s : State) (k : Nat) (x : Column) : (s.setColumn k x).fcastAt = s.fcastAt := rfl
@[simp] theorem State.setColumn_windowAt (s : State) (k : Nat) (x : Column) : (s.setColumn k x).windowAt = s.windowAt := rfl
@[simp] theorem State.setColumn_rontal (s : State) (k : Nat) (x : Column) : (s.setColumn k x).rontal = s.rontal := rfl
@[simp] theorem State.setColumn_part (s : State) (k : Nat) (x : Column) : (s.setColumn k x).part = s.part := rfl
@[simp] theorem State.setColumn_out (s : State) (k : Nat) (x : Column) : (s.setColumn k x).out = s.out := rfl
@[simp] theorem State.setColumn_time (s : State) (k : Nat) (x : Column) : (s.setColumn k x).time = s.time := rfl
@[simp] theorem State.setColumn_cycles (s : State) (k : Nat) (x : Column) : (s.setColumn k x).cycles = s.cycles := rfl
@[simp] theorem State.setColumn_cur (s : State) (k : Nat) (x : Column) : (s.setColumn k x).cur = s.cur := rfl
@[simp] theorem State.setColumn_mark (s : State) (k : Nat) (x : Column) : (s.setColumn k x).mark = s.mark := rfl
@[simp] theorem State.setColumn_issue (s : State) (k : Nat) (x : Column) : (s.setColumn k x).issue = s.issue := rfl
@[simp] theorem State.setColumn_inputs (s : State) (k : Nat) (x : Column) : (s.setColumn k x).inputs = s.inputs := rfl
@[simp] theorem State.setColumn_tick (s : State) (k : Nat) (x : Column) : (s.setColumn k x).tick = s.tick := rfl
@[simp] theorem State.setColumn_seq (s : State) (k : Nat) (x : Column) : (s.setColumn k x).seq = s.seq := rfl

/-! setCube. -/

@[simp] theorem State.setCube_mem (s : State) (q : Nat) (x : Cube) : (s.setCube q x).mem = s.mem := rfl
@[simp] theorem State.setCube_poison (s : State) (q : Nat) (x : Cube) : (s.setCube q x).poison = s.poison := rfl
@[simp] theorem State.setCube_ctxs (s : State) (q : Nat) (x : Cube) : (s.setCube q x).ctxs = s.ctxs := rfl
@[simp] theorem State.setCube_cores (s : State) (q : Nat) (x : Cube) : (s.setCube q x).cores = s.cores := rfl
@[simp] theorem State.setCube_banks (s : State) (q : Nat) (x : Cube) : (s.setCube q x).banks = s.banks := rfl
@[simp] theorem State.setCube_columns (s : State) (q : Nat) (x : Cube) : (s.setCube q x).columns = s.columns := rfl
@[simp] theorem State.setCube_regions (s : State) (q : Nat) (x : Cube) : (s.setCube q x).regions = s.regions := rfl
@[simp] theorem State.setCube_loads (s : State) (q : Nat) (x : Cube) : (s.setCube q x).loads = s.loads := rfl
@[simp] theorem State.setCube_stores (s : State) (q : Nat) (x : Cube) : (s.setCube q x).stores = s.stores := rfl
@[simp] theorem State.setCube_ops (s : State) (q : Nat) (x : Cube) : (s.setCube q x).ops = s.ops := rfl
@[simp] theorem State.setCube_unfilled (s : State) (q : Nat) (x : Cube) : (s.setCube q x).unfilled = s.unfilled := rfl
@[simp] theorem State.setCube_colls (s : State) (q : Nat) (x : Cube) : (s.setCube q x).colls = s.colls := rfl
@[simp] theorem State.setCube_launches (s : State) (q : Nat) (x : Cube) : (s.setCube q x).launches = s.launches := rfl
@[simp] theorem State.setCube_waiting (s : State) (q : Nat) (x : Cube) : (s.setCube q x).waiting = s.waiting := rfl
@[simp] theorem State.setCube_saved (s : State) (q : Nat) (x : Cube) : (s.setCube q x).saved = s.saved := rfl
@[simp] theorem State.setCube_heldLaunches (s : State) (q : Nat) (x : Cube) : (s.setCube q x).heldLaunches = s.heldLaunches := rfl
@[simp] theorem State.setCube_queues (s : State) (q : Nat) (x : Cube) : (s.setCube q x).queues = s.queues := rfl
@[simp] theorem State.setCube_doorbells (s : State) (q : Nat) (x : Cube) : (s.setCube q x).doorbells = s.doorbells := rfl
@[simp] theorem State.setCube_pubs (s : State) (q : Nat) (x : Cube) : (s.setCube q x).pubs = s.pubs := rfl
@[simp] theorem State.setCube_pdl (s : State) (q : Nat) (x : Cube) : (s.setCube q x).pdl = s.pdl := rfl
@[simp] theorem State.setCube_comThr (s : State) (q : Nat) (x : Cube) : (s.setCube q x).comThr = s.comThr := rfl
@[simp] theorem State.setCube_intervals (s : State) (q : Nat) (x : Cube) : (s.setCube q x).intervals = s.intervals := rfl
@[simp] theorem State.setCube_raceShadow (s : State) (q : Nat) (x : Cube) : (s.setCube q x).raceShadow = s.raceShadow := rfl
@[simp] theorem State.setCube_raceLogs (s : State) (q : Nat) (x : Cube) : (s.setCube q x).raceLogs = s.raceLogs := rfl
@[simp] theorem State.setCube_gaugeScopes (s : State) (q : Nat) (x : Cube) : (s.setCube q x).gaugeScopes = s.gaugeScopes := rfl
@[simp] theorem State.setCube_retries (s : State) (q : Nat) (x : Cube) : (s.setCube q x).retries = s.retries := rfl
@[simp] theorem State.setCube_fabric (s : State) (q : Nat) (x : Cube) : (s.setCube q x).fabric = s.fabric := rfl
@[simp] theorem State.setCube_telBase (s : State) (q : Nat) (x : Cube) : (s.setCube q x).telBase = s.telBase := rfl
@[simp] theorem State.setCube_telSize (s : State) (q : Nat) (x : Cube) : (s.setCube q x).telSize = s.telSize := rfl
@[simp] theorem State.setCube_telWidx (s : State) (q : Nat) (x : Cube) : (s.setCube q x).telWidx = s.telWidx := rfl
@[simp] theorem State.setCube_telRidx (s : State) (q : Nat) (x : Cube) : (s.setCube q x).telRidx = s.telRidx := rfl
@[simp] theorem State.setCube_telLost (s : State) (q : Nat) (x : Cube) : (s.setCube q x).telLost = s.telLost := rfl
@[simp] theorem State.setCube_telAt (s : State) (q : Nat) (x : Cube) : (s.setCube q x).telAt = s.telAt := rfl
@[simp] theorem State.setCube_telAggAt (s : State) (q : Nat) (x : Cube) : (s.setCube q x).telAggAt = s.telAggAt := rfl
@[simp] theorem State.setCube_fcastAt (s : State) (q : Nat) (x : Cube) : (s.setCube q x).fcastAt = s.fcastAt := rfl
@[simp] theorem State.setCube_windowAt (s : State) (q : Nat) (x : Cube) : (s.setCube q x).windowAt = s.windowAt := rfl
@[simp] theorem State.setCube_rontal (s : State) (q : Nat) (x : Cube) : (s.setCube q x).rontal = s.rontal := rfl
@[simp] theorem State.setCube_part (s : State) (q : Nat) (x : Cube) : (s.setCube q x).part = s.part := rfl
@[simp] theorem State.setCube_out (s : State) (q : Nat) (x : Cube) : (s.setCube q x).out = s.out := rfl
@[simp] theorem State.setCube_time (s : State) (q : Nat) (x : Cube) : (s.setCube q x).time = s.time := rfl
@[simp] theorem State.setCube_cycles (s : State) (q : Nat) (x : Cube) : (s.setCube q x).cycles = s.cycles := rfl
@[simp] theorem State.setCube_cur (s : State) (q : Nat) (x : Cube) : (s.setCube q x).cur = s.cur := rfl
@[simp] theorem State.setCube_mark (s : State) (q : Nat) (x : Cube) : (s.setCube q x).mark = s.mark := rfl
@[simp] theorem State.setCube_issue (s : State) (q : Nat) (x : Cube) : (s.setCube q x).issue = s.issue := rfl
@[simp] theorem State.setCube_inputs (s : State) (q : Nat) (x : Cube) : (s.setCube q x).inputs = s.inputs := rfl
@[simp] theorem State.setCube_tick (s : State) (q : Nat) (x : Cube) : (s.setCube q x).tick = s.tick := rfl
@[simp] theorem State.setCube_seq (s : State) (q : Nat) (x : Cube) : (s.setCube q x).seq = s.seq := rfl

/-! setRegion. -/

@[simp] theorem State.setRegion_mem (s : State) (r : Nat) (x : Region) : (s.setRegion r x).mem = s.mem := rfl
@[simp] theorem State.setRegion_poison (s : State) (r : Nat) (x : Region) : (s.setRegion r x).poison = s.poison := rfl
@[simp] theorem State.setRegion_ctxs (s : State) (r : Nat) (x : Region) : (s.setRegion r x).ctxs = s.ctxs := rfl
@[simp] theorem State.setRegion_cores (s : State) (r : Nat) (x : Region) : (s.setRegion r x).cores = s.cores := rfl
@[simp] theorem State.setRegion_banks (s : State) (r : Nat) (x : Region) : (s.setRegion r x).banks = s.banks := rfl
@[simp] theorem State.setRegion_columns (s : State) (r : Nat) (x : Region) : (s.setRegion r x).columns = s.columns := rfl
@[simp] theorem State.setRegion_cubes (s : State) (r : Nat) (x : Region) : (s.setRegion r x).cubes = s.cubes := rfl
@[simp] theorem State.setRegion_loads (s : State) (r : Nat) (x : Region) : (s.setRegion r x).loads = s.loads := rfl
@[simp] theorem State.setRegion_stores (s : State) (r : Nat) (x : Region) : (s.setRegion r x).stores = s.stores := rfl
@[simp] theorem State.setRegion_ops (s : State) (r : Nat) (x : Region) : (s.setRegion r x).ops = s.ops := rfl
@[simp] theorem State.setRegion_unfilled (s : State) (r : Nat) (x : Region) : (s.setRegion r x).unfilled = s.unfilled := rfl
@[simp] theorem State.setRegion_colls (s : State) (r : Nat) (x : Region) : (s.setRegion r x).colls = s.colls := rfl
@[simp] theorem State.setRegion_launches (s : State) (r : Nat) (x : Region) : (s.setRegion r x).launches = s.launches := rfl
@[simp] theorem State.setRegion_waiting (s : State) (r : Nat) (x : Region) : (s.setRegion r x).waiting = s.waiting := rfl
@[simp] theorem State.setRegion_saved (s : State) (r : Nat) (x : Region) : (s.setRegion r x).saved = s.saved := rfl
@[simp] theorem State.setRegion_heldLaunches (s : State) (r : Nat) (x : Region) : (s.setRegion r x).heldLaunches = s.heldLaunches := rfl
@[simp] theorem State.setRegion_queues (s : State) (r : Nat) (x : Region) : (s.setRegion r x).queues = s.queues := rfl
@[simp] theorem State.setRegion_doorbells (s : State) (r : Nat) (x : Region) : (s.setRegion r x).doorbells = s.doorbells := rfl
@[simp] theorem State.setRegion_pubs (s : State) (r : Nat) (x : Region) : (s.setRegion r x).pubs = s.pubs := rfl
@[simp] theorem State.setRegion_pdl (s : State) (r : Nat) (x : Region) : (s.setRegion r x).pdl = s.pdl := rfl
@[simp] theorem State.setRegion_comThr (s : State) (r : Nat) (x : Region) : (s.setRegion r x).comThr = s.comThr := rfl
@[simp] theorem State.setRegion_intervals (s : State) (r : Nat) (x : Region) : (s.setRegion r x).intervals = s.intervals := rfl
@[simp] theorem State.setRegion_raceShadow (s : State) (r : Nat) (x : Region) : (s.setRegion r x).raceShadow = s.raceShadow := rfl
@[simp] theorem State.setRegion_raceLogs (s : State) (r : Nat) (x : Region) : (s.setRegion r x).raceLogs = s.raceLogs := rfl
@[simp] theorem State.setRegion_gaugeScopes (s : State) (r : Nat) (x : Region) : (s.setRegion r x).gaugeScopes = s.gaugeScopes := rfl
@[simp] theorem State.setRegion_retries (s : State) (r : Nat) (x : Region) : (s.setRegion r x).retries = s.retries := rfl
@[simp] theorem State.setRegion_fabric (s : State) (r : Nat) (x : Region) : (s.setRegion r x).fabric = s.fabric := rfl
@[simp] theorem State.setRegion_telBase (s : State) (r : Nat) (x : Region) : (s.setRegion r x).telBase = s.telBase := rfl
@[simp] theorem State.setRegion_telSize (s : State) (r : Nat) (x : Region) : (s.setRegion r x).telSize = s.telSize := rfl
@[simp] theorem State.setRegion_telWidx (s : State) (r : Nat) (x : Region) : (s.setRegion r x).telWidx = s.telWidx := rfl
@[simp] theorem State.setRegion_telRidx (s : State) (r : Nat) (x : Region) : (s.setRegion r x).telRidx = s.telRidx := rfl
@[simp] theorem State.setRegion_telLost (s : State) (r : Nat) (x : Region) : (s.setRegion r x).telLost = s.telLost := rfl
@[simp] theorem State.setRegion_telAt (s : State) (r : Nat) (x : Region) : (s.setRegion r x).telAt = s.telAt := rfl
@[simp] theorem State.setRegion_telAggAt (s : State) (r : Nat) (x : Region) : (s.setRegion r x).telAggAt = s.telAggAt := rfl
@[simp] theorem State.setRegion_fcastAt (s : State) (r : Nat) (x : Region) : (s.setRegion r x).fcastAt = s.fcastAt := rfl
@[simp] theorem State.setRegion_windowAt (s : State) (r : Nat) (x : Region) : (s.setRegion r x).windowAt = s.windowAt := rfl
@[simp] theorem State.setRegion_rontal (s : State) (r : Nat) (x : Region) : (s.setRegion r x).rontal = s.rontal := rfl
@[simp] theorem State.setRegion_part (s : State) (r : Nat) (x : Region) : (s.setRegion r x).part = s.part := rfl
@[simp] theorem State.setRegion_out (s : State) (r : Nat) (x : Region) : (s.setRegion r x).out = s.out := rfl
@[simp] theorem State.setRegion_time (s : State) (r : Nat) (x : Region) : (s.setRegion r x).time = s.time := rfl
@[simp] theorem State.setRegion_cycles (s : State) (r : Nat) (x : Region) : (s.setRegion r x).cycles = s.cycles := rfl
@[simp] theorem State.setRegion_cur (s : State) (r : Nat) (x : Region) : (s.setRegion r x).cur = s.cur := rfl
@[simp] theorem State.setRegion_mark (s : State) (r : Nat) (x : Region) : (s.setRegion r x).mark = s.mark := rfl
@[simp] theorem State.setRegion_issue (s : State) (r : Nat) (x : Region) : (s.setRegion r x).issue = s.issue := rfl
@[simp] theorem State.setRegion_inputs (s : State) (r : Nat) (x : Region) : (s.setRegion r x).inputs = s.inputs := rfl
@[simp] theorem State.setRegion_tick (s : State) (r : Nat) (x : Region) : (s.setRegion r x).tick = s.tick := rfl
@[simp] theorem State.setRegion_seq (s : State) (r : Nat) (x : Region) : (s.setRegion r x).seq = s.seq := rfl

/-! setQueue. -/

@[simp] theorem State.setQueue_mem (s : State) (q : Nat) (x : Queue) : (s.setQueue q x).mem = s.mem := rfl
@[simp] theorem State.setQueue_poison (s : State) (q : Nat) (x : Queue) : (s.setQueue q x).poison = s.poison := rfl
@[simp] theorem State.setQueue_ctxs (s : State) (q : Nat) (x : Queue) : (s.setQueue q x).ctxs = s.ctxs := rfl
@[simp] theorem State.setQueue_cores (s : State) (q : Nat) (x : Queue) : (s.setQueue q x).cores = s.cores := rfl
@[simp] theorem State.setQueue_banks (s : State) (q : Nat) (x : Queue) : (s.setQueue q x).banks = s.banks := rfl
@[simp] theorem State.setQueue_columns (s : State) (q : Nat) (x : Queue) : (s.setQueue q x).columns = s.columns := rfl
@[simp] theorem State.setQueue_cubes (s : State) (q : Nat) (x : Queue) : (s.setQueue q x).cubes = s.cubes := rfl
@[simp] theorem State.setQueue_regions (s : State) (q : Nat) (x : Queue) : (s.setQueue q x).regions = s.regions := rfl
@[simp] theorem State.setQueue_loads (s : State) (q : Nat) (x : Queue) : (s.setQueue q x).loads = s.loads := rfl
@[simp] theorem State.setQueue_stores (s : State) (q : Nat) (x : Queue) : (s.setQueue q x).stores = s.stores := rfl
@[simp] theorem State.setQueue_ops (s : State) (q : Nat) (x : Queue) : (s.setQueue q x).ops = s.ops := rfl
@[simp] theorem State.setQueue_unfilled (s : State) (q : Nat) (x : Queue) : (s.setQueue q x).unfilled = s.unfilled := rfl
@[simp] theorem State.setQueue_colls (s : State) (q : Nat) (x : Queue) : (s.setQueue q x).colls = s.colls := rfl
@[simp] theorem State.setQueue_launches (s : State) (q : Nat) (x : Queue) : (s.setQueue q x).launches = s.launches := rfl
@[simp] theorem State.setQueue_waiting (s : State) (q : Nat) (x : Queue) : (s.setQueue q x).waiting = s.waiting := rfl
@[simp] theorem State.setQueue_saved (s : State) (q : Nat) (x : Queue) : (s.setQueue q x).saved = s.saved := rfl
@[simp] theorem State.setQueue_heldLaunches (s : State) (q : Nat) (x : Queue) : (s.setQueue q x).heldLaunches = s.heldLaunches := rfl
@[simp] theorem State.setQueue_doorbells (s : State) (q : Nat) (x : Queue) : (s.setQueue q x).doorbells = s.doorbells := rfl
@[simp] theorem State.setQueue_pubs (s : State) (q : Nat) (x : Queue) : (s.setQueue q x).pubs = s.pubs := rfl
@[simp] theorem State.setQueue_pdl (s : State) (q : Nat) (x : Queue) : (s.setQueue q x).pdl = s.pdl := rfl
@[simp] theorem State.setQueue_comThr (s : State) (q : Nat) (x : Queue) : (s.setQueue q x).comThr = s.comThr := rfl
@[simp] theorem State.setQueue_intervals (s : State) (q : Nat) (x : Queue) : (s.setQueue q x).intervals = s.intervals := rfl
@[simp] theorem State.setQueue_raceShadow (s : State) (q : Nat) (x : Queue) : (s.setQueue q x).raceShadow = s.raceShadow := rfl
@[simp] theorem State.setQueue_raceLogs (s : State) (q : Nat) (x : Queue) : (s.setQueue q x).raceLogs = s.raceLogs := rfl
@[simp] theorem State.setQueue_gaugeScopes (s : State) (q : Nat) (x : Queue) : (s.setQueue q x).gaugeScopes = s.gaugeScopes := rfl
@[simp] theorem State.setQueue_retries (s : State) (q : Nat) (x : Queue) : (s.setQueue q x).retries = s.retries := rfl
@[simp] theorem State.setQueue_fabric (s : State) (q : Nat) (x : Queue) : (s.setQueue q x).fabric = s.fabric := rfl
@[simp] theorem State.setQueue_telBase (s : State) (q : Nat) (x : Queue) : (s.setQueue q x).telBase = s.telBase := rfl
@[simp] theorem State.setQueue_telSize (s : State) (q : Nat) (x : Queue) : (s.setQueue q x).telSize = s.telSize := rfl
@[simp] theorem State.setQueue_telWidx (s : State) (q : Nat) (x : Queue) : (s.setQueue q x).telWidx = s.telWidx := rfl
@[simp] theorem State.setQueue_telRidx (s : State) (q : Nat) (x : Queue) : (s.setQueue q x).telRidx = s.telRidx := rfl
@[simp] theorem State.setQueue_telLost (s : State) (q : Nat) (x : Queue) : (s.setQueue q x).telLost = s.telLost := rfl
@[simp] theorem State.setQueue_telAt (s : State) (q : Nat) (x : Queue) : (s.setQueue q x).telAt = s.telAt := rfl
@[simp] theorem State.setQueue_telAggAt (s : State) (q : Nat) (x : Queue) : (s.setQueue q x).telAggAt = s.telAggAt := rfl
@[simp] theorem State.setQueue_fcastAt (s : State) (q : Nat) (x : Queue) : (s.setQueue q x).fcastAt = s.fcastAt := rfl
@[simp] theorem State.setQueue_windowAt (s : State) (q : Nat) (x : Queue) : (s.setQueue q x).windowAt = s.windowAt := rfl
@[simp] theorem State.setQueue_rontal (s : State) (q : Nat) (x : Queue) : (s.setQueue q x).rontal = s.rontal := rfl
@[simp] theorem State.setQueue_part (s : State) (q : Nat) (x : Queue) : (s.setQueue q x).part = s.part := rfl
@[simp] theorem State.setQueue_out (s : State) (q : Nat) (x : Queue) : (s.setQueue q x).out = s.out := rfl
@[simp] theorem State.setQueue_time (s : State) (q : Nat) (x : Queue) : (s.setQueue q x).time = s.time := rfl
@[simp] theorem State.setQueue_cycles (s : State) (q : Nat) (x : Queue) : (s.setQueue q x).cycles = s.cycles := rfl
@[simp] theorem State.setQueue_cur (s : State) (q : Nat) (x : Queue) : (s.setQueue q x).cur = s.cur := rfl
@[simp] theorem State.setQueue_mark (s : State) (q : Nat) (x : Queue) : (s.setQueue q x).mark = s.mark := rfl
@[simp] theorem State.setQueue_issue (s : State) (q : Nat) (x : Queue) : (s.setQueue q x).issue = s.issue := rfl
@[simp] theorem State.setQueue_inputs (s : State) (q : Nat) (x : Queue) : (s.setQueue q x).inputs = s.inputs := rfl
@[simp] theorem State.setQueue_tick (s : State) (q : Nat) (x : Queue) : (s.setQueue q x).tick = s.tick := rfl
@[simp] theorem State.setQueue_seq (s : State) (q : Nat) (x : Queue) : (s.setQueue q x).seq = s.seq := rfl

/-! modCtx. -/

@[simp] theorem State.modCtx_mem (s : State) (c : Nat) (f : Ctx → Ctx) : (s.modCtx c f).mem = s.mem := rfl
@[simp] theorem State.modCtx_poison (s : State) (c : Nat) (f : Ctx → Ctx) : (s.modCtx c f).poison = s.poison := rfl
@[simp] theorem State.modCtx_cores (s : State) (c : Nat) (f : Ctx → Ctx) : (s.modCtx c f).cores = s.cores := rfl
@[simp] theorem State.modCtx_banks (s : State) (c : Nat) (f : Ctx → Ctx) : (s.modCtx c f).banks = s.banks := rfl
@[simp] theorem State.modCtx_columns (s : State) (c : Nat) (f : Ctx → Ctx) : (s.modCtx c f).columns = s.columns := rfl
@[simp] theorem State.modCtx_cubes (s : State) (c : Nat) (f : Ctx → Ctx) : (s.modCtx c f).cubes = s.cubes := rfl
@[simp] theorem State.modCtx_regions (s : State) (c : Nat) (f : Ctx → Ctx) : (s.modCtx c f).regions = s.regions := rfl
@[simp] theorem State.modCtx_loads (s : State) (c : Nat) (f : Ctx → Ctx) : (s.modCtx c f).loads = s.loads := rfl
@[simp] theorem State.modCtx_stores (s : State) (c : Nat) (f : Ctx → Ctx) : (s.modCtx c f).stores = s.stores := rfl
@[simp] theorem State.modCtx_ops (s : State) (c : Nat) (f : Ctx → Ctx) : (s.modCtx c f).ops = s.ops := rfl
@[simp] theorem State.modCtx_unfilled (s : State) (c : Nat) (f : Ctx → Ctx) : (s.modCtx c f).unfilled = s.unfilled := rfl
@[simp] theorem State.modCtx_colls (s : State) (c : Nat) (f : Ctx → Ctx) : (s.modCtx c f).colls = s.colls := rfl
@[simp] theorem State.modCtx_launches (s : State) (c : Nat) (f : Ctx → Ctx) : (s.modCtx c f).launches = s.launches := rfl
@[simp] theorem State.modCtx_waiting (s : State) (c : Nat) (f : Ctx → Ctx) : (s.modCtx c f).waiting = s.waiting := rfl
@[simp] theorem State.modCtx_saved (s : State) (c : Nat) (f : Ctx → Ctx) : (s.modCtx c f).saved = s.saved := rfl
@[simp] theorem State.modCtx_heldLaunches (s : State) (c : Nat) (f : Ctx → Ctx) : (s.modCtx c f).heldLaunches = s.heldLaunches := rfl
@[simp] theorem State.modCtx_queues (s : State) (c : Nat) (f : Ctx → Ctx) : (s.modCtx c f).queues = s.queues := rfl
@[simp] theorem State.modCtx_doorbells (s : State) (c : Nat) (f : Ctx → Ctx) : (s.modCtx c f).doorbells = s.doorbells := rfl
@[simp] theorem State.modCtx_pubs (s : State) (c : Nat) (f : Ctx → Ctx) : (s.modCtx c f).pubs = s.pubs := rfl
@[simp] theorem State.modCtx_pdl (s : State) (c : Nat) (f : Ctx → Ctx) : (s.modCtx c f).pdl = s.pdl := rfl
@[simp] theorem State.modCtx_comThr (s : State) (c : Nat) (f : Ctx → Ctx) : (s.modCtx c f).comThr = s.comThr := rfl
@[simp] theorem State.modCtx_intervals (s : State) (c : Nat) (f : Ctx → Ctx) : (s.modCtx c f).intervals = s.intervals := rfl
@[simp] theorem State.modCtx_raceShadow (s : State) (c : Nat) (f : Ctx → Ctx) : (s.modCtx c f).raceShadow = s.raceShadow := rfl
@[simp] theorem State.modCtx_raceLogs (s : State) (c : Nat) (f : Ctx → Ctx) : (s.modCtx c f).raceLogs = s.raceLogs := rfl
@[simp] theorem State.modCtx_gaugeScopes (s : State) (c : Nat) (f : Ctx → Ctx) : (s.modCtx c f).gaugeScopes = s.gaugeScopes := rfl
@[simp] theorem State.modCtx_retries (s : State) (c : Nat) (f : Ctx → Ctx) : (s.modCtx c f).retries = s.retries := rfl
@[simp] theorem State.modCtx_fabric (s : State) (c : Nat) (f : Ctx → Ctx) : (s.modCtx c f).fabric = s.fabric := rfl
@[simp] theorem State.modCtx_telBase (s : State) (c : Nat) (f : Ctx → Ctx) : (s.modCtx c f).telBase = s.telBase := rfl
@[simp] theorem State.modCtx_telSize (s : State) (c : Nat) (f : Ctx → Ctx) : (s.modCtx c f).telSize = s.telSize := rfl
@[simp] theorem State.modCtx_telWidx (s : State) (c : Nat) (f : Ctx → Ctx) : (s.modCtx c f).telWidx = s.telWidx := rfl
@[simp] theorem State.modCtx_telRidx (s : State) (c : Nat) (f : Ctx → Ctx) : (s.modCtx c f).telRidx = s.telRidx := rfl
@[simp] theorem State.modCtx_telLost (s : State) (c : Nat) (f : Ctx → Ctx) : (s.modCtx c f).telLost = s.telLost := rfl
@[simp] theorem State.modCtx_telAt (s : State) (c : Nat) (f : Ctx → Ctx) : (s.modCtx c f).telAt = s.telAt := rfl
@[simp] theorem State.modCtx_telAggAt (s : State) (c : Nat) (f : Ctx → Ctx) : (s.modCtx c f).telAggAt = s.telAggAt := rfl
@[simp] theorem State.modCtx_fcastAt (s : State) (c : Nat) (f : Ctx → Ctx) : (s.modCtx c f).fcastAt = s.fcastAt := rfl
@[simp] theorem State.modCtx_windowAt (s : State) (c : Nat) (f : Ctx → Ctx) : (s.modCtx c f).windowAt = s.windowAt := rfl
@[simp] theorem State.modCtx_rontal (s : State) (c : Nat) (f : Ctx → Ctx) : (s.modCtx c f).rontal = s.rontal := rfl
@[simp] theorem State.modCtx_part (s : State) (c : Nat) (f : Ctx → Ctx) : (s.modCtx c f).part = s.part := rfl
@[simp] theorem State.modCtx_out (s : State) (c : Nat) (f : Ctx → Ctx) : (s.modCtx c f).out = s.out := rfl
@[simp] theorem State.modCtx_time (s : State) (c : Nat) (f : Ctx → Ctx) : (s.modCtx c f).time = s.time := rfl
@[simp] theorem State.modCtx_cycles (s : State) (c : Nat) (f : Ctx → Ctx) : (s.modCtx c f).cycles = s.cycles := rfl
@[simp] theorem State.modCtx_cur (s : State) (c : Nat) (f : Ctx → Ctx) : (s.modCtx c f).cur = s.cur := rfl
@[simp] theorem State.modCtx_mark (s : State) (c : Nat) (f : Ctx → Ctx) : (s.modCtx c f).mark = s.mark := rfl
@[simp] theorem State.modCtx_issue (s : State) (c : Nat) (f : Ctx → Ctx) : (s.modCtx c f).issue = s.issue := rfl
@[simp] theorem State.modCtx_inputs (s : State) (c : Nat) (f : Ctx → Ctx) : (s.modCtx c f).inputs = s.inputs := rfl
@[simp] theorem State.modCtx_tick (s : State) (c : Nat) (f : Ctx → Ctx) : (s.modCtx c f).tick = s.tick := rfl
@[simp] theorem State.modCtx_seq (s : State) (c : Nat) (f : Ctx → Ctx) : (s.modCtx c f).seq = s.seq := rfl

/-! modMe. -/

@[simp] theorem State.modMe_mem (s : State) (f : Ctx → Ctx) : (s.modMe f).mem = s.mem := rfl
@[simp] theorem State.modMe_poison (s : State) (f : Ctx → Ctx) : (s.modMe f).poison = s.poison := rfl
@[simp] theorem State.modMe_cores (s : State) (f : Ctx → Ctx) : (s.modMe f).cores = s.cores := rfl
@[simp] theorem State.modMe_banks (s : State) (f : Ctx → Ctx) : (s.modMe f).banks = s.banks := rfl
@[simp] theorem State.modMe_columns (s : State) (f : Ctx → Ctx) : (s.modMe f).columns = s.columns := rfl
@[simp] theorem State.modMe_cubes (s : State) (f : Ctx → Ctx) : (s.modMe f).cubes = s.cubes := rfl
@[simp] theorem State.modMe_regions (s : State) (f : Ctx → Ctx) : (s.modMe f).regions = s.regions := rfl
@[simp] theorem State.modMe_loads (s : State) (f : Ctx → Ctx) : (s.modMe f).loads = s.loads := rfl
@[simp] theorem State.modMe_stores (s : State) (f : Ctx → Ctx) : (s.modMe f).stores = s.stores := rfl
@[simp] theorem State.modMe_ops (s : State) (f : Ctx → Ctx) : (s.modMe f).ops = s.ops := rfl
@[simp] theorem State.modMe_unfilled (s : State) (f : Ctx → Ctx) : (s.modMe f).unfilled = s.unfilled := rfl
@[simp] theorem State.modMe_colls (s : State) (f : Ctx → Ctx) : (s.modMe f).colls = s.colls := rfl
@[simp] theorem State.modMe_launches (s : State) (f : Ctx → Ctx) : (s.modMe f).launches = s.launches := rfl
@[simp] theorem State.modMe_waiting (s : State) (f : Ctx → Ctx) : (s.modMe f).waiting = s.waiting := rfl
@[simp] theorem State.modMe_saved (s : State) (f : Ctx → Ctx) : (s.modMe f).saved = s.saved := rfl
@[simp] theorem State.modMe_heldLaunches (s : State) (f : Ctx → Ctx) : (s.modMe f).heldLaunches = s.heldLaunches := rfl
@[simp] theorem State.modMe_queues (s : State) (f : Ctx → Ctx) : (s.modMe f).queues = s.queues := rfl
@[simp] theorem State.modMe_doorbells (s : State) (f : Ctx → Ctx) : (s.modMe f).doorbells = s.doorbells := rfl
@[simp] theorem State.modMe_pubs (s : State) (f : Ctx → Ctx) : (s.modMe f).pubs = s.pubs := rfl
@[simp] theorem State.modMe_pdl (s : State) (f : Ctx → Ctx) : (s.modMe f).pdl = s.pdl := rfl
@[simp] theorem State.modMe_comThr (s : State) (f : Ctx → Ctx) : (s.modMe f).comThr = s.comThr := rfl
@[simp] theorem State.modMe_intervals (s : State) (f : Ctx → Ctx) : (s.modMe f).intervals = s.intervals := rfl
@[simp] theorem State.modMe_raceShadow (s : State) (f : Ctx → Ctx) : (s.modMe f).raceShadow = s.raceShadow := rfl
@[simp] theorem State.modMe_raceLogs (s : State) (f : Ctx → Ctx) : (s.modMe f).raceLogs = s.raceLogs := rfl
@[simp] theorem State.modMe_gaugeScopes (s : State) (f : Ctx → Ctx) : (s.modMe f).gaugeScopes = s.gaugeScopes := rfl
@[simp] theorem State.modMe_retries (s : State) (f : Ctx → Ctx) : (s.modMe f).retries = s.retries := rfl
@[simp] theorem State.modMe_fabric (s : State) (f : Ctx → Ctx) : (s.modMe f).fabric = s.fabric := rfl
@[simp] theorem State.modMe_telBase (s : State) (f : Ctx → Ctx) : (s.modMe f).telBase = s.telBase := rfl
@[simp] theorem State.modMe_telSize (s : State) (f : Ctx → Ctx) : (s.modMe f).telSize = s.telSize := rfl
@[simp] theorem State.modMe_telWidx (s : State) (f : Ctx → Ctx) : (s.modMe f).telWidx = s.telWidx := rfl
@[simp] theorem State.modMe_telRidx (s : State) (f : Ctx → Ctx) : (s.modMe f).telRidx = s.telRidx := rfl
@[simp] theorem State.modMe_telLost (s : State) (f : Ctx → Ctx) : (s.modMe f).telLost = s.telLost := rfl
@[simp] theorem State.modMe_telAt (s : State) (f : Ctx → Ctx) : (s.modMe f).telAt = s.telAt := rfl
@[simp] theorem State.modMe_telAggAt (s : State) (f : Ctx → Ctx) : (s.modMe f).telAggAt = s.telAggAt := rfl
@[simp] theorem State.modMe_fcastAt (s : State) (f : Ctx → Ctx) : (s.modMe f).fcastAt = s.fcastAt := rfl
@[simp] theorem State.modMe_windowAt (s : State) (f : Ctx → Ctx) : (s.modMe f).windowAt = s.windowAt := rfl
@[simp] theorem State.modMe_rontal (s : State) (f : Ctx → Ctx) : (s.modMe f).rontal = s.rontal := rfl
@[simp] theorem State.modMe_part (s : State) (f : Ctx → Ctx) : (s.modMe f).part = s.part := rfl
@[simp] theorem State.modMe_out (s : State) (f : Ctx → Ctx) : (s.modMe f).out = s.out := rfl
@[simp] theorem State.modMe_time (s : State) (f : Ctx → Ctx) : (s.modMe f).time = s.time := rfl
@[simp] theorem State.modMe_cycles (s : State) (f : Ctx → Ctx) : (s.modMe f).cycles = s.cycles := rfl
@[simp] theorem State.modMe_cur (s : State) (f : Ctx → Ctx) : (s.modMe f).cur = s.cur := rfl
@[simp] theorem State.modMe_mark (s : State) (f : Ctx → Ctx) : (s.modMe f).mark = s.mark := rfl
@[simp] theorem State.modMe_issue (s : State) (f : Ctx → Ctx) : (s.modMe f).issue = s.issue := rfl
@[simp] theorem State.modMe_inputs (s : State) (f : Ctx → Ctx) : (s.modMe f).inputs = s.inputs := rfl
@[simp] theorem State.modMe_tick (s : State) (f : Ctx → Ctx) : (s.modMe f).tick = s.tick := rfl
@[simp] theorem State.modMe_seq (s : State) (f : Ctx → Ctx) : (s.modMe f).seq = s.seq := rfl

/-! modCore. -/

@[simp] theorem State.modCore_mem (s : State) (k : Nat) (f : Core → Core) : (s.modCore k f).mem = s.mem := rfl
@[simp] theorem State.modCore_poison (s : State) (k : Nat) (f : Core → Core) : (s.modCore k f).poison = s.poison := rfl
@[simp] theorem State.modCore_ctxs (s : State) (k : Nat) (f : Core → Core) : (s.modCore k f).ctxs = s.ctxs := rfl
@[simp] theorem State.modCore_banks (s : State) (k : Nat) (f : Core → Core) : (s.modCore k f).banks = s.banks := rfl
@[simp] theorem State.modCore_columns (s : State) (k : Nat) (f : Core → Core) : (s.modCore k f).columns = s.columns := rfl
@[simp] theorem State.modCore_cubes (s : State) (k : Nat) (f : Core → Core) : (s.modCore k f).cubes = s.cubes := rfl
@[simp] theorem State.modCore_regions (s : State) (k : Nat) (f : Core → Core) : (s.modCore k f).regions = s.regions := rfl
@[simp] theorem State.modCore_loads (s : State) (k : Nat) (f : Core → Core) : (s.modCore k f).loads = s.loads := rfl
@[simp] theorem State.modCore_stores (s : State) (k : Nat) (f : Core → Core) : (s.modCore k f).stores = s.stores := rfl
@[simp] theorem State.modCore_ops (s : State) (k : Nat) (f : Core → Core) : (s.modCore k f).ops = s.ops := rfl
@[simp] theorem State.modCore_unfilled (s : State) (k : Nat) (f : Core → Core) : (s.modCore k f).unfilled = s.unfilled := rfl
@[simp] theorem State.modCore_colls (s : State) (k : Nat) (f : Core → Core) : (s.modCore k f).colls = s.colls := rfl
@[simp] theorem State.modCore_launches (s : State) (k : Nat) (f : Core → Core) : (s.modCore k f).launches = s.launches := rfl
@[simp] theorem State.modCore_waiting (s : State) (k : Nat) (f : Core → Core) : (s.modCore k f).waiting = s.waiting := rfl
@[simp] theorem State.modCore_saved (s : State) (k : Nat) (f : Core → Core) : (s.modCore k f).saved = s.saved := rfl
@[simp] theorem State.modCore_heldLaunches (s : State) (k : Nat) (f : Core → Core) : (s.modCore k f).heldLaunches = s.heldLaunches := rfl
@[simp] theorem State.modCore_queues (s : State) (k : Nat) (f : Core → Core) : (s.modCore k f).queues = s.queues := rfl
@[simp] theorem State.modCore_doorbells (s : State) (k : Nat) (f : Core → Core) : (s.modCore k f).doorbells = s.doorbells := rfl
@[simp] theorem State.modCore_pubs (s : State) (k : Nat) (f : Core → Core) : (s.modCore k f).pubs = s.pubs := rfl
@[simp] theorem State.modCore_pdl (s : State) (k : Nat) (f : Core → Core) : (s.modCore k f).pdl = s.pdl := rfl
@[simp] theorem State.modCore_comThr (s : State) (k : Nat) (f : Core → Core) : (s.modCore k f).comThr = s.comThr := rfl
@[simp] theorem State.modCore_intervals (s : State) (k : Nat) (f : Core → Core) : (s.modCore k f).intervals = s.intervals := rfl
@[simp] theorem State.modCore_raceShadow (s : State) (k : Nat) (f : Core → Core) : (s.modCore k f).raceShadow = s.raceShadow := rfl
@[simp] theorem State.modCore_raceLogs (s : State) (k : Nat) (f : Core → Core) : (s.modCore k f).raceLogs = s.raceLogs := rfl
@[simp] theorem State.modCore_gaugeScopes (s : State) (k : Nat) (f : Core → Core) : (s.modCore k f).gaugeScopes = s.gaugeScopes := rfl
@[simp] theorem State.modCore_retries (s : State) (k : Nat) (f : Core → Core) : (s.modCore k f).retries = s.retries := rfl
@[simp] theorem State.modCore_fabric (s : State) (k : Nat) (f : Core → Core) : (s.modCore k f).fabric = s.fabric := rfl
@[simp] theorem State.modCore_telBase (s : State) (k : Nat) (f : Core → Core) : (s.modCore k f).telBase = s.telBase := rfl
@[simp] theorem State.modCore_telSize (s : State) (k : Nat) (f : Core → Core) : (s.modCore k f).telSize = s.telSize := rfl
@[simp] theorem State.modCore_telWidx (s : State) (k : Nat) (f : Core → Core) : (s.modCore k f).telWidx = s.telWidx := rfl
@[simp] theorem State.modCore_telRidx (s : State) (k : Nat) (f : Core → Core) : (s.modCore k f).telRidx = s.telRidx := rfl
@[simp] theorem State.modCore_telLost (s : State) (k : Nat) (f : Core → Core) : (s.modCore k f).telLost = s.telLost := rfl
@[simp] theorem State.modCore_telAt (s : State) (k : Nat) (f : Core → Core) : (s.modCore k f).telAt = s.telAt := rfl
@[simp] theorem State.modCore_telAggAt (s : State) (k : Nat) (f : Core → Core) : (s.modCore k f).telAggAt = s.telAggAt := rfl
@[simp] theorem State.modCore_fcastAt (s : State) (k : Nat) (f : Core → Core) : (s.modCore k f).fcastAt = s.fcastAt := rfl
@[simp] theorem State.modCore_windowAt (s : State) (k : Nat) (f : Core → Core) : (s.modCore k f).windowAt = s.windowAt := rfl
@[simp] theorem State.modCore_rontal (s : State) (k : Nat) (f : Core → Core) : (s.modCore k f).rontal = s.rontal := rfl
@[simp] theorem State.modCore_part (s : State) (k : Nat) (f : Core → Core) : (s.modCore k f).part = s.part := rfl
@[simp] theorem State.modCore_out (s : State) (k : Nat) (f : Core → Core) : (s.modCore k f).out = s.out := rfl
@[simp] theorem State.modCore_time (s : State) (k : Nat) (f : Core → Core) : (s.modCore k f).time = s.time := rfl
@[simp] theorem State.modCore_cycles (s : State) (k : Nat) (f : Core → Core) : (s.modCore k f).cycles = s.cycles := rfl
@[simp] theorem State.modCore_cur (s : State) (k : Nat) (f : Core → Core) : (s.modCore k f).cur = s.cur := rfl
@[simp] theorem State.modCore_mark (s : State) (k : Nat) (f : Core → Core) : (s.modCore k f).mark = s.mark := rfl
@[simp] theorem State.modCore_issue (s : State) (k : Nat) (f : Core → Core) : (s.modCore k f).issue = s.issue := rfl
@[simp] theorem State.modCore_inputs (s : State) (k : Nat) (f : Core → Core) : (s.modCore k f).inputs = s.inputs := rfl
@[simp] theorem State.modCore_tick (s : State) (k : Nat) (f : Core → Core) : (s.modCore k f).tick = s.tick := rfl
@[simp] theorem State.modCore_seq (s : State) (k : Nat) (f : Core → Core) : (s.modCore k f).seq = s.seq := rfl

/-! modColumn. -/

@[simp] theorem State.modColumn_mem (s : State) (k : Nat) (f : Column → Column) : (s.modColumn k f).mem = s.mem := rfl
@[simp] theorem State.modColumn_poison (s : State) (k : Nat) (f : Column → Column) : (s.modColumn k f).poison = s.poison := rfl
@[simp] theorem State.modColumn_ctxs (s : State) (k : Nat) (f : Column → Column) : (s.modColumn k f).ctxs = s.ctxs := rfl
@[simp] theorem State.modColumn_cores (s : State) (k : Nat) (f : Column → Column) : (s.modColumn k f).cores = s.cores := rfl
@[simp] theorem State.modColumn_banks (s : State) (k : Nat) (f : Column → Column) : (s.modColumn k f).banks = s.banks := rfl
@[simp] theorem State.modColumn_cubes (s : State) (k : Nat) (f : Column → Column) : (s.modColumn k f).cubes = s.cubes := rfl
@[simp] theorem State.modColumn_regions (s : State) (k : Nat) (f : Column → Column) : (s.modColumn k f).regions = s.regions := rfl
@[simp] theorem State.modColumn_loads (s : State) (k : Nat) (f : Column → Column) : (s.modColumn k f).loads = s.loads := rfl
@[simp] theorem State.modColumn_stores (s : State) (k : Nat) (f : Column → Column) : (s.modColumn k f).stores = s.stores := rfl
@[simp] theorem State.modColumn_ops (s : State) (k : Nat) (f : Column → Column) : (s.modColumn k f).ops = s.ops := rfl
@[simp] theorem State.modColumn_unfilled (s : State) (k : Nat) (f : Column → Column) : (s.modColumn k f).unfilled = s.unfilled := rfl
@[simp] theorem State.modColumn_colls (s : State) (k : Nat) (f : Column → Column) : (s.modColumn k f).colls = s.colls := rfl
@[simp] theorem State.modColumn_launches (s : State) (k : Nat) (f : Column → Column) : (s.modColumn k f).launches = s.launches := rfl
@[simp] theorem State.modColumn_waiting (s : State) (k : Nat) (f : Column → Column) : (s.modColumn k f).waiting = s.waiting := rfl
@[simp] theorem State.modColumn_saved (s : State) (k : Nat) (f : Column → Column) : (s.modColumn k f).saved = s.saved := rfl
@[simp] theorem State.modColumn_heldLaunches (s : State) (k : Nat) (f : Column → Column) : (s.modColumn k f).heldLaunches = s.heldLaunches := rfl
@[simp] theorem State.modColumn_queues (s : State) (k : Nat) (f : Column → Column) : (s.modColumn k f).queues = s.queues := rfl
@[simp] theorem State.modColumn_doorbells (s : State) (k : Nat) (f : Column → Column) : (s.modColumn k f).doorbells = s.doorbells := rfl
@[simp] theorem State.modColumn_pubs (s : State) (k : Nat) (f : Column → Column) : (s.modColumn k f).pubs = s.pubs := rfl
@[simp] theorem State.modColumn_pdl (s : State) (k : Nat) (f : Column → Column) : (s.modColumn k f).pdl = s.pdl := rfl
@[simp] theorem State.modColumn_comThr (s : State) (k : Nat) (f : Column → Column) : (s.modColumn k f).comThr = s.comThr := rfl
@[simp] theorem State.modColumn_intervals (s : State) (k : Nat) (f : Column → Column) : (s.modColumn k f).intervals = s.intervals := rfl
@[simp] theorem State.modColumn_raceShadow (s : State) (k : Nat) (f : Column → Column) : (s.modColumn k f).raceShadow = s.raceShadow := rfl
@[simp] theorem State.modColumn_raceLogs (s : State) (k : Nat) (f : Column → Column) : (s.modColumn k f).raceLogs = s.raceLogs := rfl
@[simp] theorem State.modColumn_gaugeScopes (s : State) (k : Nat) (f : Column → Column) : (s.modColumn k f).gaugeScopes = s.gaugeScopes := rfl
@[simp] theorem State.modColumn_retries (s : State) (k : Nat) (f : Column → Column) : (s.modColumn k f).retries = s.retries := rfl
@[simp] theorem State.modColumn_fabric (s : State) (k : Nat) (f : Column → Column) : (s.modColumn k f).fabric = s.fabric := rfl
@[simp] theorem State.modColumn_telBase (s : State) (k : Nat) (f : Column → Column) : (s.modColumn k f).telBase = s.telBase := rfl
@[simp] theorem State.modColumn_telSize (s : State) (k : Nat) (f : Column → Column) : (s.modColumn k f).telSize = s.telSize := rfl
@[simp] theorem State.modColumn_telWidx (s : State) (k : Nat) (f : Column → Column) : (s.modColumn k f).telWidx = s.telWidx := rfl
@[simp] theorem State.modColumn_telRidx (s : State) (k : Nat) (f : Column → Column) : (s.modColumn k f).telRidx = s.telRidx := rfl
@[simp] theorem State.modColumn_telLost (s : State) (k : Nat) (f : Column → Column) : (s.modColumn k f).telLost = s.telLost := rfl
@[simp] theorem State.modColumn_telAt (s : State) (k : Nat) (f : Column → Column) : (s.modColumn k f).telAt = s.telAt := rfl
@[simp] theorem State.modColumn_telAggAt (s : State) (k : Nat) (f : Column → Column) : (s.modColumn k f).telAggAt = s.telAggAt := rfl
@[simp] theorem State.modColumn_fcastAt (s : State) (k : Nat) (f : Column → Column) : (s.modColumn k f).fcastAt = s.fcastAt := rfl
@[simp] theorem State.modColumn_windowAt (s : State) (k : Nat) (f : Column → Column) : (s.modColumn k f).windowAt = s.windowAt := rfl
@[simp] theorem State.modColumn_rontal (s : State) (k : Nat) (f : Column → Column) : (s.modColumn k f).rontal = s.rontal := rfl
@[simp] theorem State.modColumn_part (s : State) (k : Nat) (f : Column → Column) : (s.modColumn k f).part = s.part := rfl
@[simp] theorem State.modColumn_out (s : State) (k : Nat) (f : Column → Column) : (s.modColumn k f).out = s.out := rfl
@[simp] theorem State.modColumn_time (s : State) (k : Nat) (f : Column → Column) : (s.modColumn k f).time = s.time := rfl
@[simp] theorem State.modColumn_cycles (s : State) (k : Nat) (f : Column → Column) : (s.modColumn k f).cycles = s.cycles := rfl
@[simp] theorem State.modColumn_cur (s : State) (k : Nat) (f : Column → Column) : (s.modColumn k f).cur = s.cur := rfl
@[simp] theorem State.modColumn_mark (s : State) (k : Nat) (f : Column → Column) : (s.modColumn k f).mark = s.mark := rfl
@[simp] theorem State.modColumn_issue (s : State) (k : Nat) (f : Column → Column) : (s.modColumn k f).issue = s.issue := rfl
@[simp] theorem State.modColumn_inputs (s : State) (k : Nat) (f : Column → Column) : (s.modColumn k f).inputs = s.inputs := rfl
@[simp] theorem State.modColumn_tick (s : State) (k : Nat) (f : Column → Column) : (s.modColumn k f).tick = s.tick := rfl
@[simp] theorem State.modColumn_seq (s : State) (k : Nat) (f : Column → Column) : (s.modColumn k f).seq = s.seq := rfl

/-! modCube. -/

@[simp] theorem State.modCube_mem (s : State) (q : Nat) (f : Cube → Cube) : (s.modCube q f).mem = s.mem := rfl
@[simp] theorem State.modCube_poison (s : State) (q : Nat) (f : Cube → Cube) : (s.modCube q f).poison = s.poison := rfl
@[simp] theorem State.modCube_ctxs (s : State) (q : Nat) (f : Cube → Cube) : (s.modCube q f).ctxs = s.ctxs := rfl
@[simp] theorem State.modCube_cores (s : State) (q : Nat) (f : Cube → Cube) : (s.modCube q f).cores = s.cores := rfl
@[simp] theorem State.modCube_banks (s : State) (q : Nat) (f : Cube → Cube) : (s.modCube q f).banks = s.banks := rfl
@[simp] theorem State.modCube_columns (s : State) (q : Nat) (f : Cube → Cube) : (s.modCube q f).columns = s.columns := rfl
@[simp] theorem State.modCube_regions (s : State) (q : Nat) (f : Cube → Cube) : (s.modCube q f).regions = s.regions := rfl
@[simp] theorem State.modCube_loads (s : State) (q : Nat) (f : Cube → Cube) : (s.modCube q f).loads = s.loads := rfl
@[simp] theorem State.modCube_stores (s : State) (q : Nat) (f : Cube → Cube) : (s.modCube q f).stores = s.stores := rfl
@[simp] theorem State.modCube_ops (s : State) (q : Nat) (f : Cube → Cube) : (s.modCube q f).ops = s.ops := rfl
@[simp] theorem State.modCube_unfilled (s : State) (q : Nat) (f : Cube → Cube) : (s.modCube q f).unfilled = s.unfilled := rfl
@[simp] theorem State.modCube_colls (s : State) (q : Nat) (f : Cube → Cube) : (s.modCube q f).colls = s.colls := rfl
@[simp] theorem State.modCube_launches (s : State) (q : Nat) (f : Cube → Cube) : (s.modCube q f).launches = s.launches := rfl
@[simp] theorem State.modCube_waiting (s : State) (q : Nat) (f : Cube → Cube) : (s.modCube q f).waiting = s.waiting := rfl
@[simp] theorem State.modCube_saved (s : State) (q : Nat) (f : Cube → Cube) : (s.modCube q f).saved = s.saved := rfl
@[simp] theorem State.modCube_heldLaunches (s : State) (q : Nat) (f : Cube → Cube) : (s.modCube q f).heldLaunches = s.heldLaunches := rfl
@[simp] theorem State.modCube_queues (s : State) (q : Nat) (f : Cube → Cube) : (s.modCube q f).queues = s.queues := rfl
@[simp] theorem State.modCube_doorbells (s : State) (q : Nat) (f : Cube → Cube) : (s.modCube q f).doorbells = s.doorbells := rfl
@[simp] theorem State.modCube_pubs (s : State) (q : Nat) (f : Cube → Cube) : (s.modCube q f).pubs = s.pubs := rfl
@[simp] theorem State.modCube_pdl (s : State) (q : Nat) (f : Cube → Cube) : (s.modCube q f).pdl = s.pdl := rfl
@[simp] theorem State.modCube_comThr (s : State) (q : Nat) (f : Cube → Cube) : (s.modCube q f).comThr = s.comThr := rfl
@[simp] theorem State.modCube_intervals (s : State) (q : Nat) (f : Cube → Cube) : (s.modCube q f).intervals = s.intervals := rfl
@[simp] theorem State.modCube_raceShadow (s : State) (q : Nat) (f : Cube → Cube) : (s.modCube q f).raceShadow = s.raceShadow := rfl
@[simp] theorem State.modCube_raceLogs (s : State) (q : Nat) (f : Cube → Cube) : (s.modCube q f).raceLogs = s.raceLogs := rfl
@[simp] theorem State.modCube_gaugeScopes (s : State) (q : Nat) (f : Cube → Cube) : (s.modCube q f).gaugeScopes = s.gaugeScopes := rfl
@[simp] theorem State.modCube_retries (s : State) (q : Nat) (f : Cube → Cube) : (s.modCube q f).retries = s.retries := rfl
@[simp] theorem State.modCube_fabric (s : State) (q : Nat) (f : Cube → Cube) : (s.modCube q f).fabric = s.fabric := rfl
@[simp] theorem State.modCube_telBase (s : State) (q : Nat) (f : Cube → Cube) : (s.modCube q f).telBase = s.telBase := rfl
@[simp] theorem State.modCube_telSize (s : State) (q : Nat) (f : Cube → Cube) : (s.modCube q f).telSize = s.telSize := rfl
@[simp] theorem State.modCube_telWidx (s : State) (q : Nat) (f : Cube → Cube) : (s.modCube q f).telWidx = s.telWidx := rfl
@[simp] theorem State.modCube_telRidx (s : State) (q : Nat) (f : Cube → Cube) : (s.modCube q f).telRidx = s.telRidx := rfl
@[simp] theorem State.modCube_telLost (s : State) (q : Nat) (f : Cube → Cube) : (s.modCube q f).telLost = s.telLost := rfl
@[simp] theorem State.modCube_telAt (s : State) (q : Nat) (f : Cube → Cube) : (s.modCube q f).telAt = s.telAt := rfl
@[simp] theorem State.modCube_telAggAt (s : State) (q : Nat) (f : Cube → Cube) : (s.modCube q f).telAggAt = s.telAggAt := rfl
@[simp] theorem State.modCube_fcastAt (s : State) (q : Nat) (f : Cube → Cube) : (s.modCube q f).fcastAt = s.fcastAt := rfl
@[simp] theorem State.modCube_windowAt (s : State) (q : Nat) (f : Cube → Cube) : (s.modCube q f).windowAt = s.windowAt := rfl
@[simp] theorem State.modCube_rontal (s : State) (q : Nat) (f : Cube → Cube) : (s.modCube q f).rontal = s.rontal := rfl
@[simp] theorem State.modCube_part (s : State) (q : Nat) (f : Cube → Cube) : (s.modCube q f).part = s.part := rfl
@[simp] theorem State.modCube_out (s : State) (q : Nat) (f : Cube → Cube) : (s.modCube q f).out = s.out := rfl
@[simp] theorem State.modCube_time (s : State) (q : Nat) (f : Cube → Cube) : (s.modCube q f).time = s.time := rfl
@[simp] theorem State.modCube_cycles (s : State) (q : Nat) (f : Cube → Cube) : (s.modCube q f).cycles = s.cycles := rfl
@[simp] theorem State.modCube_cur (s : State) (q : Nat) (f : Cube → Cube) : (s.modCube q f).cur = s.cur := rfl
@[simp] theorem State.modCube_mark (s : State) (q : Nat) (f : Cube → Cube) : (s.modCube q f).mark = s.mark := rfl
@[simp] theorem State.modCube_issue (s : State) (q : Nat) (f : Cube → Cube) : (s.modCube q f).issue = s.issue := rfl
@[simp] theorem State.modCube_inputs (s : State) (q : Nat) (f : Cube → Cube) : (s.modCube q f).inputs = s.inputs := rfl
@[simp] theorem State.modCube_tick (s : State) (q : Nat) (f : Cube → Cube) : (s.modCube q f).tick = s.tick := rfl
@[simp] theorem State.modCube_seq (s : State) (q : Nat) (f : Cube → Cube) : (s.modCube q f).seq = s.seq := rfl

/-! modRegion. -/

@[simp] theorem State.modRegion_mem (s : State) (r : Nat) (f : Region → Region) : (s.modRegion r f).mem = s.mem := rfl
@[simp] theorem State.modRegion_poison (s : State) (r : Nat) (f : Region → Region) : (s.modRegion r f).poison = s.poison := rfl
@[simp] theorem State.modRegion_ctxs (s : State) (r : Nat) (f : Region → Region) : (s.modRegion r f).ctxs = s.ctxs := rfl
@[simp] theorem State.modRegion_cores (s : State) (r : Nat) (f : Region → Region) : (s.modRegion r f).cores = s.cores := rfl
@[simp] theorem State.modRegion_banks (s : State) (r : Nat) (f : Region → Region) : (s.modRegion r f).banks = s.banks := rfl
@[simp] theorem State.modRegion_columns (s : State) (r : Nat) (f : Region → Region) : (s.modRegion r f).columns = s.columns := rfl
@[simp] theorem State.modRegion_cubes (s : State) (r : Nat) (f : Region → Region) : (s.modRegion r f).cubes = s.cubes := rfl
@[simp] theorem State.modRegion_loads (s : State) (r : Nat) (f : Region → Region) : (s.modRegion r f).loads = s.loads := rfl
@[simp] theorem State.modRegion_stores (s : State) (r : Nat) (f : Region → Region) : (s.modRegion r f).stores = s.stores := rfl
@[simp] theorem State.modRegion_ops (s : State) (r : Nat) (f : Region → Region) : (s.modRegion r f).ops = s.ops := rfl
@[simp] theorem State.modRegion_unfilled (s : State) (r : Nat) (f : Region → Region) : (s.modRegion r f).unfilled = s.unfilled := rfl
@[simp] theorem State.modRegion_colls (s : State) (r : Nat) (f : Region → Region) : (s.modRegion r f).colls = s.colls := rfl
@[simp] theorem State.modRegion_launches (s : State) (r : Nat) (f : Region → Region) : (s.modRegion r f).launches = s.launches := rfl
@[simp] theorem State.modRegion_waiting (s : State) (r : Nat) (f : Region → Region) : (s.modRegion r f).waiting = s.waiting := rfl
@[simp] theorem State.modRegion_saved (s : State) (r : Nat) (f : Region → Region) : (s.modRegion r f).saved = s.saved := rfl
@[simp] theorem State.modRegion_heldLaunches (s : State) (r : Nat) (f : Region → Region) : (s.modRegion r f).heldLaunches = s.heldLaunches := rfl
@[simp] theorem State.modRegion_queues (s : State) (r : Nat) (f : Region → Region) : (s.modRegion r f).queues = s.queues := rfl
@[simp] theorem State.modRegion_doorbells (s : State) (r : Nat) (f : Region → Region) : (s.modRegion r f).doorbells = s.doorbells := rfl
@[simp] theorem State.modRegion_pubs (s : State) (r : Nat) (f : Region → Region) : (s.modRegion r f).pubs = s.pubs := rfl
@[simp] theorem State.modRegion_pdl (s : State) (r : Nat) (f : Region → Region) : (s.modRegion r f).pdl = s.pdl := rfl
@[simp] theorem State.modRegion_comThr (s : State) (r : Nat) (f : Region → Region) : (s.modRegion r f).comThr = s.comThr := rfl
@[simp] theorem State.modRegion_intervals (s : State) (r : Nat) (f : Region → Region) : (s.modRegion r f).intervals = s.intervals := rfl
@[simp] theorem State.modRegion_raceShadow (s : State) (r : Nat) (f : Region → Region) : (s.modRegion r f).raceShadow = s.raceShadow := rfl
@[simp] theorem State.modRegion_raceLogs (s : State) (r : Nat) (f : Region → Region) : (s.modRegion r f).raceLogs = s.raceLogs := rfl
@[simp] theorem State.modRegion_gaugeScopes (s : State) (r : Nat) (f : Region → Region) : (s.modRegion r f).gaugeScopes = s.gaugeScopes := rfl
@[simp] theorem State.modRegion_retries (s : State) (r : Nat) (f : Region → Region) : (s.modRegion r f).retries = s.retries := rfl
@[simp] theorem State.modRegion_fabric (s : State) (r : Nat) (f : Region → Region) : (s.modRegion r f).fabric = s.fabric := rfl
@[simp] theorem State.modRegion_telBase (s : State) (r : Nat) (f : Region → Region) : (s.modRegion r f).telBase = s.telBase := rfl
@[simp] theorem State.modRegion_telSize (s : State) (r : Nat) (f : Region → Region) : (s.modRegion r f).telSize = s.telSize := rfl
@[simp] theorem State.modRegion_telWidx (s : State) (r : Nat) (f : Region → Region) : (s.modRegion r f).telWidx = s.telWidx := rfl
@[simp] theorem State.modRegion_telRidx (s : State) (r : Nat) (f : Region → Region) : (s.modRegion r f).telRidx = s.telRidx := rfl
@[simp] theorem State.modRegion_telLost (s : State) (r : Nat) (f : Region → Region) : (s.modRegion r f).telLost = s.telLost := rfl
@[simp] theorem State.modRegion_telAt (s : State) (r : Nat) (f : Region → Region) : (s.modRegion r f).telAt = s.telAt := rfl
@[simp] theorem State.modRegion_telAggAt (s : State) (r : Nat) (f : Region → Region) : (s.modRegion r f).telAggAt = s.telAggAt := rfl
@[simp] theorem State.modRegion_fcastAt (s : State) (r : Nat) (f : Region → Region) : (s.modRegion r f).fcastAt = s.fcastAt := rfl
@[simp] theorem State.modRegion_windowAt (s : State) (r : Nat) (f : Region → Region) : (s.modRegion r f).windowAt = s.windowAt := rfl
@[simp] theorem State.modRegion_rontal (s : State) (r : Nat) (f : Region → Region) : (s.modRegion r f).rontal = s.rontal := rfl
@[simp] theorem State.modRegion_part (s : State) (r : Nat) (f : Region → Region) : (s.modRegion r f).part = s.part := rfl
@[simp] theorem State.modRegion_out (s : State) (r : Nat) (f : Region → Region) : (s.modRegion r f).out = s.out := rfl
@[simp] theorem State.modRegion_time (s : State) (r : Nat) (f : Region → Region) : (s.modRegion r f).time = s.time := rfl
@[simp] theorem State.modRegion_cycles (s : State) (r : Nat) (f : Region → Region) : (s.modRegion r f).cycles = s.cycles := rfl
@[simp] theorem State.modRegion_cur (s : State) (r : Nat) (f : Region → Region) : (s.modRegion r f).cur = s.cur := rfl
@[simp] theorem State.modRegion_mark (s : State) (r : Nat) (f : Region → Region) : (s.modRegion r f).mark = s.mark := rfl
@[simp] theorem State.modRegion_issue (s : State) (r : Nat) (f : Region → Region) : (s.modRegion r f).issue = s.issue := rfl
@[simp] theorem State.modRegion_inputs (s : State) (r : Nat) (f : Region → Region) : (s.modRegion r f).inputs = s.inputs := rfl
@[simp] theorem State.modRegion_tick (s : State) (r : Nat) (f : Region → Region) : (s.modRegion r f).tick = s.tick := rfl
@[simp] theorem State.modRegion_seq (s : State) (r : Nat) (f : Region → Region) : (s.modRegion r f).seq = s.seq := rfl

/-! modLaunch. -/

@[simp] theorem State.modLaunch_mem (s : State) (id : Nat) (f : Launch → Launch) : (s.modLaunch id f).mem = s.mem := rfl
@[simp] theorem State.modLaunch_poison (s : State) (id : Nat) (f : Launch → Launch) : (s.modLaunch id f).poison = s.poison := rfl
@[simp] theorem State.modLaunch_ctxs (s : State) (id : Nat) (f : Launch → Launch) : (s.modLaunch id f).ctxs = s.ctxs := rfl
@[simp] theorem State.modLaunch_cores (s : State) (id : Nat) (f : Launch → Launch) : (s.modLaunch id f).cores = s.cores := rfl
@[simp] theorem State.modLaunch_banks (s : State) (id : Nat) (f : Launch → Launch) : (s.modLaunch id f).banks = s.banks := rfl
@[simp] theorem State.modLaunch_columns (s : State) (id : Nat) (f : Launch → Launch) : (s.modLaunch id f).columns = s.columns := rfl
@[simp] theorem State.modLaunch_cubes (s : State) (id : Nat) (f : Launch → Launch) : (s.modLaunch id f).cubes = s.cubes := rfl
@[simp] theorem State.modLaunch_regions (s : State) (id : Nat) (f : Launch → Launch) : (s.modLaunch id f).regions = s.regions := rfl
@[simp] theorem State.modLaunch_loads (s : State) (id : Nat) (f : Launch → Launch) : (s.modLaunch id f).loads = s.loads := rfl
@[simp] theorem State.modLaunch_stores (s : State) (id : Nat) (f : Launch → Launch) : (s.modLaunch id f).stores = s.stores := rfl
@[simp] theorem State.modLaunch_ops (s : State) (id : Nat) (f : Launch → Launch) : (s.modLaunch id f).ops = s.ops := rfl
@[simp] theorem State.modLaunch_unfilled (s : State) (id : Nat) (f : Launch → Launch) : (s.modLaunch id f).unfilled = s.unfilled := rfl
@[simp] theorem State.modLaunch_colls (s : State) (id : Nat) (f : Launch → Launch) : (s.modLaunch id f).colls = s.colls := rfl
@[simp] theorem State.modLaunch_waiting (s : State) (id : Nat) (f : Launch → Launch) : (s.modLaunch id f).waiting = s.waiting := rfl
@[simp] theorem State.modLaunch_saved (s : State) (id : Nat) (f : Launch → Launch) : (s.modLaunch id f).saved = s.saved := rfl
@[simp] theorem State.modLaunch_heldLaunches (s : State) (id : Nat) (f : Launch → Launch) : (s.modLaunch id f).heldLaunches = s.heldLaunches := rfl
@[simp] theorem State.modLaunch_queues (s : State) (id : Nat) (f : Launch → Launch) : (s.modLaunch id f).queues = s.queues := rfl
@[simp] theorem State.modLaunch_doorbells (s : State) (id : Nat) (f : Launch → Launch) : (s.modLaunch id f).doorbells = s.doorbells := rfl
@[simp] theorem State.modLaunch_pubs (s : State) (id : Nat) (f : Launch → Launch) : (s.modLaunch id f).pubs = s.pubs := rfl
@[simp] theorem State.modLaunch_pdl (s : State) (id : Nat) (f : Launch → Launch) : (s.modLaunch id f).pdl = s.pdl := rfl
@[simp] theorem State.modLaunch_comThr (s : State) (id : Nat) (f : Launch → Launch) : (s.modLaunch id f).comThr = s.comThr := rfl
@[simp] theorem State.modLaunch_intervals (s : State) (id : Nat) (f : Launch → Launch) : (s.modLaunch id f).intervals = s.intervals := rfl
@[simp] theorem State.modLaunch_raceShadow (s : State) (id : Nat) (f : Launch → Launch) : (s.modLaunch id f).raceShadow = s.raceShadow := rfl
@[simp] theorem State.modLaunch_raceLogs (s : State) (id : Nat) (f : Launch → Launch) : (s.modLaunch id f).raceLogs = s.raceLogs := rfl
@[simp] theorem State.modLaunch_gaugeScopes (s : State) (id : Nat) (f : Launch → Launch) : (s.modLaunch id f).gaugeScopes = s.gaugeScopes := rfl
@[simp] theorem State.modLaunch_retries (s : State) (id : Nat) (f : Launch → Launch) : (s.modLaunch id f).retries = s.retries := rfl
@[simp] theorem State.modLaunch_fabric (s : State) (id : Nat) (f : Launch → Launch) : (s.modLaunch id f).fabric = s.fabric := rfl
@[simp] theorem State.modLaunch_telBase (s : State) (id : Nat) (f : Launch → Launch) : (s.modLaunch id f).telBase = s.telBase := rfl
@[simp] theorem State.modLaunch_telSize (s : State) (id : Nat) (f : Launch → Launch) : (s.modLaunch id f).telSize = s.telSize := rfl
@[simp] theorem State.modLaunch_telWidx (s : State) (id : Nat) (f : Launch → Launch) : (s.modLaunch id f).telWidx = s.telWidx := rfl
@[simp] theorem State.modLaunch_telRidx (s : State) (id : Nat) (f : Launch → Launch) : (s.modLaunch id f).telRidx = s.telRidx := rfl
@[simp] theorem State.modLaunch_telLost (s : State) (id : Nat) (f : Launch → Launch) : (s.modLaunch id f).telLost = s.telLost := rfl
@[simp] theorem State.modLaunch_telAt (s : State) (id : Nat) (f : Launch → Launch) : (s.modLaunch id f).telAt = s.telAt := rfl
@[simp] theorem State.modLaunch_telAggAt (s : State) (id : Nat) (f : Launch → Launch) : (s.modLaunch id f).telAggAt = s.telAggAt := rfl
@[simp] theorem State.modLaunch_fcastAt (s : State) (id : Nat) (f : Launch → Launch) : (s.modLaunch id f).fcastAt = s.fcastAt := rfl
@[simp] theorem State.modLaunch_windowAt (s : State) (id : Nat) (f : Launch → Launch) : (s.modLaunch id f).windowAt = s.windowAt := rfl
@[simp] theorem State.modLaunch_rontal (s : State) (id : Nat) (f : Launch → Launch) : (s.modLaunch id f).rontal = s.rontal := rfl
@[simp] theorem State.modLaunch_part (s : State) (id : Nat) (f : Launch → Launch) : (s.modLaunch id f).part = s.part := rfl
@[simp] theorem State.modLaunch_out (s : State) (id : Nat) (f : Launch → Launch) : (s.modLaunch id f).out = s.out := rfl
@[simp] theorem State.modLaunch_time (s : State) (id : Nat) (f : Launch → Launch) : (s.modLaunch id f).time = s.time := rfl
@[simp] theorem State.modLaunch_cycles (s : State) (id : Nat) (f : Launch → Launch) : (s.modLaunch id f).cycles = s.cycles := rfl
@[simp] theorem State.modLaunch_cur (s : State) (id : Nat) (f : Launch → Launch) : (s.modLaunch id f).cur = s.cur := rfl
@[simp] theorem State.modLaunch_mark (s : State) (id : Nat) (f : Launch → Launch) : (s.modLaunch id f).mark = s.mark := rfl
@[simp] theorem State.modLaunch_issue (s : State) (id : Nat) (f : Launch → Launch) : (s.modLaunch id f).issue = s.issue := rfl
@[simp] theorem State.modLaunch_inputs (s : State) (id : Nat) (f : Launch → Launch) : (s.modLaunch id f).inputs = s.inputs := rfl
@[simp] theorem State.modLaunch_tick (s : State) (id : Nat) (f : Launch → Launch) : (s.modLaunch id f).tick = s.tick := rfl
@[simp] theorem State.modLaunch_seq (s : State) (id : Nat) (f : Launch → Launch) : (s.modLaunch id f).seq = s.seq := rfl

/-! emit. -/

@[simp] theorem State.emit_mem (s : State) (m : Outgoing) : (s.emit m).mem = s.mem := rfl
@[simp] theorem State.emit_poison (s : State) (m : Outgoing) : (s.emit m).poison = s.poison := rfl
@[simp] theorem State.emit_ctxs (s : State) (m : Outgoing) : (s.emit m).ctxs = s.ctxs := rfl
@[simp] theorem State.emit_cores (s : State) (m : Outgoing) : (s.emit m).cores = s.cores := rfl
@[simp] theorem State.emit_banks (s : State) (m : Outgoing) : (s.emit m).banks = s.banks := rfl
@[simp] theorem State.emit_columns (s : State) (m : Outgoing) : (s.emit m).columns = s.columns := rfl
@[simp] theorem State.emit_cubes (s : State) (m : Outgoing) : (s.emit m).cubes = s.cubes := rfl
@[simp] theorem State.emit_regions (s : State) (m : Outgoing) : (s.emit m).regions = s.regions := rfl
@[simp] theorem State.emit_loads (s : State) (m : Outgoing) : (s.emit m).loads = s.loads := rfl
@[simp] theorem State.emit_stores (s : State) (m : Outgoing) : (s.emit m).stores = s.stores := rfl
@[simp] theorem State.emit_ops (s : State) (m : Outgoing) : (s.emit m).ops = s.ops := rfl
@[simp] theorem State.emit_unfilled (s : State) (m : Outgoing) : (s.emit m).unfilled = s.unfilled := rfl
@[simp] theorem State.emit_colls (s : State) (m : Outgoing) : (s.emit m).colls = s.colls := rfl
@[simp] theorem State.emit_launches (s : State) (m : Outgoing) : (s.emit m).launches = s.launches := rfl
@[simp] theorem State.emit_waiting (s : State) (m : Outgoing) : (s.emit m).waiting = s.waiting := rfl
@[simp] theorem State.emit_saved (s : State) (m : Outgoing) : (s.emit m).saved = s.saved := rfl
@[simp] theorem State.emit_heldLaunches (s : State) (m : Outgoing) : (s.emit m).heldLaunches = s.heldLaunches := rfl
@[simp] theorem State.emit_queues (s : State) (m : Outgoing) : (s.emit m).queues = s.queues := rfl
@[simp] theorem State.emit_doorbells (s : State) (m : Outgoing) : (s.emit m).doorbells = s.doorbells := rfl
@[simp] theorem State.emit_pubs (s : State) (m : Outgoing) : (s.emit m).pubs = s.pubs := rfl
@[simp] theorem State.emit_pdl (s : State) (m : Outgoing) : (s.emit m).pdl = s.pdl := rfl
@[simp] theorem State.emit_comThr (s : State) (m : Outgoing) : (s.emit m).comThr = s.comThr := rfl
@[simp] theorem State.emit_intervals (s : State) (m : Outgoing) : (s.emit m).intervals = s.intervals := rfl
@[simp] theorem State.emit_raceShadow (s : State) (m : Outgoing) : (s.emit m).raceShadow = s.raceShadow := rfl
@[simp] theorem State.emit_raceLogs (s : State) (m : Outgoing) : (s.emit m).raceLogs = s.raceLogs := rfl
@[simp] theorem State.emit_gaugeScopes (s : State) (m : Outgoing) : (s.emit m).gaugeScopes = s.gaugeScopes := rfl
@[simp] theorem State.emit_retries (s : State) (m : Outgoing) : (s.emit m).retries = s.retries := rfl
@[simp] theorem State.emit_fabric (s : State) (m : Outgoing) : (s.emit m).fabric = s.fabric := rfl
@[simp] theorem State.emit_telBase (s : State) (m : Outgoing) : (s.emit m).telBase = s.telBase := rfl
@[simp] theorem State.emit_telSize (s : State) (m : Outgoing) : (s.emit m).telSize = s.telSize := rfl
@[simp] theorem State.emit_telWidx (s : State) (m : Outgoing) : (s.emit m).telWidx = s.telWidx := rfl
@[simp] theorem State.emit_telRidx (s : State) (m : Outgoing) : (s.emit m).telRidx = s.telRidx := rfl
@[simp] theorem State.emit_telLost (s : State) (m : Outgoing) : (s.emit m).telLost = s.telLost := rfl
@[simp] theorem State.emit_telAt (s : State) (m : Outgoing) : (s.emit m).telAt = s.telAt := rfl
@[simp] theorem State.emit_telAggAt (s : State) (m : Outgoing) : (s.emit m).telAggAt = s.telAggAt := rfl
@[simp] theorem State.emit_fcastAt (s : State) (m : Outgoing) : (s.emit m).fcastAt = s.fcastAt := rfl
@[simp] theorem State.emit_windowAt (s : State) (m : Outgoing) : (s.emit m).windowAt = s.windowAt := rfl
@[simp] theorem State.emit_rontal (s : State) (m : Outgoing) : (s.emit m).rontal = s.rontal := rfl
@[simp] theorem State.emit_part (s : State) (m : Outgoing) : (s.emit m).part = s.part := rfl
@[simp] theorem State.emit_time (s : State) (m : Outgoing) : (s.emit m).time = s.time := rfl
@[simp] theorem State.emit_cycles (s : State) (m : Outgoing) : (s.emit m).cycles = s.cycles := rfl
@[simp] theorem State.emit_cur (s : State) (m : Outgoing) : (s.emit m).cur = s.cur := rfl
@[simp] theorem State.emit_mark (s : State) (m : Outgoing) : (s.emit m).mark = s.mark := rfl
@[simp] theorem State.emit_issue (s : State) (m : Outgoing) : (s.emit m).issue = s.issue := rfl
@[simp] theorem State.emit_inputs (s : State) (m : Outgoing) : (s.emit m).inputs = s.inputs := rfl
@[simp] theorem State.emit_tick (s : State) (m : Outgoing) : (s.emit m).tick = s.tick := rfl
@[simp] theorem State.emit_seq (s : State) (m : Outgoing) : (s.emit m).seq = s.seq := rfl

/-! store. -/

@[simp] theorem State.store_ctxs (s : State) (loc n v : Nat) : (s.store loc n v).ctxs = s.ctxs := rfl
@[simp] theorem State.store_cores (s : State) (loc n v : Nat) : (s.store loc n v).cores = s.cores := rfl
@[simp] theorem State.store_banks (s : State) (loc n v : Nat) : (s.store loc n v).banks = s.banks := rfl
@[simp] theorem State.store_columns (s : State) (loc n v : Nat) : (s.store loc n v).columns = s.columns := rfl
@[simp] theorem State.store_cubes (s : State) (loc n v : Nat) : (s.store loc n v).cubes = s.cubes := rfl
@[simp] theorem State.store_regions (s : State) (loc n v : Nat) : (s.store loc n v).regions = s.regions := rfl
@[simp] theorem State.store_loads (s : State) (loc n v : Nat) : (s.store loc n v).loads = s.loads := rfl
@[simp] theorem State.store_stores (s : State) (loc n v : Nat) : (s.store loc n v).stores = s.stores := rfl
@[simp] theorem State.store_ops (s : State) (loc n v : Nat) : (s.store loc n v).ops = s.ops := rfl
@[simp] theorem State.store_unfilled (s : State) (loc n v : Nat) : (s.store loc n v).unfilled = s.unfilled := rfl
@[simp] theorem State.store_colls (s : State) (loc n v : Nat) : (s.store loc n v).colls = s.colls := rfl
@[simp] theorem State.store_launches (s : State) (loc n v : Nat) : (s.store loc n v).launches = s.launches := rfl
@[simp] theorem State.store_waiting (s : State) (loc n v : Nat) : (s.store loc n v).waiting = s.waiting := rfl
@[simp] theorem State.store_saved (s : State) (loc n v : Nat) : (s.store loc n v).saved = s.saved := rfl
@[simp] theorem State.store_heldLaunches (s : State) (loc n v : Nat) : (s.store loc n v).heldLaunches = s.heldLaunches := rfl
@[simp] theorem State.store_queues (s : State) (loc n v : Nat) : (s.store loc n v).queues = s.queues := rfl
@[simp] theorem State.store_doorbells (s : State) (loc n v : Nat) : (s.store loc n v).doorbells = s.doorbells := rfl
@[simp] theorem State.store_pubs (s : State) (loc n v : Nat) : (s.store loc n v).pubs = s.pubs := rfl
@[simp] theorem State.store_pdl (s : State) (loc n v : Nat) : (s.store loc n v).pdl = s.pdl := rfl
@[simp] theorem State.store_comThr (s : State) (loc n v : Nat) : (s.store loc n v).comThr = s.comThr := rfl
@[simp] theorem State.store_intervals (s : State) (loc n v : Nat) : (s.store loc n v).intervals = s.intervals := rfl
@[simp] theorem State.store_raceShadow (s : State) (loc n v : Nat) : (s.store loc n v).raceShadow = s.raceShadow := rfl
@[simp] theorem State.store_raceLogs (s : State) (loc n v : Nat) : (s.store loc n v).raceLogs = s.raceLogs := rfl
@[simp] theorem State.store_gaugeScopes (s : State) (loc n v : Nat) : (s.store loc n v).gaugeScopes = s.gaugeScopes := rfl
@[simp] theorem State.store_retries (s : State) (loc n v : Nat) : (s.store loc n v).retries = s.retries := rfl
@[simp] theorem State.store_fabric (s : State) (loc n v : Nat) : (s.store loc n v).fabric = s.fabric := rfl
@[simp] theorem State.store_telBase (s : State) (loc n v : Nat) : (s.store loc n v).telBase = s.telBase := rfl
@[simp] theorem State.store_telSize (s : State) (loc n v : Nat) : (s.store loc n v).telSize = s.telSize := rfl
@[simp] theorem State.store_telWidx (s : State) (loc n v : Nat) : (s.store loc n v).telWidx = s.telWidx := rfl
@[simp] theorem State.store_telRidx (s : State) (loc n v : Nat) : (s.store loc n v).telRidx = s.telRidx := rfl
@[simp] theorem State.store_telLost (s : State) (loc n v : Nat) : (s.store loc n v).telLost = s.telLost := rfl
@[simp] theorem State.store_telAt (s : State) (loc n v : Nat) : (s.store loc n v).telAt = s.telAt := rfl
@[simp] theorem State.store_telAggAt (s : State) (loc n v : Nat) : (s.store loc n v).telAggAt = s.telAggAt := rfl
@[simp] theorem State.store_fcastAt (s : State) (loc n v : Nat) : (s.store loc n v).fcastAt = s.fcastAt := rfl
@[simp] theorem State.store_windowAt (s : State) (loc n v : Nat) : (s.store loc n v).windowAt = s.windowAt := rfl
@[simp] theorem State.store_rontal (s : State) (loc n v : Nat) : (s.store loc n v).rontal = s.rontal := rfl
@[simp] theorem State.store_part (s : State) (loc n v : Nat) : (s.store loc n v).part = s.part := rfl
@[simp] theorem State.store_out (s : State) (loc n v : Nat) : (s.store loc n v).out = s.out := rfl
@[simp] theorem State.store_time (s : State) (loc n v : Nat) : (s.store loc n v).time = s.time := rfl
@[simp] theorem State.store_cycles (s : State) (loc n v : Nat) : (s.store loc n v).cycles = s.cycles := rfl
@[simp] theorem State.store_cur (s : State) (loc n v : Nat) : (s.store loc n v).cur = s.cur := rfl
@[simp] theorem State.store_mark (s : State) (loc n v : Nat) : (s.store loc n v).mark = s.mark := rfl
@[simp] theorem State.store_issue (s : State) (loc n v : Nat) : (s.store loc n v).issue = s.issue := rfl
@[simp] theorem State.store_inputs (s : State) (loc n v : Nat) : (s.store loc n v).inputs = s.inputs := rfl
@[simp] theorem State.store_tick (s : State) (loc n v : Nat) : (s.store loc n v).tick = s.tick := rfl
@[simp] theorem State.store_seq (s : State) (loc n v : Nat) : (s.store loc n v).seq = s.seq := rfl

/-! put. -/

@[simp] theorem State.put_mem (s : State) (r : BitVec 5) (v : Word) (lat : Nat) : (s.put r v lat).mem = s.mem := rfl
@[simp] theorem State.put_poison (s : State) (r : BitVec 5) (v : Word) (lat : Nat) : (s.put r v lat).poison = s.poison := rfl
@[simp] theorem State.put_cores (s : State) (r : BitVec 5) (v : Word) (lat : Nat) : (s.put r v lat).cores = s.cores := rfl
@[simp] theorem State.put_banks (s : State) (r : BitVec 5) (v : Word) (lat : Nat) : (s.put r v lat).banks = s.banks := rfl
@[simp] theorem State.put_columns (s : State) (r : BitVec 5) (v : Word) (lat : Nat) : (s.put r v lat).columns = s.columns := rfl
@[simp] theorem State.put_cubes (s : State) (r : BitVec 5) (v : Word) (lat : Nat) : (s.put r v lat).cubes = s.cubes := rfl
@[simp] theorem State.put_regions (s : State) (r : BitVec 5) (v : Word) (lat : Nat) : (s.put r v lat).regions = s.regions := rfl
@[simp] theorem State.put_loads (s : State) (r : BitVec 5) (v : Word) (lat : Nat) : (s.put r v lat).loads = s.loads := rfl
@[simp] theorem State.put_stores (s : State) (r : BitVec 5) (v : Word) (lat : Nat) : (s.put r v lat).stores = s.stores := rfl
@[simp] theorem State.put_ops (s : State) (r : BitVec 5) (v : Word) (lat : Nat) : (s.put r v lat).ops = s.ops := rfl
@[simp] theorem State.put_unfilled (s : State) (r : BitVec 5) (v : Word) (lat : Nat) : (s.put r v lat).unfilled = s.unfilled := rfl
@[simp] theorem State.put_colls (s : State) (r : BitVec 5) (v : Word) (lat : Nat) : (s.put r v lat).colls = s.colls := rfl
@[simp] theorem State.put_launches (s : State) (r : BitVec 5) (v : Word) (lat : Nat) : (s.put r v lat).launches = s.launches := rfl
@[simp] theorem State.put_waiting (s : State) (r : BitVec 5) (v : Word) (lat : Nat) : (s.put r v lat).waiting = s.waiting := rfl
@[simp] theorem State.put_saved (s : State) (r : BitVec 5) (v : Word) (lat : Nat) : (s.put r v lat).saved = s.saved := rfl
@[simp] theorem State.put_heldLaunches (s : State) (r : BitVec 5) (v : Word) (lat : Nat) : (s.put r v lat).heldLaunches = s.heldLaunches := rfl
@[simp] theorem State.put_queues (s : State) (r : BitVec 5) (v : Word) (lat : Nat) : (s.put r v lat).queues = s.queues := rfl
@[simp] theorem State.put_doorbells (s : State) (r : BitVec 5) (v : Word) (lat : Nat) : (s.put r v lat).doorbells = s.doorbells := rfl
@[simp] theorem State.put_pubs (s : State) (r : BitVec 5) (v : Word) (lat : Nat) : (s.put r v lat).pubs = s.pubs := rfl
@[simp] theorem State.put_pdl (s : State) (r : BitVec 5) (v : Word) (lat : Nat) : (s.put r v lat).pdl = s.pdl := rfl
@[simp] theorem State.put_comThr (s : State) (r : BitVec 5) (v : Word) (lat : Nat) : (s.put r v lat).comThr = s.comThr := rfl
@[simp] theorem State.put_intervals (s : State) (r : BitVec 5) (v : Word) (lat : Nat) : (s.put r v lat).intervals = s.intervals := rfl
@[simp] theorem State.put_raceShadow (s : State) (r : BitVec 5) (v : Word) (lat : Nat) : (s.put r v lat).raceShadow = s.raceShadow := rfl
@[simp] theorem State.put_raceLogs (s : State) (r : BitVec 5) (v : Word) (lat : Nat) : (s.put r v lat).raceLogs = s.raceLogs := rfl
@[simp] theorem State.put_gaugeScopes (s : State) (r : BitVec 5) (v : Word) (lat : Nat) : (s.put r v lat).gaugeScopes = s.gaugeScopes := rfl
@[simp] theorem State.put_retries (s : State) (r : BitVec 5) (v : Word) (lat : Nat) : (s.put r v lat).retries = s.retries := rfl
@[simp] theorem State.put_fabric (s : State) (r : BitVec 5) (v : Word) (lat : Nat) : (s.put r v lat).fabric = s.fabric := rfl
@[simp] theorem State.put_telBase (s : State) (r : BitVec 5) (v : Word) (lat : Nat) : (s.put r v lat).telBase = s.telBase := rfl
@[simp] theorem State.put_telSize (s : State) (r : BitVec 5) (v : Word) (lat : Nat) : (s.put r v lat).telSize = s.telSize := rfl
@[simp] theorem State.put_telWidx (s : State) (r : BitVec 5) (v : Word) (lat : Nat) : (s.put r v lat).telWidx = s.telWidx := rfl
@[simp] theorem State.put_telRidx (s : State) (r : BitVec 5) (v : Word) (lat : Nat) : (s.put r v lat).telRidx = s.telRidx := rfl
@[simp] theorem State.put_telLost (s : State) (r : BitVec 5) (v : Word) (lat : Nat) : (s.put r v lat).telLost = s.telLost := rfl
@[simp] theorem State.put_telAt (s : State) (r : BitVec 5) (v : Word) (lat : Nat) : (s.put r v lat).telAt = s.telAt := rfl
@[simp] theorem State.put_telAggAt (s : State) (r : BitVec 5) (v : Word) (lat : Nat) : (s.put r v lat).telAggAt = s.telAggAt := rfl
@[simp] theorem State.put_fcastAt (s : State) (r : BitVec 5) (v : Word) (lat : Nat) : (s.put r v lat).fcastAt = s.fcastAt := rfl
@[simp] theorem State.put_windowAt (s : State) (r : BitVec 5) (v : Word) (lat : Nat) : (s.put r v lat).windowAt = s.windowAt := rfl
@[simp] theorem State.put_rontal (s : State) (r : BitVec 5) (v : Word) (lat : Nat) : (s.put r v lat).rontal = s.rontal := rfl
@[simp] theorem State.put_part (s : State) (r : BitVec 5) (v : Word) (lat : Nat) : (s.put r v lat).part = s.part := rfl
@[simp] theorem State.put_out (s : State) (r : BitVec 5) (v : Word) (lat : Nat) : (s.put r v lat).out = s.out := rfl
@[simp] theorem State.put_time (s : State) (r : BitVec 5) (v : Word) (lat : Nat) : (s.put r v lat).time = s.time := rfl
@[simp] theorem State.put_cycles (s : State) (r : BitVec 5) (v : Word) (lat : Nat) : (s.put r v lat).cycles = s.cycles := rfl
@[simp] theorem State.put_cur (s : State) (r : BitVec 5) (v : Word) (lat : Nat) : (s.put r v lat).cur = s.cur := rfl
@[simp] theorem State.put_mark (s : State) (r : BitVec 5) (v : Word) (lat : Nat) : (s.put r v lat).mark = s.mark := rfl
@[simp] theorem State.put_issue (s : State) (r : BitVec 5) (v : Word) (lat : Nat) : (s.put r v lat).issue = s.issue := rfl
@[simp] theorem State.put_inputs (s : State) (r : BitVec 5) (v : Word) (lat : Nat) : (s.put r v lat).inputs = s.inputs := rfl
@[simp] theorem State.put_tick (s : State) (r : BitVec 5) (v : Word) (lat : Nat) : (s.put r v lat).tick = s.tick := rfl
@[simp] theorem State.put_seq (s : State) (r : BitVec 5) (v : Word) (lat : Nat) : (s.put r v lat).seq = s.seq := rfl

/-! putHandle. -/

@[simp] theorem State.putHandle_mem (s : State) (r : BitVec 5) (v : Handle) : (s.putHandle r v).mem = s.mem := rfl
@[simp] theorem State.putHandle_poison (s : State) (r : BitVec 5) (v : Handle) : (s.putHandle r v).poison = s.poison := rfl
@[simp] theorem State.putHandle_cores (s : State) (r : BitVec 5) (v : Handle) : (s.putHandle r v).cores = s.cores := rfl
@[simp] theorem State.putHandle_banks (s : State) (r : BitVec 5) (v : Handle) : (s.putHandle r v).banks = s.banks := rfl
@[simp] theorem State.putHandle_columns (s : State) (r : BitVec 5) (v : Handle) : (s.putHandle r v).columns = s.columns := rfl
@[simp] theorem State.putHandle_cubes (s : State) (r : BitVec 5) (v : Handle) : (s.putHandle r v).cubes = s.cubes := rfl
@[simp] theorem State.putHandle_regions (s : State) (r : BitVec 5) (v : Handle) : (s.putHandle r v).regions = s.regions := rfl
@[simp] theorem State.putHandle_loads (s : State) (r : BitVec 5) (v : Handle) : (s.putHandle r v).loads = s.loads := rfl
@[simp] theorem State.putHandle_stores (s : State) (r : BitVec 5) (v : Handle) : (s.putHandle r v).stores = s.stores := rfl
@[simp] theorem State.putHandle_ops (s : State) (r : BitVec 5) (v : Handle) : (s.putHandle r v).ops = s.ops := rfl
@[simp] theorem State.putHandle_unfilled (s : State) (r : BitVec 5) (v : Handle) : (s.putHandle r v).unfilled = s.unfilled := rfl
@[simp] theorem State.putHandle_colls (s : State) (r : BitVec 5) (v : Handle) : (s.putHandle r v).colls = s.colls := rfl
@[simp] theorem State.putHandle_launches (s : State) (r : BitVec 5) (v : Handle) : (s.putHandle r v).launches = s.launches := rfl
@[simp] theorem State.putHandle_waiting (s : State) (r : BitVec 5) (v : Handle) : (s.putHandle r v).waiting = s.waiting := rfl
@[simp] theorem State.putHandle_saved (s : State) (r : BitVec 5) (v : Handle) : (s.putHandle r v).saved = s.saved := rfl
@[simp] theorem State.putHandle_heldLaunches (s : State) (r : BitVec 5) (v : Handle) : (s.putHandle r v).heldLaunches = s.heldLaunches := rfl
@[simp] theorem State.putHandle_queues (s : State) (r : BitVec 5) (v : Handle) : (s.putHandle r v).queues = s.queues := rfl
@[simp] theorem State.putHandle_doorbells (s : State) (r : BitVec 5) (v : Handle) : (s.putHandle r v).doorbells = s.doorbells := rfl
@[simp] theorem State.putHandle_pubs (s : State) (r : BitVec 5) (v : Handle) : (s.putHandle r v).pubs = s.pubs := rfl
@[simp] theorem State.putHandle_pdl (s : State) (r : BitVec 5) (v : Handle) : (s.putHandle r v).pdl = s.pdl := rfl
@[simp] theorem State.putHandle_comThr (s : State) (r : BitVec 5) (v : Handle) : (s.putHandle r v).comThr = s.comThr := rfl
@[simp] theorem State.putHandle_intervals (s : State) (r : BitVec 5) (v : Handle) : (s.putHandle r v).intervals = s.intervals := rfl
@[simp] theorem State.putHandle_raceShadow (s : State) (r : BitVec 5) (v : Handle) : (s.putHandle r v).raceShadow = s.raceShadow := rfl
@[simp] theorem State.putHandle_raceLogs (s : State) (r : BitVec 5) (v : Handle) : (s.putHandle r v).raceLogs = s.raceLogs := rfl
@[simp] theorem State.putHandle_gaugeScopes (s : State) (r : BitVec 5) (v : Handle) : (s.putHandle r v).gaugeScopes = s.gaugeScopes := rfl
@[simp] theorem State.putHandle_retries (s : State) (r : BitVec 5) (v : Handle) : (s.putHandle r v).retries = s.retries := rfl
@[simp] theorem State.putHandle_fabric (s : State) (r : BitVec 5) (v : Handle) : (s.putHandle r v).fabric = s.fabric := rfl
@[simp] theorem State.putHandle_telBase (s : State) (r : BitVec 5) (v : Handle) : (s.putHandle r v).telBase = s.telBase := rfl
@[simp] theorem State.putHandle_telSize (s : State) (r : BitVec 5) (v : Handle) : (s.putHandle r v).telSize = s.telSize := rfl
@[simp] theorem State.putHandle_telWidx (s : State) (r : BitVec 5) (v : Handle) : (s.putHandle r v).telWidx = s.telWidx := rfl
@[simp] theorem State.putHandle_telRidx (s : State) (r : BitVec 5) (v : Handle) : (s.putHandle r v).telRidx = s.telRidx := rfl
@[simp] theorem State.putHandle_telLost (s : State) (r : BitVec 5) (v : Handle) : (s.putHandle r v).telLost = s.telLost := rfl
@[simp] theorem State.putHandle_telAt (s : State) (r : BitVec 5) (v : Handle) : (s.putHandle r v).telAt = s.telAt := rfl
@[simp] theorem State.putHandle_telAggAt (s : State) (r : BitVec 5) (v : Handle) : (s.putHandle r v).telAggAt = s.telAggAt := rfl
@[simp] theorem State.putHandle_fcastAt (s : State) (r : BitVec 5) (v : Handle) : (s.putHandle r v).fcastAt = s.fcastAt := rfl
@[simp] theorem State.putHandle_windowAt (s : State) (r : BitVec 5) (v : Handle) : (s.putHandle r v).windowAt = s.windowAt := rfl
@[simp] theorem State.putHandle_rontal (s : State) (r : BitVec 5) (v : Handle) : (s.putHandle r v).rontal = s.rontal := rfl
@[simp] theorem State.putHandle_part (s : State) (r : BitVec 5) (v : Handle) : (s.putHandle r v).part = s.part := rfl
@[simp] theorem State.putHandle_out (s : State) (r : BitVec 5) (v : Handle) : (s.putHandle r v).out = s.out := rfl
@[simp] theorem State.putHandle_time (s : State) (r : BitVec 5) (v : Handle) : (s.putHandle r v).time = s.time := rfl
@[simp] theorem State.putHandle_cycles (s : State) (r : BitVec 5) (v : Handle) : (s.putHandle r v).cycles = s.cycles := rfl
@[simp] theorem State.putHandle_cur (s : State) (r : BitVec 5) (v : Handle) : (s.putHandle r v).cur = s.cur := rfl
@[simp] theorem State.putHandle_mark (s : State) (r : BitVec 5) (v : Handle) : (s.putHandle r v).mark = s.mark := rfl
@[simp] theorem State.putHandle_issue (s : State) (r : BitVec 5) (v : Handle) : (s.putHandle r v).issue = s.issue := rfl
@[simp] theorem State.putHandle_inputs (s : State) (r : BitVec 5) (v : Handle) : (s.putHandle r v).inputs = s.inputs := rfl
@[simp] theorem State.putHandle_tick (s : State) (r : BitVec 5) (v : Handle) : (s.putHandle r v).tick = s.tick := rfl
@[simp] theorem State.putHandle_seq (s : State) (r : BitVec 5) (v : Handle) : (s.putHandle r v).seq = s.seq := rfl

/-! block. -/

@[simp] theorem State.block_mem (s : State) (bar : Bool) : (s.block bar).mem = s.mem := rfl
@[simp] theorem State.block_poison (s : State) (bar : Bool) : (s.block bar).poison = s.poison := rfl
@[simp] theorem State.block_cores (s : State) (bar : Bool) : (s.block bar).cores = s.cores := rfl
@[simp] theorem State.block_banks (s : State) (bar : Bool) : (s.block bar).banks = s.banks := rfl
@[simp] theorem State.block_columns (s : State) (bar : Bool) : (s.block bar).columns = s.columns := rfl
@[simp] theorem State.block_cubes (s : State) (bar : Bool) : (s.block bar).cubes = s.cubes := rfl
@[simp] theorem State.block_regions (s : State) (bar : Bool) : (s.block bar).regions = s.regions := rfl
@[simp] theorem State.block_loads (s : State) (bar : Bool) : (s.block bar).loads = s.loads := rfl
@[simp] theorem State.block_stores (s : State) (bar : Bool) : (s.block bar).stores = s.stores := rfl
@[simp] theorem State.block_ops (s : State) (bar : Bool) : (s.block bar).ops = s.ops := rfl
@[simp] theorem State.block_unfilled (s : State) (bar : Bool) : (s.block bar).unfilled = s.unfilled := rfl
@[simp] theorem State.block_colls (s : State) (bar : Bool) : (s.block bar).colls = s.colls := rfl
@[simp] theorem State.block_launches (s : State) (bar : Bool) : (s.block bar).launches = s.launches := rfl
@[simp] theorem State.block_waiting (s : State) (bar : Bool) : (s.block bar).waiting = s.waiting := rfl
@[simp] theorem State.block_saved (s : State) (bar : Bool) : (s.block bar).saved = s.saved := rfl
@[simp] theorem State.block_heldLaunches (s : State) (bar : Bool) : (s.block bar).heldLaunches = s.heldLaunches := rfl
@[simp] theorem State.block_queues (s : State) (bar : Bool) : (s.block bar).queues = s.queues := rfl
@[simp] theorem State.block_doorbells (s : State) (bar : Bool) : (s.block bar).doorbells = s.doorbells := rfl
@[simp] theorem State.block_pubs (s : State) (bar : Bool) : (s.block bar).pubs = s.pubs := rfl
@[simp] theorem State.block_pdl (s : State) (bar : Bool) : (s.block bar).pdl = s.pdl := rfl
@[simp] theorem State.block_comThr (s : State) (bar : Bool) : (s.block bar).comThr = s.comThr := rfl
@[simp] theorem State.block_intervals (s : State) (bar : Bool) : (s.block bar).intervals = s.intervals := rfl
@[simp] theorem State.block_raceShadow (s : State) (bar : Bool) : (s.block bar).raceShadow = s.raceShadow := rfl
@[simp] theorem State.block_raceLogs (s : State) (bar : Bool) : (s.block bar).raceLogs = s.raceLogs := rfl
@[simp] theorem State.block_gaugeScopes (s : State) (bar : Bool) : (s.block bar).gaugeScopes = s.gaugeScopes := rfl
@[simp] theorem State.block_retries (s : State) (bar : Bool) : (s.block bar).retries = s.retries := rfl
@[simp] theorem State.block_fabric (s : State) (bar : Bool) : (s.block bar).fabric = s.fabric := rfl
@[simp] theorem State.block_telBase (s : State) (bar : Bool) : (s.block bar).telBase = s.telBase := rfl
@[simp] theorem State.block_telSize (s : State) (bar : Bool) : (s.block bar).telSize = s.telSize := rfl
@[simp] theorem State.block_telWidx (s : State) (bar : Bool) : (s.block bar).telWidx = s.telWidx := rfl
@[simp] theorem State.block_telRidx (s : State) (bar : Bool) : (s.block bar).telRidx = s.telRidx := rfl
@[simp] theorem State.block_telLost (s : State) (bar : Bool) : (s.block bar).telLost = s.telLost := rfl
@[simp] theorem State.block_telAt (s : State) (bar : Bool) : (s.block bar).telAt = s.telAt := rfl
@[simp] theorem State.block_telAggAt (s : State) (bar : Bool) : (s.block bar).telAggAt = s.telAggAt := rfl
@[simp] theorem State.block_fcastAt (s : State) (bar : Bool) : (s.block bar).fcastAt = s.fcastAt := rfl
@[simp] theorem State.block_windowAt (s : State) (bar : Bool) : (s.block bar).windowAt = s.windowAt := rfl
@[simp] theorem State.block_rontal (s : State) (bar : Bool) : (s.block bar).rontal = s.rontal := rfl
@[simp] theorem State.block_part (s : State) (bar : Bool) : (s.block bar).part = s.part := rfl
@[simp] theorem State.block_out (s : State) (bar : Bool) : (s.block bar).out = s.out := rfl
@[simp] theorem State.block_time (s : State) (bar : Bool) : (s.block bar).time = s.time := rfl
@[simp] theorem State.block_cycles (s : State) (bar : Bool) : (s.block bar).cycles = s.cycles := rfl
@[simp] theorem State.block_cur (s : State) (bar : Bool) : (s.block bar).cur = s.cur := rfl
@[simp] theorem State.block_mark (s : State) (bar : Bool) : (s.block bar).mark = s.mark := rfl
@[simp] theorem State.block_issue (s : State) (bar : Bool) : (s.block bar).issue = s.issue := rfl
@[simp] theorem State.block_inputs (s : State) (bar : Bool) : (s.block bar).inputs = s.inputs := rfl
@[simp] theorem State.block_tick (s : State) (bar : Bool) : (s.block bar).tick = s.tick := rfl
@[simp] theorem State.block_seq (s : State) (bar : Bool) : (s.block bar).seq = s.seq := rfl

/-! progress. -/

@[simp] theorem State.progress_mem (s : State) (q : Nat) : (s.progress q).mem = s.mem := rfl
@[simp] theorem State.progress_poison (s : State) (q : Nat) : (s.progress q).poison = s.poison := rfl
@[simp] theorem State.progress_ctxs (s : State) (q : Nat) : (s.progress q).ctxs = s.ctxs := rfl
@[simp] theorem State.progress_cores (s : State) (q : Nat) : (s.progress q).cores = s.cores := rfl
@[simp] theorem State.progress_banks (s : State) (q : Nat) : (s.progress q).banks = s.banks := rfl
@[simp] theorem State.progress_columns (s : State) (q : Nat) : (s.progress q).columns = s.columns := rfl
@[simp] theorem State.progress_regions (s : State) (q : Nat) : (s.progress q).regions = s.regions := rfl
@[simp] theorem State.progress_loads (s : State) (q : Nat) : (s.progress q).loads = s.loads := rfl
@[simp] theorem State.progress_stores (s : State) (q : Nat) : (s.progress q).stores = s.stores := rfl
@[simp] theorem State.progress_ops (s : State) (q : Nat) : (s.progress q).ops = s.ops := rfl
@[simp] theorem State.progress_unfilled (s : State) (q : Nat) : (s.progress q).unfilled = s.unfilled := rfl
@[simp] theorem State.progress_colls (s : State) (q : Nat) : (s.progress q).colls = s.colls := rfl
@[simp] theorem State.progress_launches (s : State) (q : Nat) : (s.progress q).launches = s.launches := rfl
@[simp] theorem State.progress_waiting (s : State) (q : Nat) : (s.progress q).waiting = s.waiting := rfl
@[simp] theorem State.progress_saved (s : State) (q : Nat) : (s.progress q).saved = s.saved := rfl
@[simp] theorem State.progress_heldLaunches (s : State) (q : Nat) : (s.progress q).heldLaunches = s.heldLaunches := rfl
@[simp] theorem State.progress_queues (s : State) (q : Nat) : (s.progress q).queues = s.queues := rfl
@[simp] theorem State.progress_doorbells (s : State) (q : Nat) : (s.progress q).doorbells = s.doorbells := rfl
@[simp] theorem State.progress_pubs (s : State) (q : Nat) : (s.progress q).pubs = s.pubs := rfl
@[simp] theorem State.progress_pdl (s : State) (q : Nat) : (s.progress q).pdl = s.pdl := rfl
@[simp] theorem State.progress_comThr (s : State) (q : Nat) : (s.progress q).comThr = s.comThr := rfl
@[simp] theorem State.progress_intervals (s : State) (q : Nat) : (s.progress q).intervals = s.intervals := rfl
@[simp] theorem State.progress_raceShadow (s : State) (q : Nat) : (s.progress q).raceShadow = s.raceShadow := rfl
@[simp] theorem State.progress_raceLogs (s : State) (q : Nat) : (s.progress q).raceLogs = s.raceLogs := rfl
@[simp] theorem State.progress_gaugeScopes (s : State) (q : Nat) : (s.progress q).gaugeScopes = s.gaugeScopes := rfl
@[simp] theorem State.progress_retries (s : State) (q : Nat) : (s.progress q).retries = s.retries := rfl
@[simp] theorem State.progress_fabric (s : State) (q : Nat) : (s.progress q).fabric = s.fabric := rfl
@[simp] theorem State.progress_telBase (s : State) (q : Nat) : (s.progress q).telBase = s.telBase := rfl
@[simp] theorem State.progress_telSize (s : State) (q : Nat) : (s.progress q).telSize = s.telSize := rfl
@[simp] theorem State.progress_telWidx (s : State) (q : Nat) : (s.progress q).telWidx = s.telWidx := rfl
@[simp] theorem State.progress_telRidx (s : State) (q : Nat) : (s.progress q).telRidx = s.telRidx := rfl
@[simp] theorem State.progress_telLost (s : State) (q : Nat) : (s.progress q).telLost = s.telLost := rfl
@[simp] theorem State.progress_telAt (s : State) (q : Nat) : (s.progress q).telAt = s.telAt := rfl
@[simp] theorem State.progress_telAggAt (s : State) (q : Nat) : (s.progress q).telAggAt = s.telAggAt := rfl
@[simp] theorem State.progress_fcastAt (s : State) (q : Nat) : (s.progress q).fcastAt = s.fcastAt := rfl
@[simp] theorem State.progress_windowAt (s : State) (q : Nat) : (s.progress q).windowAt = s.windowAt := rfl
@[simp] theorem State.progress_rontal (s : State) (q : Nat) : (s.progress q).rontal = s.rontal := rfl
@[simp] theorem State.progress_part (s : State) (q : Nat) : (s.progress q).part = s.part := rfl
@[simp] theorem State.progress_out (s : State) (q : Nat) : (s.progress q).out = s.out := rfl
@[simp] theorem State.progress_time (s : State) (q : Nat) : (s.progress q).time = s.time := rfl
@[simp] theorem State.progress_cycles (s : State) (q : Nat) : (s.progress q).cycles = s.cycles := rfl
@[simp] theorem State.progress_cur (s : State) (q : Nat) : (s.progress q).cur = s.cur := rfl
@[simp] theorem State.progress_mark (s : State) (q : Nat) : (s.progress q).mark = s.mark := rfl
@[simp] theorem State.progress_issue (s : State) (q : Nat) : (s.progress q).issue = s.issue := rfl
@[simp] theorem State.progress_inputs (s : State) (q : Nat) : (s.progress q).inputs = s.inputs := rfl
@[simp] theorem State.progress_tick (s : State) (q : Nat) : (s.progress q).tick = s.tick := rfl
@[simp] theorem State.progress_seq (s : State) (q : Nat) : (s.progress q).seq = s.seq := rfl

/-! Rows. -/

@[simp] theorem State.ctx_setCtx_same (s : State) (i : Nat) (x : Ctx) : (s.setCtx i x).ctx i = x := tblGet_set_same _ _ _ _
theorem State.ctx_setCtx_ne (s : State) {i j : Nat} (x : Ctx) (h : i ≠ j) : (s.setCtx i x).ctx j = s.ctx j :=
  tblGet_set_ne _ _ _ h
@[simp] theorem State.core_setCtx (s : State) (i j : Nat) (x : Ctx) : (s.setCtx i x).core j = s.core j := rfl
@[simp] theorem State.bank_setCtx (s : State) (i j : Nat) (x : Ctx) : (s.setCtx i x).bank j = s.bank j := rfl
@[simp] theorem State.column_setCtx (s : State) (i j : Nat) (x : Ctx) : (s.setCtx i x).column j = s.column j := rfl
@[simp] theorem State.cube_setCtx (s : State) (i j : Nat) (x : Ctx) : (s.setCtx i x).cube j = s.cube j := rfl
@[simp] theorem State.region_setCtx (s : State) (i j : Nat) (x : Ctx) : (s.setCtx i x).region j = s.region j := rfl
@[simp] theorem State.queue_setCtx (s : State) (i j : Nat) (x : Ctx) : (s.setCtx i x).queue j = s.queue j := rfl
@[simp] theorem State.core_setCore_same (s : State) (i : Nat) (x : Core) : (s.setCore i x).core i = x := tblGet_set_same _ _ _ _
theorem State.core_setCore_ne (s : State) {i j : Nat} (x : Core) (h : i ≠ j) : (s.setCore i x).core j = s.core j :=
  tblGet_set_ne _ _ _ h
@[simp] theorem State.ctx_setCore (s : State) (i j : Nat) (x : Core) : (s.setCore i x).ctx j = s.ctx j := rfl
@[simp] theorem State.bank_setCore (s : State) (i j : Nat) (x : Core) : (s.setCore i x).bank j = s.bank j := rfl
@[simp] theorem State.column_setCore (s : State) (i j : Nat) (x : Core) : (s.setCore i x).column j = s.column j := rfl
@[simp] theorem State.cube_setCore (s : State) (i j : Nat) (x : Core) : (s.setCore i x).cube j = s.cube j := rfl
@[simp] theorem State.region_setCore (s : State) (i j : Nat) (x : Core) : (s.setCore i x).region j = s.region j := rfl
@[simp] theorem State.queue_setCore (s : State) (i j : Nat) (x : Core) : (s.setCore i x).queue j = s.queue j := rfl
@[simp] theorem State.bank_setBank_same (s : State) (i : Nat) (x : Bank) : (s.setBank i x).bank i = x := tblGet_set_same _ _ _ _
theorem State.bank_setBank_ne (s : State) {i j : Nat} (x : Bank) (h : i ≠ j) : (s.setBank i x).bank j = s.bank j :=
  tblGet_set_ne _ _ _ h
@[simp] theorem State.ctx_setBank (s : State) (i j : Nat) (x : Bank) : (s.setBank i x).ctx j = s.ctx j := rfl
@[simp] theorem State.core_setBank (s : State) (i j : Nat) (x : Bank) : (s.setBank i x).core j = s.core j := rfl
@[simp] theorem State.column_setBank (s : State) (i j : Nat) (x : Bank) : (s.setBank i x).column j = s.column j := rfl
@[simp] theorem State.cube_setBank (s : State) (i j : Nat) (x : Bank) : (s.setBank i x).cube j = s.cube j := rfl
@[simp] theorem State.region_setBank (s : State) (i j : Nat) (x : Bank) : (s.setBank i x).region j = s.region j := rfl
@[simp] theorem State.queue_setBank (s : State) (i j : Nat) (x : Bank) : (s.setBank i x).queue j = s.queue j := rfl
@[simp] theorem State.column_setColumn_same (s : State) (i : Nat) (x : Column) : (s.setColumn i x).column i = x := tblGet_set_same _ _ _ _
theorem State.column_setColumn_ne (s : State) {i j : Nat} (x : Column) (h : i ≠ j) : (s.setColumn i x).column j = s.column j :=
  tblGet_set_ne _ _ _ h
@[simp] theorem State.ctx_setColumn (s : State) (i j : Nat) (x : Column) : (s.setColumn i x).ctx j = s.ctx j := rfl
@[simp] theorem State.core_setColumn (s : State) (i j : Nat) (x : Column) : (s.setColumn i x).core j = s.core j := rfl
@[simp] theorem State.bank_setColumn (s : State) (i j : Nat) (x : Column) : (s.setColumn i x).bank j = s.bank j := rfl
@[simp] theorem State.cube_setColumn (s : State) (i j : Nat) (x : Column) : (s.setColumn i x).cube j = s.cube j := rfl
@[simp] theorem State.region_setColumn (s : State) (i j : Nat) (x : Column) : (s.setColumn i x).region j = s.region j := rfl
@[simp] theorem State.queue_setColumn (s : State) (i j : Nat) (x : Column) : (s.setColumn i x).queue j = s.queue j := rfl
@[simp] theorem State.cube_setCube_same (s : State) (i : Nat) (x : Cube) : (s.setCube i x).cube i = x := tblGet_set_same _ _ _ _
theorem State.cube_setCube_ne (s : State) {i j : Nat} (x : Cube) (h : i ≠ j) : (s.setCube i x).cube j = s.cube j :=
  tblGet_set_ne _ _ _ h
@[simp] theorem State.ctx_setCube (s : State) (i j : Nat) (x : Cube) : (s.setCube i x).ctx j = s.ctx j := rfl
@[simp] theorem State.core_setCube (s : State) (i j : Nat) (x : Cube) : (s.setCube i x).core j = s.core j := rfl
@[simp] theorem State.bank_setCube (s : State) (i j : Nat) (x : Cube) : (s.setCube i x).bank j = s.bank j := rfl
@[simp] theorem State.column_setCube (s : State) (i j : Nat) (x : Cube) : (s.setCube i x).column j = s.column j := rfl
@[simp] theorem State.region_setCube (s : State) (i j : Nat) (x : Cube) : (s.setCube i x).region j = s.region j := rfl
@[simp] theorem State.queue_setCube (s : State) (i j : Nat) (x : Cube) : (s.setCube i x).queue j = s.queue j := rfl
@[simp] theorem State.region_setRegion_same (s : State) (i : Nat) (x : Region) : (s.setRegion i x).region i = x := tblGet_set_same _ _ _ _
theorem State.region_setRegion_ne (s : State) {i j : Nat} (x : Region) (h : i ≠ j) : (s.setRegion i x).region j = s.region j :=
  tblGet_set_ne _ _ _ h
@[simp] theorem State.ctx_setRegion (s : State) (i j : Nat) (x : Region) : (s.setRegion i x).ctx j = s.ctx j := rfl
@[simp] theorem State.core_setRegion (s : State) (i j : Nat) (x : Region) : (s.setRegion i x).core j = s.core j := rfl
@[simp] theorem State.bank_setRegion (s : State) (i j : Nat) (x : Region) : (s.setRegion i x).bank j = s.bank j := rfl
@[simp] theorem State.column_setRegion (s : State) (i j : Nat) (x : Region) : (s.setRegion i x).column j = s.column j := rfl
@[simp] theorem State.cube_setRegion (s : State) (i j : Nat) (x : Region) : (s.setRegion i x).cube j = s.cube j := rfl
@[simp] theorem State.queue_setRegion (s : State) (i j : Nat) (x : Region) : (s.setRegion i x).queue j = s.queue j := rfl
@[simp] theorem State.queue_setQueue_same (s : State) (i : Nat) (x : Queue) : (s.setQueue i x).queue i = x := tblGet_set_same _ _ _ _
theorem State.queue_setQueue_ne (s : State) {i j : Nat} (x : Queue) (h : i ≠ j) : (s.setQueue i x).queue j = s.queue j :=
  tblGet_set_ne _ _ _ h
@[simp] theorem State.ctx_setQueue (s : State) (i j : Nat) (x : Queue) : (s.setQueue i x).ctx j = s.ctx j := rfl
@[simp] theorem State.core_setQueue (s : State) (i j : Nat) (x : Queue) : (s.setQueue i x).core j = s.core j := rfl
@[simp] theorem State.bank_setQueue (s : State) (i j : Nat) (x : Queue) : (s.setQueue i x).bank j = s.bank j := rfl
@[simp] theorem State.column_setQueue (s : State) (i j : Nat) (x : Queue) : (s.setQueue i x).column j = s.column j := rfl
@[simp] theorem State.cube_setQueue (s : State) (i j : Nat) (x : Queue) : (s.setQueue i x).cube j = s.cube j := rfl
@[simp] theorem State.region_setQueue (s : State) (i j : Nat) (x : Queue) : (s.setQueue i x).region j = s.region j := rfl

@[simp] theorem State.ctx_modCtx_same (s : State) (c : Nat) (f : Ctx → Ctx) : (s.modCtx c f).ctx c = f (s.ctx c) :=
  State.ctx_setCtx_same _ _ _
theorem State.ctx_modCtx_ne (s : State) {c d : Nat} (f : Ctx → Ctx) (h : c ≠ d) : (s.modCtx c f).ctx d = s.ctx d :=
  State.ctx_setCtx_ne _ _ h
@[simp] theorem State.me_modMe (s : State) (f : Ctx → Ctx) : (s.modMe f).me = f s.me := State.ctx_modCtx_same _ _ _
theorem State.ctx_modMe_ne (s : State) {d : Nat} (f : Ctx → Ctx) (h : s.cur ≠ d) : (s.modMe f).ctx d = s.ctx d :=
  State.ctx_modCtx_ne _ _ h
@[simp] theorem State.core_modCore_same (s : State) (k : Nat) (f : Core → Core) : (s.modCore k f).core k = f (s.core k) :=
  State.core_setCore_same _ _ _
@[simp] theorem State.cube_modCube_same (s : State) (q : Nat) (f : Cube → Cube) : (s.modCube q f).cube q = f (s.cube q) :=
  State.cube_setCube_same _ _ _
@[simp] theorem State.column_modColumn_same (s : State) (k : Nat) (f : Column → Column) :
    (s.modColumn k f).column k = f (s.column k) := State.column_setColumn_same _ _ _
@[simp] theorem State.region_modRegion_same (s : State) (r : Nat) (f : Region → Region) :
    (s.modRegion r f).region r = f (s.region r) := State.region_setRegion_same _ _ _

/-! Registers of a context. -/

/-- A queued scalar write changes nothing but the queue (R32). -/
theorem Ctx.putS_eq (x : Ctx) (r : BitVec 5) (v : Word) (lat : Nat) :
    x.putS r v lat = { x with shadow := (x.putS r v lat).shadow } := by
  unfold Ctx.putS; split <;> rfl
@[simp] theorem Ctx.putS_zero (x : Ctx) (v : Word) (lat : Nat) : x.putS 0#5 v lat = x := by simp [Ctx.putS]
theorem Ctx.putS_shadow (x : Ctx) {r : BitVec 5} (v : Word) (lat : Nat) (h : r ≠ 0#5) :
    (x.putS r v lat).shadow = x.shadow ++ [⟨RegFile.scalar, r, v.setWidth 256, lat⟩] := by simp [Ctx.putS, h]
/-- A transient result changes nothing but the bypass (R35). -/
theorem Ctx.putT_eq (x : Ctx) (r : BitVec 5) (v : Word) : x.putT r v = { x with bypass := (x.putT r v).bypass } := by
  unfold Ctx.putT; split <;> rfl
@[simp] theorem Ctx.putT_zero (x : Ctx) (v : Word) : x.putT 0#5 v = x := by simp [Ctx.putT]
@[simp] theorem Ctx.sreg_zero (x : Ctx) : x.sreg 0#5 = 0#64 := by simp [Ctx.sreg]
@[simp] theorem vget_vset_same {α : Type} (v : Vector α 32) (r : BitVec 5) (a : α) : vget (vset v r a) r = a := by
  simp [vget, vset]
theorem vget_vset_ne {α : Type} (v : Vector α 32) {r q : BitVec 5} (a : α) (h : r ≠ q) : vget (vset v r a) q = vget v q := by
  have : r.toNat ≠ q.toNat := fun e => h (BitVec.eq_of_toNat_eq e)
  simp [vget, vset, Vector.getElem_set_ne, this]

end Sys2Proof.Machine
end

