-- ==== Sys2Proof/Laws/Canonical.lean ====
section
/-! SUPPORT. Every operation of the machine keeps memory in its canonical form: an operation that writes no memory
leaves it as it is (…_mem), any other keeps the form (…_wf). -/

set_option Elab.async false
set_option linter.unusedSimpArgs false

namespace Sys2Proof.Machine

@[simp] theorem foldl_mem {α : Type} (l : List α) (f : State → α → State) (s : State)
    (hf : ∀ s a, (f s a).mem = s.mem) : (l.foldl f s).mem = s.mem := by
  induction l generalizing s with
  | nil => rfl
  | cons a r ih => simp [ih, hf]

theorem foldl_wf {α : Type} (l : List α) (f : State → α → State) (s : State)
    (hf : ∀ s a, memWf s.mem = true → memWf (f s a).mem = true) (h : memWf s.mem = true) :
    memWf (l.foldl f s).mem = true := by
  induction l generalizing s with
  | nil => exact h
  | cons a r ih => exact ih _ (hf _ _ h)

@[simp] theorem ite_mem (c : Prop) [Decidable c] (s t : State) :
    (if c then s else t).mem = if c then s.mem else t.mem := by
  split <;> rfl

@[simp] theorem State.fresh_mem (s : State) : (s.fresh).2.mem = s.mem := rfl
@[simp] theorem State.store_wf (s : State) x1 x2 x3 (h : memWf s.mem = true) : memWf (s.store x1 x2 x3).mem = true := by simp [State.store, h]
@[simp] theorem State.logError_mem (s : State) x1 x2 x3 x4 x5 x6 : (s.logError x1 x2 x3 x4 x5 x6).mem = s.mem := by simp [State.logError]
@[simp] theorem State.reportLaunch_wf (s : State) x1 x2 (h : memWf s.mem = true) : memWf (s.reportLaunch x1 x2).mem = true := by
  unfold State.reportLaunch; split
  · exact h
  · simp only [ite_mem, State.emit_mem, ite_self]
    exact State.store_wf _ _ _ _ (State.store_wf _ _ _ _ (State.store_wf _ _ _ _ h))
@[simp] theorem State.advanceTail_wf (s : State) t x1 (h : memWf s.mem = true) : memWf (s.advanceTail t x1).mem = true := by simp [State.advanceTail, h]
@[simp] theorem State.fillSaved_wf (s : State) x1 (h : memWf s.mem = true) : memWf (s.fillSaved x1).mem = true :=
  foldl_wf _ _ _ (fun s _ h => foldl_wf _ _ _ (fun s _ h => State.advanceTail_wf s _ _ h) h) h
@[simp] theorem State.shade_mem (s : State) x1 x2 x3 x4 : (s.shade x1 x2 x3 x4).mem = s.mem := rfl
@[simp] theorem State.shadeTrapped_mem (s : State) x1 x2 : (s.shadeTrapped x1 x2).mem = s.mem := by unfold State.shadeTrapped; (repeat' split) <;> simp
@[simp] theorem State.observe_mem (s : State) x1 x2 x3 : (s.observe x1 x2 x3).mem = s.mem := rfl
@[simp] theorem State.pendPair_mem (s : State) x1 x2 : (s.pendPair x1 x2).mem = s.mem := by unfold State.pendPair; (repeat' split) <;> simp
@[simp] theorem State.tickInterval_mem (s : State) : (s.tickInterval).mem = s.mem := rfl
@[simp] theorem State.requestAtomic_mem (s : State) x1 x2 x3 x4 x5 : (s.requestAtomic x1 x2 x3 x4 x5).mem = s.mem := by unfold State.requestAtomic; (repeat' split) <;> simp
@[simp] theorem State.noteReturn_mem (s : State) x1 : (s.noteReturn x1).mem = s.mem := by unfold State.noteReturn; simp only; (repeat' split) <;> simp
@[simp] theorem State.failLaunch_wf (s : State) x1 (h : memWf s.mem = true) : memWf (s.failLaunch x1).mem = true := by
  unfold State.failLaunch; split
  · exact h
  · refine State.reportLaunch_wf _ _ _ (State.fillSaved_wf _ _ ?_)
    exact foldl_wf _ _ _ (fun s a h => by simp [h]) (by simp [h])
@[simp] theorem State.stopDomain_wf (s : State) x1 (h : memWf s.mem = true) : memWf (s.stopDomain x1).mem = true := by unfold State.stopDomain; (repeat' split) <;> simp +contextual [h, foldl_wf]
@[simp] theorem State.unhandled_wf (s : State) x1 (h : memWf s.mem = true) : memWf (s.unhandled x1).mem = true := by unfold State.unhandled; (repeat' split) <;> simp [h]
@[simp] theorem State.consumeColl_mem (s : State) x1 x2 : (s.consumeColl x1 x2).mem = s.mem := by simp [State.consumeColl]
@[simp] theorem State.takePlain_wf (s : State) x1 x2 (h : memWf s.mem = true) : memWf (s.takePlain x1 x2).mem = true := by unfold State.takePlain; simp only; (repeat' split) <;> simp_all
@[simp] theorem State.recompute_wf (s : State) x1 x2 (h : memWf s.mem = true) : memWf (s.recompute x1 x2).mem = true := by unfold State.recompute; simp only; (repeat' split) <;> simp_all
@[simp] theorem State.takeTrap_wf (s : State) x1 x2 (h : memWf s.mem = true) : memWf (s.takeTrap x1 x2).mem = true := by unfold State.takeTrap; (repeat' split) <;> simp [h]
@[simp] theorem State.precise_wf (s : State) x1 (h : memWf s.mem = true) : memWf (s.precise x1).mem = true :=
  State.takeTrap_wf _ _ _ (by simp only [ite_mem, State.logError_mem, State.shadeTrapped_mem, ite_self]; exact h)
@[simp] theorem State.cacheRecord_mem (s : State) x1 x2 x3 : (s.cacheRecord x1 x2 x3).mem = s.mem := rfl
@[simp] theorem State.dropRecord_mem (s : State) x1 : (s.dropRecord x1).mem = s.mem := rfl
@[simp] theorem State.acquired_mem (s : State) x1 x2 : (s.acquired x1 x2).mem = s.mem := rfl
@[simp] theorem State.newInterval_mem (s : State) x1 : (s.newInterval x1).mem = s.mem := rfl
@[simp] theorem State.setFloor_mem (s : State) x1 x2 : (s.setFloor x1 x2).mem = s.mem := rfl
@[simp] theorem State.raceLog_wf (s : State) x1 x2 x3 x4 (h : memWf s.mem = true) : memWf (s.raceLog x1 x2 x3 x4).mem = true := by unfold State.raceLog; simp only; (repeat' split) <;> simp_all
@[simp] theorem State.raceNote_wf (s : State) x1 x2 x3 x4 x5 (h : memWf s.mem = true) : memWf (s.raceNote x1 x2 x3 x4 x5).mem = true := by unfold State.raceNote; (repeat' split) <;> simp_all
@[simp] theorem State.raceForeign_mem (s : State) x1 : (s.raceForeign x1).mem = s.mem := by unfold State.raceForeign; (repeat' split) <;> simp
@[simp] theorem State.pendLoad_mem (s : State) x1 x2 x3 x4 x5 x6 : (s.pendLoad x1 x2 x3 x4 x5 x6).mem = s.mem := rfl
@[simp] theorem State.pendStore_mem (s : State) x1 x2 x3 x4 x5 : (s.pendStore x1 x2 x3 x4 x5).mem = s.mem := rfl
@[simp] theorem State.toPeer_mem (s : State) (op loc n data cmp : Nat) : (s.toPeer op loc n data cmp).mem = s.mem := by
  unfold State.toPeer; split
  · exact foldl_mem _ _ _ fun _ _ => rfl
  · rfl
@[simp] theorem State.returned_wf (s : State) x1 (h : memWf s.mem = true) : memWf (s.returned x1).2.mem = true := by unfold State.returned; (repeat' split) <;> simp [h]
@[simp] theorem State.landLoad_wf (s : State) x1 (h : memWf s.mem = true) : memWf (s.landLoad x1).mem = true := by
  unfold State.landLoad; simp only; split
  · simp [h]
  · rw [State.modCtx_mem]; exact State.returned_wf _ _ (by simp [h])
theorem memWf_foldl_set {α : Type} (ws : List α) (a : α → Nat) (v : List Host.Cell → α → Byte) (m : List Host.Cell)
    (h : memWf m = true) : memWf (ws.foldl (fun m w => memSet m (a w) (v m w)) m) = true := by
  induction ws generalizing m with
  | nil => exact h
  | cons w r ih => exact ih _ (memWf_set _ _ _ h)
@[simp] theorem State.poke_wf (s : State) (ws : List Poke) (h : memWf s.mem = true) : memWf (s.poke ws).mem = true :=
  memWf_foldl_set ws (fun w => w.1) (fun m w => (memGet m w.1 &&& ~~~w.2.1) ||| (w.2.2 &&& w.2.1)) _ h
@[simp] theorem State.putElements_wf (s : State) o vs (h : memWf s.mem = true) : memWf (s.putElements o vs).mem = true := by
  unfold State.putElements; simp only; split
  · simp [h]
  · refine foldl_wf _ _ _ (fun s a h => ?_) (by simp [h])
    split
    · exact h
    · split <;> simp [h]
@[simp] theorem State.keepAll_wf (s : State) x1 (h : memWf s.mem = true) : memWf (s.keepAll x1).mem = true := by unfold State.keepAll; (repeat' split) <;> simp +contextual [h, foldl_wf]
@[simp] theorem State.issueOp_wf (s : State) x1 x2 x3 x4 (h : memWf s.mem = true) : memWf (s.issueOp x1 x2 x3 x4).mem = true := by simp [State.issueOp, h]
@[simp] theorem State.popSlot_wf (s : State) c p (h : memWf s.mem = true) : memWf (s.popSlot c p).mem = true := by
  unfold State.popSlot; simp only; split
  · simp [h]
  · split <;> simp [h]
@[simp] theorem State.countDone_mem (s : State) x1 x2 : (s.countDone x1 x2).mem = s.mem := rfl
@[simp] theorem State.retire_wf (s : State) o (h : memWf s.mem = true) : memWf (s.retire o).mem = true := by
  simp only [State.retire, ite_mem, State.countDone_mem, ite_self]
  exact foldl_wf _ _ _ (fun s a h => State.popSlot_wf _ _ _ h) h
@[simp] theorem State.raise_mem (s : State) x1 x2 : (s.raise x1 x2).mem = s.mem := rfl
@[simp] theorem State.engineFault_mem (s : State) x1 x2 x3 x4 x5 x6 : (s.engineFault x1 x2 x3 x4 x5 x6).mem = s.mem := rfl
@[simp] theorem State.opError_wf (s : State) o a l (h : memWf s.mem = true) : memWf (s.opError o a l).mem = true := by
  simp [State.opError, h]
@[simp] theorem State.raceSector_wf (s : State) x1 x2 x3 x4 (h : memWf s.mem = true) : memWf (s.raceSector x1 x2 x3 x4).2.mem = true := by unfold State.raceSector; simp only; (repeat' split) <;> simp_all
theorem foldl_snd_wf {α β : Type} (l : List α) (f : β × State → α → β × State) (p : β × State)
    (hf : ∀ p a, memWf p.2.mem = true → memWf (f p a).2.mem = true) (h : memWf p.2.mem = true) :
    memWf (l.foldl f p).2.mem = true := by
  induction l generalizing p with
  | nil => exact h
  | cons a r ih => exact ih _ (hf _ _ h)
@[simp] theorem State.raceOpnd_wf (s : State) o p wr (h : memWf s.mem = true) : memWf (s.raceOpnd o p wr).mem = true := by
  unfold State.raceOpnd; split
  · exact h
  · simp only
    split
    · rw [State.engineFault_mem]; exact foldl_snd_wf _ _ _ (fun p a h => by simp [h]) h
    · exact foldl_snd_wf _ _ _ (fun p a h => by simp [h]) h
@[simp] theorem State.modQueue_mem (s : State) x1 x2 x3 : (s.modQueue x1 x2 x3).mem = s.mem := rfl
@[simp] theorem State.reserveEntry_mem (s : State) x1 x2 x3 : (s.reserveEntry x1 x2 x3).mem = s.mem := rfl
@[simp] theorem State.claimEntry_mem (s : State) x1 x2 : (s.claimEntry x1 x2).mem = s.mem := rfl
@[simp] theorem State.fillEntry_mem (s : State) x1 x2 x3 x4 x5 : (s.fillEntry x1 x2 x3 x4 x5).mem = s.mem := rfl
@[simp] theorem State.dropEntry_mem (s : State) x1 x2 x3 : (s.dropEntry x1 x2 x3).mem = s.mem := rfl
@[simp] theorem State.chainError_wf (s : State) o l (h : memWf s.mem = true) : memWf (s.chainError o l).mem = true := by
  unfold State.chainError; simp only; split <;> simp [h]
@[simp] theorem State.countStart_mem (s : State) x1 : (s.countStart x1).mem = s.mem := by simp [State.countStart]
@[simp] theorem State.drainSlot_mem (s : State) x1 : (s.drainSlot x1).mem = s.mem := rfl
@[simp] theorem State.bindStore_wf (s : State) t (h : memWf s.mem = true) : memWf (s.bindStore t).mem = true := by
  refine foldl_wf _ _ _ (fun s a h => ?_) h
  split
  · simp [h]
  · split <;> simp [h]
@[simp] theorem State.bindGauge_wf (s : State) x1 x2 x3 (h : memWf s.mem = true) : memWf (s.bindGauge x1 x2 x3).mem = true := by unfold State.bindGauge; simp only; (repeat' split) <;> simp_all
@[simp] theorem State.learnLock_mem (s : State) x1 x2 : (s.learnLock x1 x2).mem = s.mem := by unfold State.learnLock; (repeat' split) <;> simp
@[simp] theorem State.noteLock_mem (s : State) x1 : (s.noteLock x1).mem = s.mem := by unfold State.noteLock; (repeat' split) <;> simp
@[simp] theorem State.fenced_mem (s : State) x1 x2 : (s.fenced x1 x2).mem = s.mem := by simp [State.fenced]
@[simp] theorem State.modCopyRegs_mem (s : State) x1 x2 : (s.modCopyRegs x1 x2).mem = s.mem := rfl
@[simp] theorem State.loseRecord_mem (s : State) x1 : (s.loseRecord x1).mem = s.mem := rfl
@[simp] theorem State.record_wf (s : State) c g st sc id b ca f a (h : memWf s.mem = true) :
    memWf (s.record c g st sc id b ca f a).mem = true := by
  unfold State.record; simp only; split
  · simp [h]
  · split
    · simp [h]
    · split
      · simp [h]
      · rw [State.modCtx_mem, State.modCopyRegs_mem]
        exact State.store_wf _ _ _ _ (by simp only [ite_mem, State.tickInterval_mem, ite_self]; exact h)
theorem State.record_if_wf (t : State) (b : Bool) c g st sc id n ca f a (h : memWf t.mem = true) :
    memWf (if b then t.record c g st sc id n ca f a else t).mem = true := by
  cases b
  · exact h
  · exact State.record_wf _ _ _ _ _ _ _ _ _ _ h
@[simp] theorem State.countGauge_wf (s : State) c k g sc a id n l (h : memWf s.mem = true) :
    memWf (s.countGauge c k g sc a id n l).mem = true := by
  unfold State.countGauge
  apply State.record_if_wf
  have := State.store_wf s (spadLoc k a.toNat) 16 ((s.gaugeAt (spadLoc k a.toNat)).count n).1.bits h
  exact this
@[simp] theorem State.claimSlot_wf (s : State) x1 (h : memWf s.mem = true) : memWf (s.claimSlot x1).mem = true := by simp [State.claimSlot, h]
@[simp] theorem State.fillSlot_wf (s : State) x1 (h : memWf s.mem = true) : memWf (s.fillSlot x1).mem = true := by
  unfold State.fillSlot; split
  · exact State.advanceTail_wf _ _ _ h
  · exact h
@[simp] theorem State.loseSlot_mem (s : State) x1 : (s.loseSlot x1).mem = s.mem := rfl
@[simp] theorem State.readRound_mem (s : State) x1 : (s.readRound x1).mem = s.mem := by simp [State.readRound]
@[simp] theorem State.modOp_mem (s : State) x1 x2 : (s.modOp x1 x2).mem = s.mem := rfl
@[simp] theorem State.finishCopy_wf (s : State) o (h : memWf s.mem = true) : memWf (s.finishCopy o).mem = true := by
  unfold State.finishCopy; simp only; split
  · exact State.record_wf _ _ _ _ _ _ _ _ _ _ (by simp [h])
  · simp [h]
@[simp] theorem State.landSome_wf (s : State) o cs (h : memWf s.mem = true) : memWf (s.landSome o cs).2.mem = true := by
  unfold State.landSome; split
  · exact h
  · refine foldl_snd_wf _ _ _ (fun p a h => ?_) h
    have h1 := foldl_wf (o.early a ((s.copyData o).filter (fun v => o.data.isSome || (s.badElement (o.arg 1) [v.1]).isNone)))
      (fun (s : State) p => s.putElements p.1 [p.2]) p.2 (fun s a h => by simp [h]) h
    simp only [ite_mem, State.dropRecord_mem, ite_self]
    exact h1
@[simp] theorem State.cancelCopy_wf (s : State) o t (h : memWf s.mem = true) : memWf (s.cancelCopy o t).mem = true := by
  unfold State.cancelCopy
  have := s.landSome_wf o o.recvs h
  generalize s.landSome o o.recvs = r at this
  simp only; split
  · exact State.record_wf _ _ _ _ _ _ _ _ _ _ (by simp [this])
  · simp [this]
@[simp] theorem State.putRing_wf (s : State) x1 x2 x3 (h : memWf s.mem = true) : memWf (s.putRing x1 x2 x3).mem = true := by simp [State.putRing, h]
@[simp] theorem State.modEntry_mem (s : State) x1 x2 x3 : (s.modEntry x1 x2 x3).mem = s.mem := rfl
@[simp] theorem State.mirrorClaim_wf (s : State) c k (h : memWf s.mem = true) : memWf (s.mirrorClaim c k).mem = true := by
  unfold State.mirrorClaim; (repeat' split) <;> simp [h]
@[simp] theorem State.cancelFrom_wf (s : State) c k i (h : memWf s.mem = true) : memWf (s.cancelFrom c k i).2.mem = true := by
  refine State.mirrorClaim_wf _ _ _ ?_
  rw [State.modEntry_mem]
  exact foldl_snd_wf _ _ _ (fun p a h => by simp [h]) h
@[simp] theorem State.cancelIterations_wf (s : State) c k i (h : memWf s.mem = true) :
    memWf (s.cancelIterations c k i).mem = true := State.cancelFrom_wf _ _ _ _ h
@[simp] theorem State.endBinding_wf (s : State) c n w (h : memWf s.mem = true) : memWf (s.endBinding c n w).mem = true := by
  unfold State.endBinding; simp only; split
  · exact h
  · rw [State.modCtx_mem]; exact State.cancelIterations_wf _ _ _ _ h
@[simp] theorem State.loadSchedule_mem (s : State) x1 x2 : (s.loadSchedule x1 x2).mem = s.mem := rfl
@[simp] theorem State.haltSchedule_wf (s : State) c k i ca f a (h : memWf s.mem = true) :
    memWf (s.haltSchedule c k i ca f a).mem = true := by
  simp only [State.haltSchedule, State.engineFault_mem, State.modCopyRegs_mem]
  exact State.record_wf _ _ _ _ _ _ _ _ _ _ (State.cancelFrom_wf _ _ _ _ h)
@[simp] theorem State.startIteration_wf (s : State) x1 x2 x3 x4 x5 (h : memWf s.mem = true) : memWf (s.startIteration x1 x2 x3 x4 x5).mem = true := by simp [State.startIteration, h]
@[simp] theorem State.modBank_mem (s : State) x1 x2 : (s.modBank x1 x2).mem = s.mem := rfl
@[simp] theorem State.refreshBank_mem (s : State) x1 : (s.refreshBank x1).mem = s.mem := rfl
@[simp] theorem State.countWld_mem (s : State) x1 : (s.countWld x1).mem = s.mem := rfl
@[simp] theorem State.closeRows_mem (s : State) c : (s.closeRows c).2.mem = s.mem :=
  foldl_mem _ _ _ fun _ _ => rfl
@[simp] theorem State.retag_mem (s : State) x1 x2 x3 x4 : (s.retag x1 x2 x3 x4).mem = s.mem := rfl
@[simp] theorem State.writeRun_wf (s : State) t a bs (h : memWf s.mem = true) : memWf (s.writeRun t a bs).mem = true :=
  State.poke_wf _ _ h
@[simp] theorem State.addDone_wf (s : State) l (h : memWf s.mem = true) : memWf (s.addDone l).mem = true := by
  unfold State.addDone; (repeat' split) <;> simp [h]
@[simp] theorem State.settleLaunch_wf (s : State) x1 (h : memWf s.mem = true) : memWf (s.settleLaunch x1).mem = true := by unfold State.settleLaunch; (repeat' split) <;> simp [h]
@[simp] theorem State.countTask_wf (s : State) id st (h : memWf s.mem = true) : memWf (s.countTask id st).mem = true := by
  unfold State.countTask; split
  · exact h
  · simp only; split <;> simp [h]
@[simp] theorem State.clearCtx_wf (s : State) c (h : memWf s.mem = true) : memWf (s.clearCtx c).mem = true := by
  have h1 := foldl_wf (List.range 8) (fun (s : State) n => s.endBinding c n true) s (fun s a h => s.endBinding_wf c a true h) h
  unfold State.clearCtx
  simp only [State.closeRows_mem, List.foldl_cons, List.foldl_nil, State.modQueue_mem]
  exact h1
@[simp] theorem State.freeCtx_wf (s : State) c (h : memWf s.mem = true) : memWf (s.freeCtx c).mem = true := by
  simp [State.freeCtx, h]
@[simp] theorem State.dropCopies_wf (s : State) c (h : memWf s.mem = true) : memWf (s.dropCopies c).mem = true :=
  foldl_wf _ _ _ (fun s a h => by simp [h]) h
theorem State.copyImage_wf (s : State) l k e (h : memWf s.mem = true) : memWf (s.copyImage l k e).2.mem = true ∧
    ∀ t, (s.copyImage l k e).1 = .ok t → memWf t.mem = true := by
  unfold State.copyImage; simp only; split
  · exact ⟨h, fun t ht => by cases ht; exact State.poke_wf _ _ h⟩
  · exact ⟨State.poke_wf _ _ h, fun t ht => by cases ht⟩
@[simp] theorem State.copyImages_wf (s : State) l k es (h : memWf s.mem = true) : memWf (s.copyImages l k es).2.mem = true := by
  induction es generalizing s with
  | nil => exact h
  | cons e r ih =>
    unfold State.copyImages
    have := s.copyImage_wf l k e h
    split <;> simp_all
@[simp] theorem State.startTask_wf (s : State) l c i a (h : memWf s.mem = true) : memWf (s.startTask l c i a).mem = true := by
  have h1 : memWf (match s.imageTable l l.img l.imgn with
      | .error (.trap t) => (some t, s)
      | .error .wait => (none, s)
      | .ok es => s.copyImages l (coreOf c) es).2.mem = true := by
    split <;> simp [h]
  unfold State.startTask
  simp only
  generalize (match s.imageTable l l.img l.imgn with
      | .error (.trap t) => (some t, s)
      | .error .wait => (none, s)
      | .ok es => s.copyImages l (coreOf c) es) = p at h1
  obtain ⟨bad, t⟩ := p
  simp only at h1 ⊢
  split <;> (repeat' split) <;> simp_all
@[simp] theorem State.joinPut_wf (s : State) ls o n v (h : memWf s.mem = true) : memWf (s.joinPut ls o n v).mem = true :=
  State.poke_wf _ _ h
@[simp] theorem State.resetJoin_wf (s : State) ls (h : memWf s.mem = true) : memWf (s.resetJoin ls).mem = true :=
  State.joinPut_wf _ _ _ _ _ (State.joinPut_wf _ _ _ _ _ (State.joinPut_wf _ _ _ _ _ (State.joinPut_wf _ _ _ _ _ h)))
@[simp] theorem State.writeTarget_wf (s : State) c r vs (h : memWf s.mem = true) : memWf (s.writeTarget c r vs).mem = true := by
  unfold State.writeTarget; simp only; split
  · exact h
  · rw [foldl_mem _ _ _ (fun s p => by simp)]; exact State.poke_wf _ _ h
@[simp] theorem State.killSaved_wf (s : State) (h : memWf s.mem = true) : memWf s.killSaved.mem = true := by
  unfold State.killSaved
  exact foldl_wf _ _ _ (fun s p h => foldl_wf _ _ _ (fun s o h => State.countTask_wf _ _ _ h) (State.fillSaved_wf _ _ h)) h
@[simp] theorem State.release_wf (s : State) c l ls (h : memWf s.mem = true) : memWf (s.release c l ls).mem = true := by
  unfold State.release
  apply State.killSaved_wf
  exact State.joinPut_wf _ _ _ _ _ (State.joinPut_wf _ _ _ _ _ (State.writeTarget_wf _ _ _ _ h))
@[simp] theorem State.arrive_wf (s : State) c j (h : memWf s.mem = true) : memWf (s.arrive c j).2.mem = true := by
  unfold State.arrive; simp only; split
  · exact h
  · split
    · exact State.release_wf _ _ _ _ (State.joinPut_wf _ _ _ _ _ (State.joinPut_wf _ _ _ _ _ h))
    · exact State.joinPut_wf _ _ _ _ _ (State.joinPut_wf _ _ _ _ _ h)
@[simp] theorem State.arriveWaiting_wf (s : State) c (h : memWf s.mem = true) : memWf (s.arriveWaiting c).mem = true := by
  unfold State.arriveWaiting; split
  · exact h
  · split
    · exact State.arrive_wf _ _ _ h
    · exact h
@[simp] theorem State.publish_mem (s : State) x1 x2 : (s.publish x1 x2).mem = s.mem := rfl
@[simp] theorem State.setPending_wf (s : State) x1 x2 (h : memWf s.mem = true) : memWf (s.setPending x1 x2).mem = true := by unfold State.setPending; (repeat' split) <;> simp [h]
@[simp] theorem State.sluice_wf (s : State) x1 (h : memWf s.mem = true) : memWf (s.sluice x1).mem = true := by unfold State.sluice; (repeat' split) <;> simp [h]
@[simp] theorem State.trimDoorbells_mem (s : State) : (s.trimDoorbells).mem = s.mem := rfl
@[simp] theorem State.reportEntry_wf (s : State) x1 x2 x3 x4 (h : memWf s.mem = true) : memWf (s.reportEntry x1 x2 x3 x4).mem = true := by
  unfold State.reportEntry; simp only; split
  · exact State.store_wf _ _ _ _ (State.store_wf _ _ _ _ (State.store_wf _ _ _ _ h))
  · simp only [ite_mem, State.emit_mem, ite_self]
    exact State.store_wf _ _ _ _ (State.store_wf _ _ _ _ (State.store_wf _ _ _ _ h))
@[simp] theorem State.resetJoins_wf (s : State) g as (h : memWf s.mem = true) : memWf (s.resetJoins g as).mem = true := by
  refine foldl_wf _ _ _ (fun s a h => ?_) h
  split
  · exact h
  · split <;> simp [h]
@[simp] theorem State.begin__wf (s : State) r q p hd as (h : memWf s.mem = true) : memWf (s.begin_ r q p hd as).mem = true := by
  unfold State.begin_
  refine State.resetJoins_wf _ _ _ ?_
  cases q <;> simp only <;> split <;> simp [h]
@[simp] theorem State.takeEntry_wf (s : State) e (h : memWf s.mem = true) : memWf (s.takeEntry e).mem = true := by
  unfold State.takeEntry; simp only
  split
  · split <;> simp [h]
  · exact h
  · split
    · simp [h]
    · split <;> simp [h]
@[simp] theorem State.beginProducer_wf (s : State) l (h : memWf s.mem = true) : memWf (s.beginProducer l).mem = true := by
  unfold State.beginProducer; simp only
  split
  · split <;> simp [h]
  · exact h
  · split
    · simp [h]
    · refine State.resetJoins_wf _ _ _ ?_
      split <;> simp [h]
@[simp] theorem State.nameCore_mem (s : State) x1 : (s.nameCore x1).mem = s.mem := by unfold State.nameCore; (repeat' split) <;> simp
@[simp] theorem State.placeGroup_wf (s : State) l g cs (h : memWf s.mem = true) : memWf (s.placeGroup l g cs).mem = true := by
  unfold State.placeGroup
  refine foldl_wf _ _ _ (fun s a h => ?_) h
  split
  · exact h
  · split <;> simp [h]
@[simp] theorem State.requestStop_wf (s : State) x1 (h : memWf s.mem = true) : memWf (s.requestStop x1).mem = true := by unfold State.requestStop; (repeat' split) <;> simp +contextual [h, foldl_wf]
@[simp] theorem State.modColl_mem (s : State) x1 x2 : (s.modColl x1 x2).mem = s.mem := rfl
@[simp] theorem State.failColl_mem (s : State) x1 x2 x3 : (s.failColl x1 x2 x3).mem = s.mem := rfl
@[simp] theorem State.mismatchColl_mem (s : State) x1 : (s.mismatchColl x1).mem = s.mem := by
  refine (foldl_mem x1.unsent (fun (s : State) p => s.emit _) (s.failColl x1 cEngineFault fCollMismatch) fun _ _ => rfl).trans ?_
  exact State.failColl_mem _ _ _ _
@[simp] theorem State.collError_mem (s : State) x1 x2 : (s.collError x1 x2).mem = s.mem := by
  unfold State.collError; (repeat' split) <;> simp
@[simp] theorem State.checkStaged_mem (s : State) k : (s.checkStaged k).mem = s.mem := by
  refine foldl_mem _ _ _ fun s t => ?_
  split
  · split <;> simp
  · rfl
@[simp] theorem State.reroute_mem (s : State) x1 : (s.reroute x1).mem = s.mem := by unfold State.reroute; simp only; (repeat' split) <;> simp
@[simp] theorem State.startColl_mem (s : State) p : (s.startColl p).mem = s.mem := by
  unfold State.startColl State.lostLinks; simp only [State.checkStaged_mem, ite_mem, State.reroute_mem, ite_self]; rfl
@[simp] theorem State.foldInto_wf (s : State) o vs (h : memWf s.mem = true) : memWf (s.foldInto o vs).mem = true :=
  foldl_wf _ _ _ (fun _ _ h => State.poke_wf _ _ h) h
@[simp] theorem State.foldTransfer_wf (s : State) o t (h : memWf s.mem = true) : memWf (s.foldTransfer o t).mem = true := by
  have h' : ∀ bs, memWf (s.collError o bs).mem = true := fun bs => by rw [State.collError_mem]; exact h
  unfold State.foldTransfer; simp only; split
  · rw [State.modColl_mem]; exact State.countGauge_wf _ _ _ _ _ _ _ _ _ (State.foldInto_wf _ _ _ (h' _))
  · rw [State.emit_mem, State.modColl_mem]; exact State.countGauge_wf _ _ _ _ _ _ _ _ _ (State.foldInto_wf _ _ _ (h' _))
@[simp] theorem State.fillTurn_wf (s : State) o t (h : memWf s.mem = true) : memWf (s.fillTurn o t).mem = true := by
  unfold State.fillTurn; simp only [State.modColl_mem]
  refine State.countGauge_wf _ _ _ _ _ _ _ _ _ ?_
  split
  · split
    · exact State.foldInto_wf _ _ _ h
    · exact h
  · exact h
@[simp] theorem State.finishJoin_wf (s : State) o (h : memWf s.mem = true) : memWf (s.finishJoin o).mem = true := by
  unfold State.finishJoin; split
  · exact h
  · refine State.joinPut_wf _ _ _ _ _ (State.joinPut_wf _ _ _ _ _ ?_)
    split
    · refine foldl_wf _ _ _ (fun s a h => ?_) h
      split
      · exact State.poke_wf _ _ h
      · exact h
    · exact h
@[simp] theorem State.transfer_mem (s : State) x1 x2 x3 : (s.transfer x1 x2 x3).mem = s.mem := rfl
@[simp] theorem State.modFabric_mem (s : State) x1 : (s.modFabric x1).mem = s.mem := rfl
@[simp] theorem State.propose_mem (s : State) x1 : (s.propose x1).mem = s.mem := by simp [State.propose]
@[simp] theorem State.requestLimit_mem (s : State) x1 : (s.requestLimit x1).mem = s.mem := by simp [State.requestLimit]
@[simp] theorem State.loseMembers_mem (s : State) x1 x2 : (s.loseMembers x1 x2).mem = s.mem := by unfold State.loseMembers; (repeat' split) <;> simp
@[simp] theorem State.dropStaged_mem (s : State) x1 : (s.dropStaged x1).mem = s.mem := rfl
@[simp] theorem State.evict_mem (s : State) x1 : (s.evict x1).mem = s.mem := by simp [State.evict]
@[simp] theorem State.foreign_wf (s : State) x1 x2 x3 x4 x5 (h : memWf s.mem = true) : memWf (s.foreign x1 x2 x3 x4 x5).2.mem = true := by unfold State.foreign; (repeat' split) <;> simp [h]
@[simp] theorem State.countStep_wf (s : State) x1 (h : memWf s.mem = true) : memWf (s.countStep x1).mem = true := by unfold State.countStep; (repeat' split) <;> simp +contextual [h, foldl_wf]
@[simp] theorem State.stepOver_wf (s : State) x1 (h : memWf s.mem = true) : memWf (s.stepOver x1).mem = true := by simp [State.stepOver, h]
@[simp] theorem State.settle_wf (s : State) x1 (h : memWf s.mem = true) : memWf (s.settle x1).mem = true := by unfold State.settle; simp only; (repeat' split) <;> simp_all
@[simp] theorem State.endUnsaved_wf (s : State) c m (h : memWf s.mem = true) : memWf (s.endUnsaved c m).mem = true := by
  refine foldl_wf _ _ _ (fun s a h => ?_) h
  split <;> simp [h]
@[simp] theorem State.stopIterations_wf (s : State) c (h : memWf s.mem = true) : memWf (s.stopIterations c).mem = true := by
  refine foldl_wf _ _ _ (fun s a h => ?_) h
  split <;> simp [h]
@[simp] theorem State.holdOps_wf (s : State) c (h : memWf s.mem = true) : memWf (s.holdOps c).2.mem = true :=
  foldl_wf _ _ _ (fun s a h => by simp [h]) h
@[simp] theorem State.reopenRows_mem (s : State) x1 : (s.reopenRows x1).mem = s.mem := by simp [State.reopenRows]
@[simp] theorem State.reissue_wf (s : State) c ops (h : memWf s.mem = true) : memWf (s.reissue c ops).mem = true := by
  refine foldl_wf _ _ _ (fun s a h => ?_) h
  simp only; split
  · exact h
  · split
    · exact h
    · rw [State.engineFault_mem, State.countDone_mem]; exact State.record_wf _ _ _ _ _ _ _ _ _ _ h
    · exact h
@[simp] theorem State.restore_wf (s : State) l x (h : memWf s.mem = true) : memWf (s.restore l x).mem = true := by
  unfold State.restore; split
  · exact h
  · refine State.settle_wf _ _ ?_
    rw [State.reopenRows_mem]
    refine State.reissue_wf _ _ _ ?_
    rw [foldl_mem _ _ _ (fun s p => by simp)]
    exact memWf_foldl_set _ (fun p : Nat × Byte => p.1) (fun _ p => p.2) _
      (memWf_zero _ _ _ (memWf_zero _ _ _ (by simp [h])))
@[simp] theorem State.testStatus_mem (s : State) x1 x2 x3 : (s.testStatus x1 x2 x3).mem = s.mem := rfl
@[simp] theorem State.scramble_wf (s : State) a n (h : memWf s.mem = true) : memWf (s.scramble a n).mem = true :=
  memWf_foldl_set (List.range n) (fun i => a + i) (fun _ i => Config.freeByte s.tick (a + i)) _ h
@[simp] theorem State.scrambleSlice_wf (s : State) k (h : memWf s.mem = true) : memWf (s.scrambleSlice k).mem = true :=
  State.scramble_wf _ _ _ (State.scramble_wf _ _ _ h)
@[simp] theorem State.mapCore_mem (s : State) x1 : (s.mapCore x1).mem = s.mem := by unfold State.mapCore; (repeat' split) <;> simp
@[simp] theorem State.giveSlot_mem (s : State) x1 : (s.giveSlot x1).mem = s.mem := by unfold State.giveSlot; simp only; (repeat' split) <;> simp_all
@[simp] theorem State.modSaved_mem (s : State) x1 x2 : (s.modSaved x1 x2).mem = s.mem := rfl
@[simp] theorem State.recomputed_wf (s : State) x1 (h : memWf s.mem = true) : memWf (s.recomputed x1).mem = true := by unfold State.recomputed; (repeat' split) <;> simp +contextual [h, foldl_wf]
@[simp] theorem State.notRecomputed_wf (s : State) x1 (h : memWf s.mem = true) : memWf (s.notRecomputed x1).mem = true := by unfold State.notRecomputed; (repeat' split) <;> simp +contextual [h, foldl_wf]
@[simp] theorem State.csrWrite_mem (s : State) x1 x2 : (s.csrWrite x1 x2).mem = s.mem := by unfold State.csrWrite; (repeat' split) <;> simp
theorem State.poke_retire_wf (s : State) ws o (h : memWf s.mem = true) : memWf ((s.poke ws).retire o).mem = true :=
  State.retire_wf _ _ (State.poke_wf _ _ h)
@[simp] theorem State.vecElementwise_wf (s : State) o (h : memWf s.mem = true) : memWf (s.vecElementwise o).mem = true := by
  unfold State.vecElementwise; simp only; split
  · split
    · exact State.opError_wf _ _ _ _ (by simp [h])
    · exact State.retire_wf _ _ (by simp [h])
  · split
    · exact State.opError_wf _ _ _ _ h
    · exact State.poke_retire_wf _ _ _ h
@[simp] theorem State.vecComparison_wf (s : State) o p (h : memWf s.mem = true) : memWf (s.vecComparison o p).mem = true := by
  unfold State.vecComparison; simp only; split
  · exact State.opError_wf _ _ _ _ h
  · exact State.retire_wf _ _ (by simp [h])
@[simp] theorem State.vecLogic_wf (s : State) o p v (h : memWf s.mem = true) : memWf (s.vecLogic o p v).mem = true :=
  State.retire_wf _ _ (by simp [h])
@[simp] theorem State.vecScattering_wf (s : State) o (h : memWf s.mem = true) : memWf (s.vecScattering o).mem = true := by
  unfold State.vecScattering; simp only; split
  · exact State.opError_wf _ _ _ _ h
  · exact State.poke_retire_wf _ _ _ h
@[simp] theorem State.vecReduction_wf (s : State) o (h : memWf s.mem = true) : memWf (s.vecReduction o).mem = true := by
  unfold State.vecReduction; simp only; split
  · exact State.opError_wf _ _ _ _ h
  · split
    · exact State.retire_wf _ _ h
    · exact State.poke_retire_wf _ _ _ h
@[simp] theorem State.vecQuantise_wf (s : State) o (h : memWf s.mem = true) : memWf (s.vecQuantise o).mem = true := by
  unfold State.vecQuantise; simp only; split
  · exact State.opError_wf _ _ _ _ h
  · exact State.poke_retire_wf _ _ _ h
@[simp] theorem State.vecRun_wf (s : State) o (h : memWf s.mem = true) : memWf (s.vecRun o).mem = true := by
  unfold State.vecRun; simp only
  split
  all_goals first
    | exact State.vecComparison_wf _ _ _ h
    | exact State.vecLogic_wf _ _ _ _ h
    | exact State.vecScattering_wf _ _ h
    | exact State.vecReduction_wf _ _ h
    | exact State.vecQuantise_wf _ _ h
    | exact State.vecElementwise_wf _ _ h
@[simp] theorem State.captureLatch_mem (s : State) x1 x2 : (s.captureLatch x1 x2).mem = s.mem := rfl
@[simp] theorem State.putWords_wf (s : State) ws (h : memWf s.mem = true) : memWf (s.putWords ws).mem = true :=
  State.poke_wf _ _ h
@[simp] theorem State.meetPair_mem (s : State) x1 : (s.meetPair x1).mem = s.mem := by simp [State.meetPair]
@[simp] theorem State.cubeProduct_wf (s : State) o (h : memWf s.mem = true) : memWf (s.cubeProduct o).mem = true := by
  unfold State.cubeProduct; simp only; split
  · exact State.opError_wf _ _ _ _ h
  · refine State.retire_wf _ _ ?_
    (repeat' split) <;> simp [h]
@[simp] theorem State.cubeZero_wf (s : State) o (h : memWf s.mem = true) : memWf (s.cubeZero o).mem = true :=
  State.retire_wf _ _ (State.putWords_wf _ _ h)
@[simp] theorem State.cubeRead_wf (s : State) o (h : memWf s.mem = true) : memWf (s.cubeRead o).mem = true := by
  unfold State.cubeRead; split
  · exact State.opError_wf _ _ _ _ h
  · exact State.poke_retire_wf _ _ _ h
@[simp] theorem State.toPort_mem (s : State) x1 : (s.toPort x1).mem = s.mem := by simp [State.toPort]
@[simp] theorem State.toRing_wf (s : State) x1 (h : memWf s.mem = true) : memWf (s.toRing x1).mem = true := by unfold State.toRing; simp only; (repeat' split) <;> simp_all
@[simp] theorem State.telemetryRecord_wf (s : State) x1 (h : memWf s.mem = true) : memWf (s.telemetryRecord x1).mem = true := by simp [State.telemetryRecord, h]
@[simp] theorem State.takeSample_wf (s : State) x1 x2 (h : memWf s.mem = true) : memWf (s.takeSample x1 x2).mem = true := by simp [State.takeSample, h]
@[simp] theorem State.countPeriods_mem (s : State) x1 x2 : (s.countPeriods x1 x2).mem = s.mem := rfl
@[simp] theorem State.foresee_mem (s : State) : (s.foresee).mem = s.mem := by unfold State.foresee; (repeat' split) <;> simp
@[simp] theorem State.raiseBack_mem (s : State) : (s.raiseBack).mem = s.mem := by unfold State.raiseBack; (repeat' split) <;> simp
@[simp] theorem State.stackEvent_wf (s : State) x1 x2 x3 x4 x5 (h : memWf s.mem = true) : memWf (s.stackEvent x1 x2 x3 x4 x5).mem = true := by simp [State.stackEvent, h]
@[simp] theorem State.setStep_wf (s : State) x1 x2 (h : memWf s.mem = true) : memWf (s.setStep x1 x2).mem = true := by unfold State.setStep; (repeat' split) <;> simp [h]
@[simp] theorem State.throttled_mem (s : State) x1 : (s.throttled x1).mem = s.mem := by simp [State.throttled]
@[simp] theorem State.retireBundle_wf (s : State) x1 x2 x3 x4 (h : memWf s.mem = true) : memWf (s.retireBundle x1 x2 x3 x4).mem = true := by unfold State.retireBundle; simp only; (repeat' split) <;> simp_all
@[simp] theorem State.retireBus_wf (s : State) x1 x2 (h : memWf s.mem = true) : memWf (s.retireBus x1 x2).mem = true := by unfold State.retireBus; (repeat' split) <;> simp [h]
@[simp] theorem State.failIteration_wf (s : State) o a (h : memWf s.mem = true) : memWf (s.failIteration o a).mem = true := by
  rw [State.failIteration, State.logError_mem]; exact State.haltSchedule_wf _ _ _ _ _ _ _ h
@[simp] theorem State.failCopy_wf (s : State) o a (h : memWf s.mem = true) : memWf (s.failCopy o a).mem = true :=
  State.opError_wf _ _ _ _ (State.record_wf _ _ _ _ _ _ _ _ _ _ (State.landSome_wf _ _ _ h))
@[simp] theorem State.weightError_wf (s : State) o a (h : memWf s.mem = true) : memWf (s.weightError o a).mem = true := by
  have h1 := State.record_wf s o.ctx o.regs.copy stFault 0 0 0 cMcheck 0 a h
  unfold State.weightError; simp only; split
  · rw [State.logError_mem]; exact h1
  · exact State.opError_wf _ _ _ _ h1
@[simp] theorem State.failOp_wf (s : State) o a (h : memWf s.mem = true) : memWf (s.failOp o a).mem = true := by
  have h1 : memWf (match o.engine, o.chainIn with
    | 2, some id => (transposeIn o.regs.tcfg).elim s (fun q => s.dropEntry o.core q id)
    | 3, some id => (updateIn o.regs.ucfg).elim s (fun q => s.dropEntry o.core q id)
    | _, _ => s).mem = true := by
    split
    · cases transposeIn o.regs.tcfg <;> exact h
    · cases updateIn o.regs.ucfg <;> exact h
    · exact h
  unfold State.failOp; simp only
  split
  · exact State.opError_wf _ _ _ _ h1
  · exact State.opError_wf _ _ _ _ h1
@[simp] theorem State.lostOp_wf (s : State) o (h : memWf s.mem = true) : memWf (s.lostOp o).mem = true := by
  unfold State.lostOp; simp only; split
  · split
    · exact State.failIteration_wf _ _ _ h
    · exact State.failCopy_wf _ _ _ h
  · exact State.weightError_wf _ _ _ h
  · exact State.failOp_wf _ _ _ h
@[simp] theorem State.modRontal_mem (s : State) x1 : (s.modRontal x1).mem = s.mem := rfl
@[simp] theorem State.flushMap_wf (s : State) (h : memWf s.mem = true) : memWf (s.flushMap).mem = true := by
  unfold State.flushMap; split
  · exact h
  · exact foldl_wf _ _ _ (fun s a h => by simp [h]) h
@[simp] theorem State.halt_mem (s : State) x1 x2 x3 : (s.halt x1 x2 x3).mem = s.mem := rfl
theorem State.memAfter_wf (s : State) k (h : memWf s.mem = true) : memWf (s.memAfter k) = true :=
  memWf_foldl_set _ (fun c : Host.Cell => c.1) (fun _ c => c.2) _ (memWf_filter _ _ h)
@[simp] theorem State.rekeyed_wf (s : State) (h : memWf s.mem = true) : memWf s.rekeyed = true :=
  memWf_foldl_set _ (fun c : Host.Cell => c.1) (fun _ c => c.2) _ (memWf_filter _ _ h)
@[simp] theorem State.fresh'_wf (s : State) c k (h : memWf s.mem = true) : memWf (s.fresh' c k).mem = true :=
  s.memAfter_wf k h
@[simp] theorem State.train_mem (s : State) x1 : (s.train x1).mem = s.mem := rfl
@[simp] theorem State.ready_mem (s : State) x1 x2 x3 : (s.ready x1 x2 x3).mem = s.mem := rfl
@[simp] theorem State.loadImage_mem (s : State) x1 : (s.loadImage x1).mem = s.mem := rfl
@[simp] theorem State.signDevice_mem (s : State) : (s.signDevice).mem = s.mem := rfl
@[simp] theorem State.spare_wf (s : State) x1 (h : memWf s.mem = true) : memWf (s.spare x1).mem = true := by unfold State.spare; (repeat' split) <;> simp +contextual [h, foldl_wf]
@[simp] theorem State.testBuses_mem (s : State) x1 : (s.testBuses x1).mem = s.mem := by
  refine foldl_mem _ _ _ fun s f => ?_
  split
  · split <;> rfl
  · rfl
@[simp] theorem State.coldRun_wf (u : State) x1 (h0 : memWf u.mem = true) : memWf (u.coldRun x1).mem = true := by
  unfold State.coldRun
  simp only
  have h1 : ∀ v : State, memWf v.mem = true → memWf ((({ v with time := v.rontal.timeStart.toNat } : State).fresh' true false)).mem = true :=
    fun v hv => State.fresh'_wf _ _ _ hv
  have h2 : memWf (if u.sectionOk then u else u.modRontal (fun r => { r with flashMap := [] })).mem = true := by split <;> simp [h0]
  generalize (if u.sectionOk then u else u.modRontal (fun r => { r with flashMap := [] })) = v at h2
  have h3 := h1 v h2
  (repeat' split) <;> simp_all
@[simp] theorem State.dumped_wf (s : State) (h : memWf s.mem = true) : memWf s.dumped = true :=
  memWf_foldl_set _ (fun c : Host.Cell => c.1) (fun _ c => c.2) _ (memWf_filter _ _ h)
@[simp] theorem State.logFatal_mem (s : State) x1 : (s.logFatal x1).mem = s.mem := by simp [State.logFatal]
@[simp] theorem State.askStart_mem (s : State) x1 : (s.askStart x1).mem = s.mem := by simp [State.askStart]
@[simp] theorem State.postEntries_mem (s : State) x1 x2 : (s.postEntries x1 x2).mem = s.mem := rfl
@[simp] theorem State.writeQueue_mem (s : State) x1 x2 x3 : (s.writeQueue x1 x2 x3).mem = s.mem := by unfold State.writeQueue; (repeat' split) <;> simp
@[simp] theorem State.acknowledge_mem (s : State) x1 x2 : (s.acknowledge x1 x2).mem = s.mem := rfl
@[simp] theorem State.writeMailbox_mem (s : State) x1 x2 : (s.writeMailbox x1 x2).mem = s.mem := by simp [State.writeMailbox]
@[simp] theorem State.writeWindow_mem (s : State) x1 : (s.writeWindow x1).mem = s.mem := rfl
@[simp] theorem State.writeBar_mem (s : State) x1 x2 : (s.writeBar x1 x2).mem = s.mem := by simp [State.writeBar]
@[simp] theorem State.mailReply_mem (s : State) x1 x2 x3 : (s.mailReply x1 x2 x3).mem = s.mem := rfl
@[simp] theorem State.answer_mem (s : State) x1 x2 x3 : (s.answer x1 x2 x3).mem = s.mem := rfl
@[simp] theorem State.alu_mem (s : State) x1 x2 x3 : (s.alu x1 x2 x3).mem = s.mem := by simp [State.alu]
@[simp] theorem State.claimHead_mem (s : State) x1 : (s.claimHead x1).mem = s.mem := by unfold State.claimHead; (repeat' split) <;> simp
@[simp] theorem State.transposeRun_wf (s : State) o e (h : memWf s.mem = true) : memWf (s.transposeRun o e).mem = true := by
  unfold State.transposeRun; simp only
  cases transposeIn o.regs.tcfg <;> cases o.chainIn <;> cases o.chainOut <;> simp only <;> (repeat' split) <;>
    (try simp only [State.dropEntry_mem]) <;>
    first
    | (with_reducible apply State.retire_wf); simp [h]
    | (with_reducible apply State.opError_wf); simp [h]
    | (with_reducible apply State.chainError_wf); simp [h]
theorem State.upstWrite_wf (s : State) o p q (l : List (List (Idx × Nat))) (ws : List (Idx × Nat) → List (Idx × Nat))
    (h : memWf s.mem = true) :
    memWf (((((l.foldl (fun (s : State) vs => (s.putElements p vs).putElements q (ws vs)) s).raceOpnd o p true).raceOpnd o q
      true).retire o)).mem = true :=
  State.retire_wf _ _ (State.raceOpnd_wf _ _ _ _ (State.raceOpnd_wf _ _ _ _
    (foldl_wf _ _ _ (fun s a h => by simp [h]) h)))
@[simp] theorem State.upstRun_wf (s : State) o e (h : memWf s.mem = true) : memWf (s.upstRun o e).mem = true := by
  unfold State.upstRun; simp only; split
  · rw [State.dropEntry_mem]; split
    · exact State.chainError_wf _ _ _ h
    · exact State.upstWrite_wf _ _ _ _ _ _ h
  · split
    · exact State.opError_wf _ _ _ _ h
    · exact State.upstWrite_wf _ _ _ _ _ _ h
@[simp] theorem State.logLock_wf (s : State) t va (h : memWf s.mem = true) : memWf (s.logLock t va).mem = true := by
  unfold State.logLock; (repeat' split) <;> simp [h]
@[simp] theorem State.tableNoted_wf (s : State) a (h : memWf s.mem = true) : memWf (s.tableNoted a).mem = true := by
  unfold State.tableNoted; (repeat' split) <;> simp [h]
@[simp] theorem State.shadeStore_mem (s : State) w : (s.shadeStore w).mem = s.mem := by
  unfold State.shadeStore; (repeat' split) <;> simp
@[simp] theorem State.demandBus_mem (s : State) k f : (s.demandBus k f).mem = s.mem := by
  unfold State.demandBus; (repeat' split) <;> first | rfl | simp
@[simp] theorem State.demandBank_mem (s : State) k l b : (s.demandBank k l b).mem = s.mem := by simp [State.demandBank]
@[simp] theorem State.demandFold_mem (s : State) k l : (s.demandFold k l).mem = s.mem := by simp [State.demandFold]
@[simp] theorem State.admitReady_mem (s : State) : s.admitReady.mem = s.mem := foldl_mem _ _ _ fun _ _ => rfl
@[simp] theorem State.switchOver_mem (s : State) o : (s.switchOver o).mem = s.mem := by
  unfold State.switchOver; (repeat' split) <;> simp
@[simp] theorem State.linked_mem (s : State) d a k : (s.linked d a k).mem = s.mem := by unfold State.linked; split <;> simp
@[simp] theorem State.busError_wf (s : State) q n i (h : memWf s.mem = true) : memWf (s.busError q n i).mem = true := by
  unfold State.busError; simp only; (repeat' split) <;> first | exact h | exact State.lostOp_wf _ _ (State.retireBus_wf _ _ _ h) |
    exact State.retireBus_wf _ _ _ h
@[simp] theorem State.atomicFailed_wf (s : State) i (h : memWf s.mem = true) : memWf (s.atomicFailed i).mem = true := by
  unfold State.atomicFailed; (repeat' split) <;> simp [h]
@[simp] theorem State.grantedFor_mem (s : State) p n l a : (s.grantedFor p n l a).mem = s.mem := by
  unfold State.grantedFor; simp only; (repeat' split) <;> rfl
@[simp] theorem State.loweringKnown_mem (s : State) n l a : (s.loweringKnown n l a).mem = s.mem := rfl
@[simp] theorem State.keepGrants_mem (s : State) n e : (s.keepGrants n e).mem = s.mem := by
  unfold State.keepGrants; split <;> simp
@[simp] theorem State.joinKnown_mem (s : State) n j l q m : (s.joinKnown n j l q m).mem = s.mem := by
  unfold State.joinKnown; simp only; (repeat' split) <;> simp
@[simp] theorem State.formWith_mem (s : State) n l q m : (s.formWith n l q m).mem = s.mem := by
  unfold State.formWith; simp only; split <;> simp
@[simp] theorem State.ackTransfer_mem (s : State) k r c : (s.ackTransfer k r c).mem = s.mem := by
  unfold State.ackTransfer; split <;> simp
@[simp] theorem State.agreeSwitch_mem (s : State) k d c : (s.agreeSwitch k d c).mem = s.mem := by
  unfold State.agreeSwitch; split <;> simp
@[simp] theorem State.keepRecords_mem (s : State) (s1 : State) : (s.keepRecords s1).mem = s.mem := by simp [State.keepRecords]
@[simp] theorem State.keepCode_mem (s : State) x1 x2 x3 : (s.keepCode x1 x2 x3).mem = s.mem := by unfold State.keepCode; simp only; (repeat' split) <;> simp
@[simp] theorem State.issued_mem (s : State) x1 x2 : (s.issued x1 x2).mem = s.mem := by simp [State.issued]
@[simp] theorem State.stallShort_wf (s : State) x1 (h : memWf s.mem = true) : memWf (s.stallShort x1).mem = true := by simp [State.stallShort, h]
@[simp] theorem State.takeAttached_wf (s : State) x1 x2 x3 (h : memWf s.mem = true) : memWf (s.takeAttached x1 x2 x3).mem = true := by simp [State.takeAttached, h]
@[simp] theorem State.wake_mem (s : State) x1 : (s.wake x1).mem = s.mem := by simp [State.wake]
@[simp] theorem State.wakeAll_mem (s : State) : (s.wakeAll).mem = s.mem := by simp [State.wakeAll]
@[simp] theorem State.passTime_mem (s : State) : (s.passTime).mem = s.mem := rfl
@[simp] theorem State.boot_wf (s : State) w (h : memWf s.mem = true) : memWf (s.boot w).mem = true :=
  memWf_write _ _ _ _ (memWf_write _ _ _ _ (memWf_write _ _ _ _ (memWf_write _ _ _ _ (memWf_zero _ _ _ h))))
@[simp] theorem State.withFetchWord_wf (s : State) n w (h : memWf s.mem = true) : memWf (s.withFetchWord n w).mem = true :=
  State.boot_wf _ _ h

end Sys2Proof.Machine
end

