-- ==== Sys2Proof/Laws/Fields.lean ====
section
/-! SUPPORT. The fields of an encoded word, format by format. -/

namespace Sys2Proof

theorem fld_bits {n lo : Nat} {w : BitVec 32} {v : BitVec n} (h : ∀ i, i < n → w.getLsbD (lo + i) = v.getLsbD i) :
    fld w lo n = v := by
  apply BitVec.eq_of_getLsbD_eq
  intro i hi
  simp only [fld, BitVec.getLsbD_extractLsb', hi, decide_true, Bool.true_and, h i hi]

/-- The header lies above every field of the body. -/
theorem fld_or_header (h : Header) (w : BitVec 32) (lo n : Nat) (hn : lo + n ≤ 28) :
    fld (h.bits ||| w) lo n = fld w lo n :=
  fld_bits (by
    intro i hi
    have : h.bits.getLsbD (lo + i) = false := by
      simp only [Header.bits, BitVec.getLsbD_append, BitVec.getLsbD_zero]
      grind
    simp [fld, this, hi])

@[simp] theorem fld_rr_0_1 (op : BitVec 6) (d a b : BitVec 5) (fn : BitVec 7) :
    fld (rr op d a b fn) 0 1 = fn.extractLsb' 0 1 := fld_bits (by grind [rr])
@[simp] theorem fld_rr_0_2 (op : BitVec 6) (d a b : BitVec 5) (fn : BitVec 7) :
    fld (rr op d a b fn) 0 2 = fn.extractLsb' 0 2 := fld_bits (by grind [rr])
@[simp] theorem fld_rr_0_3 (op : BitVec 6) (d a b : BitVec 5) (fn : BitVec 7) :
    fld (rr op d a b fn) 0 3 = fn.extractLsb' 0 3 := fld_bits (by grind [rr])
@[simp] theorem fld_rr_0_6 (op : BitVec 6) (d a b : BitVec 5) (fn : BitVec 7) :
    fld (rr op d a b fn) 0 6 = fn.extractLsb' 0 6 := fld_bits (by grind [rr])
@[simp] theorem fld_rr_0_7 (op : BitVec 6) (d a b : BitVec 5) (fn : BitVec 7) :
    fld (rr op d a b fn) 0 7 = fn := fld_bits (by grind [rr])
@[simp] theorem fld_rr_1_6 (op : BitVec 6) (d a b : BitVec 5) (fn : BitVec 7) :
    fld (rr op d a b fn) 1 6 = fn.extractLsb' 1 6 := fld_bits (by grind [rr])
@[simp] theorem fld_rr_12_5 (op : BitVec 6) (d a b : BitVec 5) (fn : BitVec 7) :
    fld (rr op d a b fn) 12 5 = a := fld_bits (by grind [rr])
@[simp] theorem fld_rr_17_5 (op : BitVec 6) (d a b : BitVec 5) (fn : BitVec 7) :
    fld (rr op d a b fn) 17 5 = d := fld_bits (by grind [rr])
@[simp] theorem fld_rr_2_5 (op : BitVec 6) (d a b : BitVec 5) (fn : BitVec 7) :
    fld (rr op d a b fn) 2 5 = fn.extractLsb' 2 5 := fld_bits (by grind [rr])
@[simp] theorem fld_rr_3_1 (op : BitVec 6) (d a b : BitVec 5) (fn : BitVec 7) :
    fld (rr op d a b fn) 3 1 = fn.extractLsb' 3 1 := fld_bits (by grind [rr])
@[simp] theorem fld_rr_6_1 (op : BitVec 6) (d a b : BitVec 5) (fn : BitVec 7) :
    fld (rr op d a b fn) 6 1 = fn.extractLsb' 6 1 := fld_bits (by grind [rr])
@[simp] theorem fld_rr_7_15 (op : BitVec 6) (d a b : BitVec 5) (fn : BitVec 7) :
    fld (rr op d a b fn) 7 15 = d ++ a ++ b := fld_bits (by grind [rr])
@[simp] theorem fld_rr_7_5 (op : BitVec 6) (d a b : BitVec 5) (fn : BitVec 7) :
    fld (rr op d a b fn) 7 5 = b := fld_bits (by grind [rr])
@[simp] theorem fld_rr_22_6 (op : BitVec 6) (d a b : BitVec 5) (fn : BitVec 7) :
    fld (rr op d a b fn) 22 6 = op := fld_bits (by grind [rr])
@[simp] theorem fld_rr_28_4 (op : BitVec 6) (d a b : BitVec 5) (fn : BitVec 7) :
    fld (rr op d a b fn) 28 4 = 0#4 := fld_bits (by grind [rr])
@[simp] theorem fld_im_0_12 (op : BitVec 6) (d : BitVec 5) (a : BitVec 5) (i : BitVec 12) :
    fld (im op d a i) 0 12 = i := fld_bits (by grind [im])
@[simp] theorem fld_im_0_6 (op : BitVec 6) (d : BitVec 5) (a : BitVec 5) (i : BitVec 12) :
    fld (im op d a i) 0 6 = i.extractLsb' 0 6 := fld_bits (by grind [im])
@[simp] theorem fld_im_12_5 (op : BitVec 6) (d : BitVec 5) (a : BitVec 5) (i : BitVec 12) :
    fld (im op d a i) 12 5 = a := fld_bits (by grind [im])
@[simp] theorem fld_im_17_5 (op : BitVec 6) (d : BitVec 5) (a : BitVec 5) (i : BitVec 12) :
    fld (im op d a i) 17 5 = d := fld_bits (by grind [im])
@[simp] theorem fld_im_6_1 (op : BitVec 6) (d : BitVec 5) (a : BitVec 5) (i : BitVec 12) :
    fld (im op d a i) 6 1 = i.extractLsb' 6 1 := fld_bits (by grind [im])
@[simp] theorem fld_im_7_5 (op : BitVec 6) (d : BitVec 5) (a : BitVec 5) (i : BitVec 12) :
    fld (im op d a i) 7 5 = i.extractLsb' 7 5 := fld_bits (by grind [im])
@[simp] theorem fld_im_22_6 (op : BitVec 6) (d : BitVec 5) (a : BitVec 5) (i : BitVec 12) :
    fld (im op d a i) 22 6 = op := fld_bits (by grind [im])
@[simp] theorem fld_im_28_4 (op : BitVec 6) (d : BitVec 5) (a : BitVec 5) (i : BitVec 12) :
    fld (im op d a i) 28 4 = 0#4 := fld_bits (by grind [im])
@[simp] theorem fld_lim_0_17 (op : BitVec 6) (d : BitVec 5) (i : BitVec 17) :
    fld (lim op d i) 0 17 = i := fld_bits (by grind [lim])
@[simp] theorem fld_lim_17_5 (op : BitVec 6) (d : BitVec 5) (i : BitVec 17) :
    fld (lim op d i) 17 5 = d := fld_bits (by grind [lim])
@[simp] theorem fld_lim_22_6 (op : BitVec 6) (d : BitVec 5) (i : BitVec 17) :
    fld (lim op d i) 22 6 = op := fld_bits (by grind [lim])
@[simp] theorem fld_lim_28_4 (op : BitVec 6) (d : BitVec 5) (i : BitVec 17) :
    fld (lim op d i) 28 4 = 0#4 := fld_bits (by grind [lim])
@[simp] theorem fld_mem_0_10 (op : BitVec 6) (d : BitVec 5) (b : BitVec 5) (sz : BitVec 2) (o : BitVec 10) :
    fld (mem op d b sz o) 0 10 = o := fld_bits (by grind [mem])
@[simp] theorem fld_mem_10_2 (op : BitVec 6) (d : BitVec 5) (b : BitVec 5) (sz : BitVec 2) (o : BitVec 10) :
    fld (mem op d b sz o) 10 2 = sz := fld_bits (by grind [mem])
@[simp] theorem fld_mem_12_5 (op : BitVec 6) (d : BitVec 5) (b : BitVec 5) (sz : BitVec 2) (o : BitVec 10) :
    fld (mem op d b sz o) 12 5 = b := fld_bits (by grind [mem])
@[simp] theorem fld_mem_17_5 (op : BitVec 6) (d : BitVec 5) (b : BitVec 5) (sz : BitVec 2) (o : BitVec 10) :
    fld (mem op d b sz o) 17 5 = d := fld_bits (by grind [mem])
@[simp] theorem fld_mem_22_6 (op : BitVec 6) (d : BitVec 5) (b : BitVec 5) (sz : BitVec 2) (o : BitVec 10) :
    fld (mem op d b sz o) 22 6 = op := fld_bits (by grind [mem])
@[simp] theorem fld_mem_28_4 (op : BitVec 6) (d : BitVec 5) (b : BitVec 5) (sz : BitVec 2) (o : BitVec 10) :
    fld (mem op d b sz o) 28 4 = 0#4 := fld_bits (by grind [mem])
@[simp] theorem fld_eng_0_1 (op : BitVec 6) (c a b : BitVec 5) (F : BitVec 6) (fl : BitVec 1) :
    fld (eng op c a b F fl) 0 1 = fl := fld_bits (by intro i hi; simp only [eng, BitVec.getLsbD_append]; grind)
@[simp] theorem fld_eng_0_7 (op : BitVec 6) (c a b : BitVec 5) (F : BitVec 6) (fl : BitVec 1) :
    fld (eng op c a b F fl) 0 7 = F ++ fl := fld_bits (by intro i hi; simp only [eng, BitVec.getLsbD_append]; grind)
@[simp] theorem fld_eng_1_2 (op : BitVec 6) (c a b : BitVec 5) (F : BitVec 6) (fl : BitVec 1) :
    fld (eng op c a b F fl) 1 2 = F.extractLsb' 0 2 := fld_bits (by intro i hi; simp only [eng, BitVec.getLsbD_append]; grind)
@[simp] theorem fld_eng_1_4 (op : BitVec 6) (c a b : BitVec 5) (F : BitVec 6) (fl : BitVec 1) :
    fld (eng op c a b F fl) 1 4 = F.extractLsb' 0 4 := fld_bits (by intro i hi; simp only [eng, BitVec.getLsbD_append]; grind)
@[simp] theorem fld_eng_1_6 (op : BitVec 6) (c a b : BitVec 5) (F : BitVec 6) (fl : BitVec 1) :
    fld (eng op c a b F fl) 1 6 = F := fld_bits (by intro i hi; simp only [eng, BitVec.getLsbD_append]; grind)
@[simp] theorem fld_eng_12_5 (op : BitVec 6) (c a b : BitVec 5) (F : BitVec 6) (fl : BitVec 1) :
    fld (eng op c a b F fl) 12 5 = a := fld_bits (by intro i hi; simp only [eng, BitVec.getLsbD_append]; grind)
@[simp] theorem fld_eng_17_5 (op : BitVec 6) (c a b : BitVec 5) (F : BitVec 6) (fl : BitVec 1) :
    fld (eng op c a b F fl) 17 5 = c := fld_bits (by intro i hi; simp only [eng, BitVec.getLsbD_append]; grind)
@[simp] theorem fld_eng_5_2 (op : BitVec 6) (c a b : BitVec 5) (F : BitVec 6) (fl : BitVec 1) :
    fld (eng op c a b F fl) 5 2 = F.extractLsb' 4 2 := fld_bits (by intro i hi; simp only [eng, BitVec.getLsbD_append]; grind)
@[simp] theorem fld_eng_5_7 (op : BitVec 6) (c a b : BitVec 5) (F : BitVec 6) (fl : BitVec 1) :
    fld (eng op c a b F fl) 5 7 = b ++ (F.extractLsb' 4 2) := fld_bits (by intro i hi; simp only [eng, BitVec.getLsbD_append]; grind)
@[simp] theorem fld_eng_7_10 (op : BitVec 6) (c a b : BitVec 5) (F : BitVec 6) (fl : BitVec 1) :
    fld (eng op c a b F fl) 7 10 = a ++ b := fld_bits (by intro i hi; simp only [eng, BitVec.getLsbD_append]; grind)
@[simp] theorem fld_eng_7_15 (op : BitVec 6) (c a b : BitVec 5) (F : BitVec 6) (fl : BitVec 1) :
    fld (eng op c a b F fl) 7 15 = c ++ a ++ b := fld_bits (by intro i hi; simp only [eng, BitVec.getLsbD_append]; grind)
@[simp] theorem fld_eng_7_5 (op : BitVec 6) (c a b : BitVec 5) (F : BitVec 6) (fl : BitVec 1) :
    fld (eng op c a b F fl) 7 5 = b := fld_bits (by intro i hi; simp only [eng, BitVec.getLsbD_append]; grind)
@[simp] theorem fld_eng_22_6 (op : BitVec 6) (c a b : BitVec 5) (F : BitVec 6) (fl : BitVec 1) :
    fld (eng op c a b F fl) 22 6 = op := fld_bits (by intro i hi; simp only [eng, BitVec.getLsbD_append]; grind)
@[simp] theorem fld_eng_28_4 (op : BitVec 6) (c a b : BitVec 5) (F : BitVec 6) (fl : BitVec 1) :
    fld (eng op c a b F fl) 28 4 = 0#4 := fld_bits (by intro i hi; simp only [eng, BitVec.getLsbD_append]; grind)
@[simp] theorem fld_lp_0_10 (op : BitVec 6) (lvl : BitVec 3) (sub : BitVec 3) (r : BitVec 16) :
    fld (lp op lvl sub r) 0 10 = r.extractLsb' 0 10 := fld_bits (by intro i hi; simp only [lp, BitVec.getLsbD_append]; grind)
@[simp] theorem fld_lp_0_11 (op : BitVec 6) (lvl : BitVec 3) (sub : BitVec 3) (r : BitVec 16) :
    fld (lp op lvl sub r) 0 11 = r.extractLsb' 0 11 := fld_bits (by intro i hi; simp only [lp, BitVec.getLsbD_append]; grind)
@[simp] theorem fld_lp_0_16 (op : BitVec 6) (lvl : BitVec 3) (sub : BitVec 3) (r : BitVec 16) :
    fld (lp op lvl sub r) 0 16 = r := fld_bits (by intro i hi; simp only [lp, BitVec.getLsbD_append]; grind)
@[simp] theorem fld_lp_0_5 (op : BitVec 6) (lvl : BitVec 3) (sub : BitVec 3) (r : BitVec 16) :
    fld (lp op lvl sub r) 0 5 = r.extractLsb' 0 5 := fld_bits (by intro i hi; simp only [lp, BitVec.getLsbD_append]; grind)
@[simp] theorem fld_lp_0_8 (op : BitVec 6) (lvl : BitVec 3) (sub : BitVec 3) (r : BitVec 16) :
    fld (lp op lvl sub r) 0 8 = r.extractLsb' 0 8 := fld_bits (by intro i hi; simp only [lp, BitVec.getLsbD_append]; grind)
@[simp] theorem fld_lp_10_5 (op : BitVec 6) (lvl : BitVec 3) (sub : BitVec 3) (r : BitVec 16) :
    fld (lp op lvl sub r) 10 5 = r.extractLsb' 10 5 := fld_bits (by intro i hi; simp only [lp, BitVec.getLsbD_append]; grind)
@[simp] theorem fld_lp_10_6 (op : BitVec 6) (lvl : BitVec 3) (sub : BitVec 3) (r : BitVec 16) :
    fld (lp op lvl sub r) 10 6 = r.extractLsb' 10 6 := fld_bits (by intro i hi; simp only [lp, BitVec.getLsbD_append]; grind)
@[simp] theorem fld_lp_11_5 (op : BitVec 6) (lvl : BitVec 3) (sub : BitVec 3) (r : BitVec 16) :
    fld (lp op lvl sub r) 11 5 = r.extractLsb' 11 5 := fld_bits (by intro i hi; simp only [lp, BitVec.getLsbD_append]; grind)
@[simp] theorem fld_lp_15_1 (op : BitVec 6) (lvl : BitVec 3) (sub : BitVec 3) (r : BitVec 16) :
    fld (lp op lvl sub r) 15 1 = r.extractLsb' 15 1 := fld_bits (by intro i hi; simp only [lp, BitVec.getLsbD_append]; grind)
@[simp] theorem fld_lp_16_3 (op : BitVec 6) (lvl : BitVec 3) (sub : BitVec 3) (r : BitVec 16) :
    fld (lp op lvl sub r) 16 3 = sub := fld_bits (by intro i hi; simp only [lp, BitVec.getLsbD_append]; grind)
@[simp] theorem fld_lp_19_3 (op : BitVec 6) (lvl : BitVec 3) (sub : BitVec 3) (r : BitVec 16) :
    fld (lp op lvl sub r) 19 3 = lvl := fld_bits (by intro i hi; simp only [lp, BitVec.getLsbD_append]; grind)
@[simp] theorem fld_lp_5_5 (op : BitVec 6) (lvl : BitVec 3) (sub : BitVec 3) (r : BitVec 16) :
    fld (lp op lvl sub r) 5 5 = r.extractLsb' 5 5 := fld_bits (by intro i hi; simp only [lp, BitVec.getLsbD_append]; grind)
@[simp] theorem fld_lp_8_8 (op : BitVec 6) (lvl : BitVec 3) (sub : BitVec 3) (r : BitVec 16) :
    fld (lp op lvl sub r) 8 8 = r.extractLsb' 8 8 := fld_bits (by intro i hi; simp only [lp, BitVec.getLsbD_append]; grind)
@[simp] theorem fld_lp_22_6 (op : BitVec 6) (lvl : BitVec 3) (sub : BitVec 3) (r : BitVec 16) :
    fld (lp op lvl sub r) 22 6 = op := fld_bits (by intro i hi; simp only [lp, BitVec.getLsbD_append]; grind)
@[simp] theorem fld_lp_28_4 (op : BitVec 6) (lvl : BitVec 3) (sub : BitVec 3) (r : BitVec 16) :
    fld (lp op lvl sub r) 28 4 = 0#4 := fld_bits (by intro i hi; simp only [lp, BitVec.getLsbD_append]; grind)
@[simp] theorem fld_sys_0_12 (op : BitVec 6) (x : BitVec 5) (fn5 : BitVec 5) (i : BitVec 12) :
    fld (sys op x fn5 i) 0 12 = i := fld_bits (by grind [sys])
@[simp] theorem fld_sys_0_2 (op : BitVec 6) (x : BitVec 5) (fn5 : BitVec 5) (i : BitVec 12) :
    fld (sys op x fn5 i) 0 2 = i.extractLsb' 0 2 := fld_bits (by grind [sys])
@[simp] theorem fld_sys_12_5 (op : BitVec 6) (x : BitVec 5) (fn5 : BitVec 5) (i : BitVec 12) :
    fld (sys op x fn5 i) 12 5 = fn5 := fld_bits (by grind [sys])
@[simp] theorem fld_sys_17_5 (op : BitVec 6) (x : BitVec 5) (fn5 : BitVec 5) (i : BitVec 12) :
    fld (sys op x fn5 i) 17 5 = x := fld_bits (by grind [sys])
@[simp] theorem fld_sys_2_10 (op : BitVec 6) (x : BitVec 5) (fn5 : BitVec 5) (i : BitVec 12) :
    fld (sys op x fn5 i) 2 10 = i.extractLsb' 2 10 := fld_bits (by grind [sys])
@[simp] theorem fld_sys_22_6 (op : BitVec 6) (x : BitVec 5) (fn5 : BitVec 5) (i : BitVec 12) :
    fld (sys op x fn5 i) 22 6 = op := fld_bits (by grind [sys])
@[simp] theorem fld_sys_28_4 (op : BitVec 6) (x : BitVec 5) (fn5 : BitVec 5) (i : BitVec 12) :
    fld (sys op x fn5 i) 28 4 = 0#4 := fld_bits (by grind [sys])

@[simp] theorem cut_1_6_6 (x : BitVec 1) (y : BitVec 6) : (x ++ y : BitVec 7).extractLsb' 6 1 = x :=
  BitVec.eq_of_getLsbD_eq (by grind)
@[simp] theorem cut_1_6_0 (x : BitVec 1) (y : BitVec 6) : (x ++ y : BitVec 7).extractLsb' 0 6 = y :=
  BitVec.eq_of_getLsbD_eq (by grind)
@[simp] theorem cut_2_4_4 (x : BitVec 2) (y : BitVec 4) : (x ++ y : BitVec 6).extractLsb' 4 2 = x :=
  BitVec.eq_of_getLsbD_eq (by grind)
@[simp] theorem cut_2_4_0 (x : BitVec 2) (y : BitVec 4) : (x ++ y : BitVec 6).extractLsb' 0 4 = y :=
  BitVec.eq_of_getLsbD_eq (by grind)
@[simp] theorem cut_4_3_0 (x : BitVec 4) (y : BitVec 3) : (x ++ y : BitVec 7).extractLsb' 0 3 = y :=
  BitVec.eq_of_getLsbD_eq (by grind)
@[simp] theorem cut_4_3_3 (x : BitVec 4) (y : BitVec 3) : (x ++ y : BitVec 7).extractLsb' 3 4 = x :=
  BitVec.eq_of_getLsbD_eq (by grind)
@[simp] theorem cut_6_1_0 (x : BitVec 6) (y : BitVec 1) : (x ++ y : BitVec 7).extractLsb' 0 1 = y :=
  BitVec.eq_of_getLsbD_eq (by grind)
@[simp] theorem cut_6_1_1 (x : BitVec 6) (y : BitVec 1) : (x ++ y : BitVec 7).extractLsb' 1 6 = x :=
  BitVec.eq_of_getLsbD_eq (by grind)
@[simp] theorem cut_3_1_3_3 (x : BitVec 3) (y : BitVec 1) (z : BitVec 3) : (x ++ y ++ z : BitVec 7).extractLsb' 3 1 = y :=
  BitVec.eq_of_getLsbD_eq (by grind)
@[simp] theorem cut_3_1_3_0 (x : BitVec 3) (y : BitVec 1) (z : BitVec 3) : (x ++ y ++ z : BitVec 7).extractLsb' 0 3 = z :=
  BitVec.eq_of_getLsbD_eq (by grind)
@[simp] theorem cut_3_1_3_4 (x : BitVec 3) (y : BitVec 1) (z : BitVec 3) : (x ++ y ++ z : BitVec 7).extractLsb' 4 3 = x :=
  BitVec.eq_of_getLsbD_eq (by grind)
@[simp] theorem cut_5_2_0 (x : BitVec 5) (y : BitVec 2) : (x ++ y : BitVec 7).extractLsb' 0 2 = y :=
  BitVec.eq_of_getLsbD_eq (by grind)
@[simp] theorem cut_5_2_2 (x : BitVec 5) (y : BitVec 2) : (x ++ y : BitVec 7).extractLsb' 2 5 = x :=
  BitVec.eq_of_getLsbD_eq (by grind)
@[simp] theorem cut_4_2_0 (x : BitVec 4) (y : BitVec 2) : (x ++ y : BitVec 6).extractLsb' 0 2 = y :=
  BitVec.eq_of_getLsbD_eq (by grind)
@[simp] theorem cut_4_2_2 (x : BitVec 4) (y : BitVec 2) : (x ++ y : BitVec 6).extractLsb' 2 4 = x :=
  BitVec.eq_of_getLsbD_eq (by grind)
@[simp] theorem cut_5_1_6_7 (x : BitVec 5) (y : BitVec 1) (z : BitVec 6) : (x ++ y ++ z : BitVec 12).extractLsb' 7 5 = x :=
  BitVec.eq_of_getLsbD_eq (by grind)
@[simp] theorem cut_5_1_6_6 (x : BitVec 5) (y : BitVec 1) (z : BitVec 6) : (x ++ y ++ z : BitVec 12).extractLsb' 6 1 = y :=
  BitVec.eq_of_getLsbD_eq (by grind)
@[simp] theorem cut_5_1_6_0 (x : BitVec 5) (y : BitVec 1) (z : BitVec 6) : (x ++ y ++ z : BitVec 12).extractLsb' 0 6 = z :=
  BitVec.eq_of_getLsbD_eq (by grind)
@[simp] theorem cut_8_8_8 (x : BitVec 8) (y : BitVec 8) : (x ++ y : BitVec 16).extractLsb' 8 8 = x :=
  BitVec.eq_of_getLsbD_eq (by grind)
@[simp] theorem cut_8_8_0 (x : BitVec 8) (y : BitVec 8) : (x ++ y : BitVec 16).extractLsb' 0 8 = y :=
  BitVec.eq_of_getLsbD_eq (by grind)
@[simp] theorem cut_1_5_5_5_15 (x : BitVec 1) (y : BitVec 5) (z : BitVec 5) (u : BitVec 5) : (x ++ y ++ z ++ u : BitVec 16).extractLsb' 15 1 = x :=
  BitVec.eq_of_getLsbD_eq (by grind)
@[simp] theorem cut_1_5_5_5_10 (x : BitVec 1) (y : BitVec 5) (z : BitVec 5) (u : BitVec 5) : (x ++ y ++ z ++ u : BitVec 16).extractLsb' 10 5 = y :=
  BitVec.eq_of_getLsbD_eq (by grind)
@[simp] theorem cut_1_5_5_5_5 (x : BitVec 1) (y : BitVec 5) (z : BitVec 5) (u : BitVec 5) : (x ++ y ++ z ++ u : BitVec 16).extractLsb' 5 5 = z :=
  BitVec.eq_of_getLsbD_eq (by grind)
@[simp] theorem cut_1_5_5_5_0 (x : BitVec 1) (y : BitVec 5) (z : BitVec 5) (u : BitVec 5) : (x ++ y ++ z ++ u : BitVec 16).extractLsb' 0 5 = u :=
  BitVec.eq_of_getLsbD_eq (by grind)
@[simp] theorem cut_10_2_2 (x : BitVec 10) (y : BitVec 2) : (x ++ y : BitVec 12).extractLsb' 2 10 = x :=
  BitVec.eq_of_getLsbD_eq (by grind)
@[simp] theorem cut_10_2_0 (x : BitVec 10) (y : BitVec 2) : (x ++ y : BitVec 12).extractLsb' 0 2 = y :=
  BitVec.eq_of_getLsbD_eq (by grind)
@[simp] theorem cut_5_11_11 (x : BitVec 5) (y : BitVec 11) : (x ++ y : BitVec 16).extractLsb' 11 5 = x :=
  BitVec.eq_of_getLsbD_eq (by grind)
@[simp] theorem cut_5_11_0 (x : BitVec 5) (y : BitVec 11) : (x ++ y : BitVec 16).extractLsb' 0 11 = y :=
  BitVec.eq_of_getLsbD_eq (by grind)
@[simp] theorem cut_6_10_10 (x : BitVec 6) (y : BitVec 10) : (x ++ y : BitVec 16).extractLsb' 10 6 = x :=
  BitVec.eq_of_getLsbD_eq (by grind)
@[simp] theorem cut_6_10_0 (x : BitVec 6) (y : BitVec 10) : (x ++ y : BitVec 16).extractLsb' 0 10 = y :=
  BitVec.eq_of_getLsbD_eq (by grind)

end Sys2Proof
end

