-- ==== Sys2Proof/Laws/Outcomes.lean ====
section
/-! SUPPORT. Every instruction gives a next state, in which memory is in its canonical form: no meaning faults or is
refused. -/

set_option Elab.async false
set_option linter.unusedSimpArgs false

namespace Sys2Proof.Machine

/-- The outcome is a next state whose memory is in canonical form. -/
def Good (o : Host.Outcome State Fault Refusal) : Prop := ∃ t, o = .next t ∧ memWf t.mem = true

theorem perform_good {α : Type} {chk : Chk α} {eff : α → State} {s : State} (h : memWf s.mem = true)
    (he : ∀ a, memWf (eff a).mem = true) : Good (perform chk eff s) := by
  unfold perform
  split
  · exact ⟨_, rfl, he _⟩
  · exact ⟨_, rfl, State.precise_wf _ _ h⟩
  · exact ⟨_, rfl, h⟩

theorem performOn_good {α : Type} {e : BitVec 5} {chk : Chk α} {eff : α → State} {s : State} (h : memWf s.mem = true)
    (he : ∀ a, memWf (eff a).mem = true) : Good (performOn e chk eff s) := perform_good h he

theorem always_good {eff : State → State} {s : State} (h : memWf s.mem = true) (he : memWf (eff s).mem = true) :
    Good (always eff s) := perform_good h fun _ => he

theorem happen_good {s : State} (h : memWf s.mem = true) : Good (happen s) := ⟨s, rfl, h⟩

theorem atOnce_good {α : Type} {chk : Chk α} {eff : α → State} {s : State} (h : memWf s.mem = true)
    (he : ∀ a, memWf (eff a).mem = true) : Good (atOnce chk eff s) := performOn_good h fun a => by simp [he a]

theorem State.loadOp_good (s : State) d a n sg (h : memWf s.mem = true) : Good (s.loadOp d a n sg) :=
  perform_good h fun t => by cases t <;> simp [h]

theorem State.storeOp_good (s : State) v a n (h : memWf s.mem = true) : Good (s.storeOp v a n) :=
  perform_good h fun t => by cases t <;> simp [h]

theorem State.atomicOp_good (s : State) op d a b z (h : memWf s.mem = true) : Good (s.atomicOp op d a b z) :=
  perform_good h fun t => by cases t <;> simp [h]

theorem State.copyWord_good (s : State) f i c a b (h : memWf s.mem = true) : Good (s.copyWord f i c a b) := by
  refine performOn_good h fun p => ?_
  simp only [State.modCopyRegs_mem]
  split <;> split <;> simp [h]

theorem State.vecWord_good (s : State) v (h : memWf s.mem = true) : Good (s.vecWord v) := by
  refine performOn_good h fun p => ?_
  simp only
  split <;> simp [h]

theorem State.cubeWord_good (s : State) w (h : memWf s.mem = true) : Good (s.cubeWord w) := by
  refine performOn_good h fun p => ?_
  simp only
  split <;> simp [h]

theorem State.transposeWord_good (s : State) i c a f (h : memWf s.mem = true) : Good (s.transposeWord i c a f) := by
  refine performOn_good h fun p => ?_
  simp only
  split <;> simp [h]

/-! The meanings. -/

theorem execLdB_good x0 x1 x2 (s : State) (h : memWf s.mem = true) : Good (execLdB x0 x1 x2 s) :=
  State.loadOp_good _ _ _ _ _ h
theorem execLdH_good x0 x1 x2 (s : State) (h : memWf s.mem = true) : Good (execLdH x0 x1 x2 s) :=
  State.loadOp_good _ _ _ _ _ h
theorem execLdW_good x0 x1 x2 (s : State) (h : memWf s.mem = true) : Good (execLdW x0 x1 x2 s) :=
  State.loadOp_good _ _ _ _ _ h
theorem execLdD_good x0 x1 x2 (s : State) (h : memWf s.mem = true) : Good (execLdD x0 x1 x2 s) :=
  State.loadOp_good _ _ _ _ _ h
theorem execLdBu_good x0 x1 x2 (s : State) (h : memWf s.mem = true) : Good (execLdBu x0 x1 x2 s) :=
  State.loadOp_good _ _ _ _ _ h
theorem execLdHu_good x0 x1 x2 (s : State) (h : memWf s.mem = true) : Good (execLdHu x0 x1 x2 s) :=
  State.loadOp_good _ _ _ _ _ h
theorem execLdWu_good x0 x1 x2 (s : State) (h : memWf s.mem = true) : Good (execLdWu x0 x1 x2 s) :=
  State.loadOp_good _ _ _ _ _ h
theorem execStB_good x0 x1 x2 (s : State) (h : memWf s.mem = true) : Good (execStB x0 x1 x2 s) :=
  State.storeOp_good _ _ _ _ h
theorem execStH_good x0 x1 x2 (s : State) (h : memWf s.mem = true) : Good (execStH x0 x1 x2 s) :=
  State.storeOp_good _ _ _ _ h
theorem execStW_good x0 x1 x2 (s : State) (h : memWf s.mem = true) : Good (execStW x0 x1 x2 s) :=
  State.storeOp_good _ _ _ _ h
theorem execStD_good x0 x1 x2 (s : State) (h : memWf s.mem = true) : Good (execStD x0 x1 x2 s) :=
  State.storeOp_good _ _ _ _ h
theorem execHld_good x0 x1 x2 (s : State) (h : memWf s.mem = true) : Good (execHld x0 x1 x2 s) :=
  by unfold execHld; refine perform_good h fun a => ?_; (repeat' split) <;> simp [h]
theorem execHst_good x0 x1 x2 (s : State) (h : memWf s.mem = true) : Good (execHst x0 x1 x2 s) :=
  State.storeOp_good _ _ _ _ h
theorem execHdrop_good x0 x1 (s : State) (h : memWf s.mem = true) : Good (execHdrop x0 x1 s) :=
  by unfold execHdrop; refine perform_good h fun a => ?_; first | exact h | simp [h]
theorem execAadd_good x0 x1 x2 x3 (s : State) (h : memWf s.mem = true) : Good (execAadd x0 x1 x2 x3 s) :=
  State.atomicOp_good _ _ _ _ _ _ h
theorem execAand_good x0 x1 x2 x3 (s : State) (h : memWf s.mem = true) : Good (execAand x0 x1 x2 x3 s) :=
  State.atomicOp_good _ _ _ _ _ _ h
theorem execAor_good x0 x1 x2 x3 (s : State) (h : memWf s.mem = true) : Good (execAor x0 x1 x2 x3 s) :=
  State.atomicOp_good _ _ _ _ _ _ h
theorem execAxor_good x0 x1 x2 x3 (s : State) (h : memWf s.mem = true) : Good (execAxor x0 x1 x2 x3 s) :=
  State.atomicOp_good _ _ _ _ _ _ h
theorem execAmin_good x0 x1 x2 x3 (s : State) (h : memWf s.mem = true) : Good (execAmin x0 x1 x2 x3 s) :=
  State.atomicOp_good _ _ _ _ _ _ h
theorem execAmax_good x0 x1 x2 x3 (s : State) (h : memWf s.mem = true) : Good (execAmax x0 x1 x2 x3 s) :=
  State.atomicOp_good _ _ _ _ _ _ h
theorem execAminu_good x0 x1 x2 x3 (s : State) (h : memWf s.mem = true) : Good (execAminu x0 x1 x2 x3 s) :=
  State.atomicOp_good _ _ _ _ _ _ h
theorem execAmaxu_good x0 x1 x2 x3 (s : State) (h : memWf s.mem = true) : Good (execAmaxu x0 x1 x2 x3 s) :=
  State.atomicOp_good _ _ _ _ _ _ h
theorem execAswap_good x0 x1 x2 x3 (s : State) (h : memWf s.mem = true) : Good (execAswap x0 x1 x2 x3 s) :=
  State.atomicOp_good _ _ _ _ _ _ h
theorem execAcas_good x0 x1 x2 x3 (s : State) (h : memWf s.mem = true) : Good (execAcas x0 x1 x2 x3 s) :=
  State.atomicOp_good _ _ _ _ _ _ h
theorem execLoadDataReturn_good x0 (s : State) (h : memWf s.mem = true) : Good (execLoadDataReturn x0 s) :=
  by unfold execLoadDataReturn; with_reducible apply happen_good; (repeat' split) <;> simp [h]
theorem execStorePerformed_good x0 (s : State) (h : memWf s.mem = true) : Good (execStorePerformed x0 s) :=
  by unfold execStorePerformed; with_reducible apply happen_good; (repeat' split) <;> simp [h]
theorem execBind_good x0 x1 (s : State) (h : memWf s.mem = true) : Good (execBind x0 x1 s) :=
  by unfold execBind; refine perform_good h fun a => ?_; (repeat' split) <;> simp [h]
theorem execAcq_good x0 x1 (s : State) (h : memWf s.mem = true) : Good (execAcq x0 x1 s) :=
  by unfold execAcq; refine perform_good h fun a => ?_; first | exact h | simp [h]
theorem execRel_good x0 x1 (s : State) (h : memWf s.mem = true) : Good (execRel x0 x1 s) :=
  by unfold execRel; refine perform_good h fun a => ?_; first | exact h | simp [h]
theorem execFenceAcq_good x0 (s : State) (h : memWf s.mem = true) : Good (execFenceAcq x0 s) :=
  by unfold execFenceAcq; refine perform_good h fun a => ?_; first | exact h | simp [h]
theorem execFenceRel_good x0 (s : State) (h : memWf s.mem = true) : Good (execFenceRel x0 s) :=
  by unfold execFenceRel; refine perform_good h fun a => ?_; first | exact h | simp [h]
theorem execFence_good x0 (s : State) (h : memWf s.mem = true) : Good (execFence x0 s) :=
  by unfold execFence; refine perform_good h fun a => ?_; first | exact h | simp [h]
theorem execLfence_good  (s : State) (h : memWf s.mem = true) : Good (execLfence s) :=
  by unfold execLfence; refine perform_good h fun a => ?_; first | exact h | simp [h]
theorem execIfence_good  (s : State) (h : memWf s.mem = true) : Good (execIfence s) :=
  by unfold execIfence; refine perform_good h fun a => ?_; first | exact h | simp [h]
theorem execEwr_good x0 x1 x2 (s : State) (h : memWf s.mem = true) : Good (execEwr x0 x1 x2 s) :=
  by unfold execEwr; refine perform_good h fun a => ?_; first | exact h | simp [h]
theorem execErd_good x0 x1 x2 (s : State) (h : memWf s.mem = true) : Good (execErd x0 x1 x2 s) :=
  by unfold execErd; refine perform_good h fun a => ?_; first | exact h | simp [h]
theorem execEdrain_good  (s : State) (h : memWf s.mem = true) : Good (execEdrain s) :=
  always_good h (by simp [h])
theorem execEfence_good  (s : State) (h : memWf s.mem = true) : Good (execEfence s) :=
  by unfold execEfence; refine perform_good h fun a => ?_; first | exact h | simp [h]
theorem execGinit_good x0 x1 (s : State) (h : memWf s.mem = true) : Good (execGinit x0 x1 s) :=
  by unfold execGinit; refine perform_good h fun a => ?_; first | exact h | simp [h]
theorem execGwait_good x0 x1 x2 (s : State) (h : memWf s.mem = true) : Good (execGwait x0 x1 x2 s) :=
  by unfold execGwait; refine perform_good h fun a => ?_; first | exact h | simp [h]
theorem execGread_good x0 x1 (s : State) (h : memWf s.mem = true) : Good (execGread x0 x1 s) :=
  by unfold execGread; refine perform_good h fun a => ?_; first | exact h | simp [h]
theorem State.openBars_mem (s : State) (l : List Nat) (f : Ctx → Ctx) :
    (l.foldl (fun (s : State) d => s.modCtx d f) s).mem = s.mem := foldl_mem _ _ _ fun _ _ => rfl
theorem execGbar_good (s : State) (h : memWf s.mem = true) : Good (execGbar s) := by
  unfold execGbar
  refine atOnce_good h fun a => ?_
  simp only [State.setFloor_mem, State.newInterval_mem, State.modMe_mem, State.openBars_mem]
  exact h
theorem execWaitc_good x0 (s : State) (h : memWf s.mem = true) : Good (execWaitc x0 s) :=
  by unfold execWaitc; refine perform_good h fun a => ?_; first | exact h | simp [h]
theorem execCpy_good x0 x1 x2 (s : State) (h : memWf s.mem = true) : Good (execCpy x0 x1 x2 s) :=
  State.copyWord_good _ _ _ _ _ _ h
theorem execCpym_good x0 x1 x2 (s : State) (h : memWf s.mem = true) : Good (execCpym x0 x1 x2 s) :=
  State.copyWord_good _ _ _ _ _ _ h
theorem execRrot_good x0 x1 x2 (s : State) (h : memWf s.mem = true) : Good (execRrot x0 x1 x2 s) :=
  State.copyWord_good _ _ _ _ _ _ h
theorem ite_wf {c : Prop} [Decidable c] {s t : State} (hs : memWf s.mem = true) (ht : memWf t.mem = true) :
    memWf (if c then s else t).mem = true := by
  split
  · exact hs
  · exact ht
theorem State.foldl_put_wf (s : State) (l : List (Opnd × List (Idx × Nat))) (h : memWf s.mem = true) :
    memWf (l.foldl (fun (s : State) p => s.putElements p.1 p.2) s).mem = true :=
  foldl_wf _ _ _ (fun s p h => s.putElements_wf p.1 p.2 h) h
theorem State.lastLanding_wf (s : State) (id : Nat) (h : memWf s.mem = true) :
    memWf (match s.copy? id with
      | some p => if p.recvs.isEmpty then s.finishCopy p else s
      | none => s).mem = true := by
  split
  · exact ite_wf (State.finishCopy_wf _ _ h) h
  · exact h
theorem execCopyLanding_good (id recv : Nat) (s : State) (h : memWf s.mem = true) : Good (execCopyLanding id recv s) := by
  unfold execCopyLanding
  refine happen_good ?_
  split
  · exact h
  · next o _ =>
    refine ite_wf h (State.lastLanding_wf _ _ (ite_wf (State.countGauge_wf _ _ _ _ _ _ _ _ _ ?_) ?_)) <;>
      rw [State.modOp_mem] <;> refine ite_wf ?_ ?_ <;> try rw [State.dropRecord_mem]
    all_goals
      refine State.foldl_put_wf _ _ ?_
      rw [State.readRound_mem]
      exact State.raceOpnd_wf _ _ _ _ (State.raceOpnd_wf _ _ _ _ h)
theorem execCcan_good x0 (s : State) (h : memWf s.mem = true) : Good (execCcan x0 s) :=
  by unfold execCcan; refine perform_good h fun a => ?_; (repeat' split) <;> simp [h]
theorem execCopyFault_good (id : Nat) (s : State) (h : memWf s.mem = true) : Good (execCopyFault id s) := by
  unfold execCopyFault
  refine happen_good ?_
  split
  · exact h
  · split
    · exact h
    · exact ite_wf (State.failCopy_wf _ _ _ h) h
theorem execHseq_good x0 x1 (s : State) (h : memWf s.mem = true) : Good (execHseq x0 x1 s) :=
  by unfold execHseq; refine perform_good h fun a => ?_; first | exact h | simp [h]
theorem execSbind_good (c q b : BitVec 5) (s : State) (h : memWf s.mem = true) : Good (execSbind c q b s) := by
  unfold execSbind; simp only
  split
  · exact atOnce_good h fun _ => by simp [h]
  · refine atOnce_good h fun l => ?_
    rw [State.modMe_mem]
    exact State.putRing_wf _ _ _ _ (State.putRing_wf _ _ _ _ (State.putRing_wf _ _ _ _ h))
theorem execSsch_good x0 (s : State) (h : memWf s.mem = true) : Good (execSsch x0 s) :=
  by unfold execSsch; refine perform_good h fun a => ?_; first | exact h | simp [h]
theorem execSadv_good  (s : State) (h : memWf s.mem = true) : Good (execSadv s) :=
  happen_good h
theorem execSres_good x0 (s : State) (h : memWf s.mem = true) : Good (execSres x0 s) :=
  by unfold execSres; refine perform_good h fun a => ?_; first | exact h | simp [h]
theorem execScheduleIterationStart_good x0 x1 (s : State) (h : memWf s.mem = true) : Good (execScheduleIterationStart x0 x1 s) :=
  by unfold execScheduleIterationStart; simp only; with_reducible apply happen_good; (repeat' split) <;> first | exact h | simp [h]
theorem execScheduleIterationLanding_good (id : Nat) (s : State) (h : memWf s.mem = true) :
    Good (execScheduleIterationLanding id s) := by
  unfold execScheduleIterationLanding
  refine happen_good ?_
  split
  · exact h
  · next o _ =>
    refine ite_wf h ?_
    split
    · exact State.failIteration_wf _ _ _ h
    · have h1 := State.foldl_put_wf _ (o.copyTo o.core ((s.raceOpnd o (o.arg 1) false).copyData o))
        (State.raceOpnd_wf s o (o.arg 1) false h)
      have h2 : ∀ t : State, memWf t.mem = true → memWf (match t.feeds o, o.slot with
          | some b, some (loc, _) =>
            (t.putRing loc 4 (BitVec.ofNat 32 (o.iter + 1))).modCtx o.ctx (fun x => x.modBind b (fun q =>
              { q with fillSeq := BitVec.ofNat 32 (o.iter + 1) }))
          | _, _ => t).mem = true := by
        intro t ht
        split
        · rw [State.modCtx_mem]; exact State.putRing_wf _ _ _ _ ht
        · exact ht
      exact h2 _ (ite_wf (State.countGauge_wf _ _ _ _ _ _ _ _ _ h1) h1)
theorem execWact_good x0 (s : State) (h : memWf s.mem = true) : Good (execWact x0 s) :=
  by unfold execWact; refine perform_good h fun a => ?_; first | exact h | simp [h]
theorem execWpre_good x0 (s : State) (h : memWf s.mem = true) : Good (execWpre x0 s) :=
  by unfold execWpre; refine perform_good h fun a => ?_; first | exact h | simp [h]
theorem execWref_good x0 (s : State) (h : memWf s.mem = true) : Good (execWref x0 s) :=
  by unfold execWref; refine perform_good h fun a => ?_; first | exact h | simp [h]
theorem execWld_good x0 x1 (s : State) (h : memWf s.mem = true) : Good (execWld x0 x1 s) :=
  by unfold execWld; refine perform_good h fun a => ?_; first | exact h | simp [h]
theorem execWldLanding_good x0 (s : State) (h : memWf s.mem = true) : Good (execWldLanding x0 s) :=
  by unfold execWldLanding; simp only; with_reducible apply happen_good; (repeat' split) <;> first | exact h | simp [h]
theorem execGuardRefresh_good x0 (s : State) (h : memWf s.mem = true) : Good (execGuardRefresh x0 s) :=
  by unfold execGuardRefresh; with_reducible apply happen_good; first | exact h | simp [h]
theorem execWst_good x0 x1 (s : State) (h : memWf s.mem = true) : Good (execWst x0 x1 s) :=
  by unfold execWst; refine perform_good h fun a => ?_; first | exact h | simp [h]
theorem execWstCompletion_good (id : Nat) (s : State) (h : memWf s.mem = true) : Good (execWstCompletion id s) := by
  unfold execWstCompletion
  refine happen_good ?_
  split
  · exact h
  · split
    · exact h
    · split
      · exact State.weightError_wf _ _ _ h
      · simp only
        split
        · refine State.poke_retire_wf _ _ _ ?_
          rw [foldl_mem _ _ _ fun _ _ => State.demandBank_mem _ _ _ _]; exact State.raceOpnd_wf _ _ _ _ h
        · exact State.weightError_wf _ _ _ h
theorem execTaskEnd_good (c : Nat) (s : State) (h : memWf s.mem = true) : Good (execTaskEnd c s) := by
  unfold execTaskEnd
  refine happen_good ?_
  split
  · exact h
  · split
    · exact h
    · have h1 : memWf (if (s.ctx c).ending = .finished then s else s.dropCopies c).mem = true := by
        split
        · exact h
        · exact State.dropCopies_wf _ _ h
      simp only
      generalize (if (s.ctx c).ending = .finished then s else s.dropCopies c) = t at h1 ⊢
      split
      · exact h1
      · refine State.countTask_wf _ _ _ (State.freeCtx_wf _ _ ?_)
        split
        · exact h1
        · rw [State.newInterval_mem]; exact h1
theorem execJopen_good (a : BitVec 5) (s : State) (h : memWf s.mem = true) : Good (execJopen a s) := by
  unfold execJopen; simp only
  split
  · exact ⟨_, rfl, h⟩
  · refine perform_good h fun e => ?_
    split
    · exact h
    · rw [State.modMe_mem]; exact State.writeRun_wf _ _ _ _ (State.joinPut_wf _ _ _ _ _ h)
theorem execJacc_good x0 x1 (s : State) (h : memWf s.mem = true) : Good (execJacc x0 x1 s) :=
  by unfold execJacc; simp only; split; exact always_good h h; exact perform_good h fun a => by simp [h]
theorem execJarr_good x0 x1 (s : State) (h : memWf s.mem = true) : Good (execJarr x0 x1 s) :=
  by unfold execJarr; refine perform_good h fun a => ?_; (repeat' split) <;> simp [h]
theorem execJaccCompletion_good (id : Nat) (s : State) (h : memWf s.mem = true) : Good (execJaccCompletion id s) := by
  unfold execJaccCompletion
  refine happen_good ?_
  split
  · exact h
  · next o _ =>
    split
    · exact State.arriveWaiting_wf _ _ (State.opError_wf _ _ _ _ h)
    · have h1 := State.raceOpnd_wf s o (o.arg 1) false h
      exact State.arriveWaiting_wf _ _ (State.retire_wf _ _ (ite_wf (State.writeRun_wf _ _ _ _ h1) h1))
theorem execJwait_good x0 (s : State) (h : memWf s.mem = true) : Good (execJwait x0 s) :=
  by unfold execJwait; refine perform_good h fun a => ?_; first | exact h | simp [h]
theorem execKpt_good  (s : State) (h : memWf s.mem = true) : Good (execKpt s) :=
  always_good h (by simp [h])
theorem execStragglerKill_good x0 (s : State) (h : memWf s.mem = true) : Good (execStragglerKill x0 s) :=
  by unfold execStragglerKill; with_reducible apply happen_good; (repeat' split) <;> simp [h]
theorem execVpub_good x0 x1 (s : State) (h : memWf s.mem = true) : Good (execVpub x0 x1 s) :=
  by unfold execVpub; refine perform_good h fun a => ?_; first | exact h | simp [h]
theorem execVswt_good x0 (s : State) (h : memWf s.mem = true) : Good (execVswt x0 s) :=
  by unfold execVswt; refine perform_good h fun a => ?_; first | exact h | simp [h]
theorem execTemit_good (c a b : BitVec 5) (s : State) (h : memWf s.mem = true) : Good (execTemit c a b s) := by
  unfold execTemit
  refine perform_good h fun p => ?_
  obtain ⟨slot, o, keep⟩ := p
  show memWf (State.modMe _ _).mem = true
  rw [State.modMe_mem]
  refine State.advanceTail_wf _ _ _ (State.putElements_wf _ _ _ (State.claimSlot_wf _ _ ?_))
  rw [foldl_mem _ _ _ (fun _ _ => State.cacheRecord_mem _ _ _ _)]; exact h
theorem execVersionPublication_good x0 x1 (s : State) (h : memWf s.mem = true) : Good (execVersionPublication x0 x1 s) :=
  happen_good h
theorem execDoorbell_good x0 x1 (s : State) (h : memWf s.mem = true) : Good (execDoorbell x0 x1 s) :=
  happen_good h
theorem execLaunchBegin_good  (s : State) (h : memWf s.mem = true) : Good (execLaunchBegin s) :=
  by unfold execLaunchBegin; with_reducible apply happen_good; (repeat' split) <;> simp [h]
theorem execGroupPlacement_good x0 (s : State) (h : memWf s.mem = true) : Good (execGroupPlacement x0 s) :=
  by unfold execGroupPlacement; with_reducible apply happen_good; (repeat' split) <;> simp [h]
theorem execColl_good x0 (s : State) (h : memWf s.mem = true) : Good (execColl x0 s) :=
  by unfold execColl; refine perform_good h fun a => ?_; first | exact h | simp [h]
theorem execCollJ_good x0 x1 (s : State) (h : memWf s.mem = true) : Good (execCollJ x0 x1 s) :=
  by unfold execCollJ; refine perform_good h fun a => ?_; first | exact h | simp [h]
theorem execCsig_good x0 x1 (s : State) (h : memWf s.mem = true) : Good (execCsig x0 x1 s) :=
  by unfold execCsig; refine perform_good h fun a => ?_; first | exact h | simp [h]
theorem execCollectiveFold_good x0 (s : State) (h : memWf s.mem = true) : Good (execCollectiveFold x0 s) :=
  by unfold execCollectiveFold; with_reducible apply happen_good; (repeat' split) <;> simp [h]
theorem execCollectiveTransferSend_good x0 (s : State) (h : memWf s.mem = true) : Good (execCollectiveTransferSend x0 s) :=
  by
  unfold execCollectiveTransferSend
  refine happen_good ?_
  split
  · exact h
  · refine ite_wf h ?_
    split
    · simp [h]
    · refine ite_wf (ite_wf (by simp [h]) h) (ite_wf (by simp [h]) (by simp [h]))
theorem State.transferComes_wf (s : State) k t (h : memWf s.mem = true) : memWf (s.transferComes k t).mem = true := by
  unfold State.transferComes; (repeat' split) <;> first | exact h | simp [h]
theorem execCollectiveTransferArrival_good x0 x1 x2 x3 x4 (s : State) (h : memWf s.mem = true) : Good (execCollectiveTransferArrival x0 x1 x2 x3 x4 s) :=
  happen_good (State.transferComes_wf _ _ _ h)
theorem execCollectiveCompletion_good x0 (s : State) (h : memWf s.mem = true) : Good (execCollectiveCompletion x0 s) :=
  by unfold execCollectiveCompletion; with_reducible apply happen_good; (repeat' split) <;> simp [h]
theorem execLinkFailure_good x0 x1 (s : State) (h : memWf s.mem = true) : Good (execLinkFailure x0 x1 s) :=
  by unfold execLinkFailure; with_reducible apply happen_good; first | exact h | simp [h]
theorem execBr_good x0 x1 x2 (s : State) (h : memWf s.mem = true) : Good (execBr x0 x1 x2 s) :=
  by unfold execBr; refine perform_good h fun a => ?_; first | exact h | simp [h]
theorem execBrZ_good x0 x1 x2 (s : State) (h : memWf s.mem = true) : Good (execBrZ x0 x1 x2 s) :=
  by unfold execBrZ; refine perform_good h fun a => ?_; first | exact h | simp [h]
theorem execBrl_good x0 x1 x2 (s : State) (h : memWf s.mem = true) : Good (execBrl x0 x1 x2 s) :=
  by unfold execBrl; refine perform_good h fun a => ?_; first | exact h | simp [h]
theorem execJr_good x0 x1 (s : State) (h : memWf s.mem = true) : Good (execJr x0 x1 s) :=
  by unfold execJr; refine perform_good h fun a => ?_; first | exact h | simp [h]
theorem execJtab_good x0 x1 x2 (s : State) (h : memWf s.mem = true) : Good (execJtab x0 x1 x2 s) :=
  perform_good h fun a => by
    rw [State.transfer_mem]; exact foldl_wf _ _ _ (fun s a h => s.tableNoted_wf a h) h
theorem execVany_good x0 x1 (s : State) (h : memWf s.mem = true) : Good (execVany x0 x1 s) :=
  by unfold execVany; refine perform_good h fun a => ?_; first | exact h | simp [h]
theorem execVall_good x0 x1 (s : State) (h : memWf s.mem = true) : Good (execVall x0 x1 s) :=
  by unfold execVall; refine perform_good h fun a => ?_; first | exact h | simp [h]
theorem execEstat_good x0 x1 (s : State) (h : memWf s.mem = true) : Good (execEstat x0 x1 s) :=
  always_good h (by simp [h])
theorem execLset_good x0 x1 (s : State) (h : memWf s.mem = true) : Good (execLset x0 x1 s) :=
  by unfold execLset; refine perform_good h fun a => ?_; first | exact h | simp [h]
theorem execLstr_good x0 x1 x2 x3 (s : State) (h : memWf s.mem = true) : Good (execLstr x0 x1 x2 x3 s) :=
  by unfold execLstr; refine perform_good h fun a => ?_; first | exact h | simp [h]
theorem execLbody_good x0 x1 (s : State) (h : memWf s.mem = true) : Good (execLbody x0 x1 s) :=
  by unfold execLbody; refine perform_good h fun a => ?_; first | exact h | simp [h]
theorem execLidx_good x0 x1 (s : State) (h : memWf s.mem = true) : Good (execLidx x0 x1 s) :=
  always_good h (by simp [h])
theorem execLexit_good x0 (s : State) (h : memWf s.mem = true) : Good (execLexit x0 s) :=
  by unfold execLexit; refine perform_good h fun a => ?_; first | exact h | simp [h]
theorem execLfl_good x0 x1 (s : State) (h : memWf s.mem = true) : Good (execLfl x0 x1 s) :=
  always_good h (by simp [h])
theorem execNop_good  (s : State) (h : memWf s.mem = true) : Good (execNop s) :=
  always_good h (by simp [h])
theorem execStall_good x0 (s : State) (h : memWf s.mem = true) : Good (execStall x0 s) :=
  always_good h (by simp [h])
theorem execTrap_good x0 (s : State) (h : memWf s.mem = true) : Good (execTrap x0 s) :=
  always_good h (by simp [h])
theorem execBrk_good x0 (s : State) (h : memWf s.mem = true) : Good (execBrk x0 s) :=
  by unfold execBrk; refine perform_good h fun a => ?_; first | exact h | simp [h]
theorem execRft_good  (s : State) (h : memWf s.mem = true) : Good (execRft s) :=
  by unfold execRft; refine perform_good h fun a => ?_; first | exact h | simp [h]
theorem execYield_good  (s : State) (h : memWf s.mem = true) : Good (execYield s) :=
  always_good h (by simp [h])
theorem execIdle_good  (s : State) (h : memWf s.mem = true) : Good (execIdle s) :=
  by unfold execIdle; refine perform_good h fun a => ?_; first | exact h | simp [h]
theorem execTlbi_good x0 x1 (s : State) (h : memWf s.mem = true) : Good (execTlbi x0 x1 s) :=
  by unfold execTlbi; refine perform_good h fun a => ?_; first | exact h | simp [h]
theorem execWeirReq_good x0 (s : State) (h : memWf s.mem = true) : Good (execWeirReq x0 s) :=
  by unfold execWeirReq; with_reducible apply happen_good; first | exact h | simp [h]
theorem execLoweringAnnouncement_good x0 x1 x2 (s : State) (h : memWf s.mem = true) : Good (execLoweringAnnouncement x0 x1 x2 s) :=
  by unfold execLoweringAnnouncement; with_reducible apply happen_good; first | exact h | simp [h]
theorem execRaiseProposal_good x0 x1 x2 (s : State) (h : memWf s.mem = true) : Good (execRaiseProposal x0 x1 x2 s) :=
  by unfold execRaiseProposal; with_reducible apply happen_good; first | exact h | simp [h]
theorem execRaiseGrant_good x0 (s : State) (h : memWf s.mem = true) : Good (execRaiseGrant x0 s) := by
  unfold execRaiseGrant
  refine happen_good ?_
  split <;> simp [h]
theorem execCeilingChange_good  (s : State) (h : memWf s.mem = true) : Good (execCeilingChange s) :=
  happen_good h
theorem execMemberEviction_good x0 (s : State) (h : memWf s.mem = true) : Good (execMemberEviction x0 s) :=
  by unfold execMemberEviction; with_reducible apply happen_good; first | exact h | simp [h]
theorem execHeartbeatSend_good (s : State) (h : memWf s.mem = true) : Good (execHeartbeatSend s) := by
  unfold execHeartbeatSend
  refine happen_good ?_
  split
  · exact h
  · rw [foldl_mem _ _ _ (fun _ _ => State.emit_mem _ _), foldl_mem _ _ _ (fun _ _ => State.emit_mem _ _)]; exact h
theorem execHeartbeat_good x0 x1 x2 x3 (s : State) (h : memWf s.mem = true) : Good (execHeartbeat x0 x1 x2 x3 s) :=
  by unfold execHeartbeat; with_reducible apply happen_good; first | exact h | simp [h]
theorem execJoinRequest_good x0 x1 (s : State) (h : memWf s.mem = true) : Good (execJoinRequest x0 x1 s) :=
  by unfold execJoinRequest; with_reducible apply happen_good; simp [h]
theorem execDeparture_good x0 (s : State) (h : memWf s.mem = true) : Good (execDeparture x0 s) :=
  by unfold execDeparture; with_reducible apply happen_good; first | exact h | simp [h]
theorem execFabricWindowAccess_good x0 x1 x2 x3 x4 x5 (s : State) (h : memWf s.mem = true) : Good (execFabricWindowAccess x0 x1 x2 x3 x4 x5 s) :=
  by unfold execFabricWindowAccess; simp only; with_reducible apply happen_good; (repeat' split) <;> first | exact h | simp [h]
theorem execWindowAccessTimeout_good x0 (s : State) (h : memWf s.mem = true) : Good (execWindowAccessTimeout x0 s) :=
  by unfold execWindowAccessTimeout; with_reducible apply happen_good; (repeat' split) <;> simp [h]
theorem execLoopIterationEnd_good x0 (s : State) (h : memWf s.mem = true) : Good (execLoopIterationEnd x0 s) :=
  by unfold execLoopIterationEnd; with_reducible apply happen_good; (repeat' split) <;> simp [h]
theorem execShadowQueueLanding_good x0 (s : State) (h : memWf s.mem = true) : Good (execShadowQueueLanding x0 s) :=
  happen_good h
theorem execTransientExpiry_good x0 (s : State) (h : memWf s.mem = true) : Good (execTransientExpiry x0 s) :=
  happen_good h
theorem execPreemptionDeadline_good x0 (s : State) (h : memWf s.mem = true) : Good (execPreemptionDeadline x0 s) :=
  by unfold execPreemptionDeadline; with_reducible apply happen_good; (repeat' split) <;> simp [h]
theorem State.dropChain_mem (s : State) (k c : Nat) :
    ([0, 1, 2].foldl (fun (s : State) q => s.modQueue k q (fun l => l.filter (fun e => e.ctx != c))) s).mem = s.mem := rfl
theorem execSave_good (g : Nat) (s : State) (h : memWf s.mem = true) : Good (execSave g s) := by
  unfold execSave
  refine happen_good ?_
  split
  · next m _ _ _ =>
    refine ite_wf h (State.killSaved_wf _ ?_)
    simp only [State.modCore_mem, State.setCtx_mem, State.dropChain_mem]
    rw [foldl_mem _ _ _ (by intro _ _; rfl)]
    exact State.holdOps_wf _ g (State.endUnsaved_wf _ g m (State.stopIterations_wf _ g h))
  · exact h
theorem execResume_good (g : Nat) (s : State) (h : memWf s.mem = true) : Good (execResume g s) := by
  unfold execResume
  refine happen_good ?_
  split
  · exact h
  · split
    · exact h
    · split
      · exact foldl_wf _ _ _ (fun s x h => State.advanceTail_wf _ _ _ h) (foldl_wf _ _ _ (fun s x h => State.restore_wf s _ x h) h)
      · exact h
theorem execStest_good x0 (s : State) (h : memWf s.mem = true) : Good (execStest x0 s) :=
  by unfold execStest; refine perform_good h fun a => ?_; (repeat' split) <;> simp [h]
theorem execStstat_good x0 (s : State) (h : memWf s.mem = true) : Good (execStstat x0 s) :=
  by unfold execStstat; refine perform_good h fun a => ?_; first | exact h | simp [h]
theorem execTestDrained_good x0 (s : State) (h : memWf s.mem = true) : Good (execTestDrained x0 s) :=
  by unfold execTestDrained; with_reducible apply happen_good; (repeat' split) <;> simp [h]
theorem execTestEnd_good x0 (s : State) (h : memWf s.mem = true) : Good (execTestEnd x0 s) :=
  by unfold execTestEnd; with_reducible apply happen_good; (repeat' split) <;> simp [h]
theorem execTestAbort_good x0 (s : State) (h : memWf s.mem = true) : Good (execTestAbort x0 s) :=
  by unfold execTestAbort; with_reducible apply happen_good; (repeat' split) <;> simp [h]
theorem execCmapw_good x0 (s : State) (h : memWf s.mem = true) : Good (execCmapw x0 s) :=
  by unfold execCmapw; refine perform_good h fun a => ?_; first | exact h | simp [h]
theorem execCoreMapPersist_good  (s : State) (h : memWf s.mem = true) : Good (execCoreMapPersist s) :=
  by unfold execCoreMapPersist; with_reducible apply happen_good; (repeat' split) <;> simp [h]
theorem execGaugeTimeout_good x0 (s : State) (h : memWf s.mem = true) : Good (execGaugeTimeout x0 s) :=
  by unfold execGaugeTimeout; with_reducible apply happen_good; (repeat' split) <;> simp [h]
theorem execStallStep_good x0 (s : State) (h : memWf s.mem = true) : Good (execStallStep x0 s) :=
  by unfold execStallStep; with_reducible apply happen_good; (repeat' split) <;> simp [h]
theorem execQuantumExpiry_good x0 (s : State) (h : memWf s.mem = true) : Good (execQuantumExpiry x0 s) :=
  by unfold execQuantumExpiry; with_reducible apply happen_good; (repeat' split) <;> simp [h]
theorem execProgressPromise_good x0 (s : State) (h : memWf s.mem = true) : Good (execProgressPromise x0 s) :=
  by unfold execProgressPromise; with_reducible apply happen_good; first | exact h | simp [h]
theorem execStepBudgetWindow_good  (s : State) (h : memWf s.mem = true) : Good (execStepBudgetWindow s) :=
  by unfold execStepBudgetWindow; with_reducible apply happen_good; (repeat' split) <;> simp [h]
theorem execAsynchronousTrap_good x0 (s : State) (h : memWf s.mem = true) : Good (execAsynchronousTrap x0 s) :=
  by unfold execAsynchronousTrap; with_reducible apply happen_good; (repeat' split) <;> simp [h]
theorem execIdleWake_good x0 (s : State) (h : memWf s.mem = true) : Good (execIdleWake x0 s) :=
  by unfold execIdleWake; with_reducible apply happen_good; first | exact h | simp [h]
theorem execRecomputeProducerCompletion_good x0 (s : State) (h : memWf s.mem = true) : Good (execRecomputeProducerCompletion x0 s) :=
  by unfold execRecomputeProducerCompletion; simp only; with_reducible apply happen_good; (repeat' split) <;> first | exact h | simp [h]
theorem execDeadlockDetection_good x0 (s : State) (h : memWf s.mem = true) : Good (execDeadlockDetection x0 s) :=
  by unfold execDeadlockDetection; with_reducible apply happen_good; (repeat' split) <;> simp [h]
theorem execSpillwayChunkReturn_good x0 x1 (s : State) (h : memWf s.mem = true) : Good (execSpillwayChunkReturn x0 x1 s) :=
  by unfold execSpillwayChunkReturn; with_reducible apply happen_good; first | exact h | simp [h]
theorem execCsrr_good x0 x1 (s : State) (h : memWf s.mem = true) : Good (execCsrr x0 x1 s) :=
  by unfold execCsrr; refine perform_good h fun a => ?_; first | exact h | simp [h]
theorem execCsrw_good x0 x1 (s : State) (h : memWf s.mem = true) : Good (execCsrw x0 x1 s) :=
  by unfold execCsrw; refine perform_good h fun a => ?_; first | exact h | simp [h]
theorem execPwrDidt_good x0 x1 (s : State) (h : memWf s.mem = true) : Good (execPwrDidt x0 x1 s) :=
  happen_good h
theorem execVectorOperationCompletion_good x0 (s : State) (h : memWf s.mem = true) : Good (execVectorOperationCompletion x0 s) :=
  by unfold execVectorOperationCompletion; with_reducible apply happen_good; (repeat' split) <;> simp [h]
theorem execVaddFp_good x0 x1 x2 x3 x4 (s : State) (h : memWf s.mem = true) : Good (execVaddFp x0 x1 x2 x3 x4 s) :=
  State.vecWord_good _ _ h
theorem execVsubFp_good x0 x1 x2 x3 x4 (s : State) (h : memWf s.mem = true) : Good (execVsubFp x0 x1 x2 x3 x4 s) :=
  State.vecWord_good _ _ h
theorem execVmulFp_good x0 x1 x2 x3 x4 (s : State) (h : memWf s.mem = true) : Good (execVmulFp x0 x1 x2 x3 x4 s) :=
  State.vecWord_good _ _ h
theorem execVminFp_good x0 x1 x2 x3 x4 (s : State) (h : memWf s.mem = true) : Good (execVminFp x0 x1 x2 x3 x4 s) :=
  State.vecWord_good _ _ h
theorem execVmaxFp_good x0 x1 x2 x3 x4 (s : State) (h : memWf s.mem = true) : Good (execVmaxFp x0 x1 x2 x3 x4 s) :=
  State.vecWord_good _ _ h
theorem execVfma_good x0 x1 x2 x3 x4 (s : State) (h : memWf s.mem = true) : Good (execVfma x0 x1 x2 x3 x4 s) :=
  State.vecWord_good _ _ h
theorem execVfms_good x0 x1 x2 x3 x4 (s : State) (h : memWf s.mem = true) : Good (execVfms x0 x1 x2 x3 x4 s) :=
  State.vecWord_good _ _ h
theorem execVfnma_good x0 x1 x2 x3 x4 (s : State) (h : memWf s.mem = true) : Good (execVfnma x0 x1 x2 x3 x4 s) :=
  State.vecWord_good _ _ h
theorem execVabs_good x0 x1 x2 x3 (s : State) (h : memWf s.mem = true) : Good (execVabs x0 x1 x2 x3 s) :=
  State.vecWord_good _ _ h
theorem execVneg_good x0 x1 x2 x3 (s : State) (h : memWf s.mem = true) : Good (execVneg x0 x1 x2 x3 s) :=
  State.vecWord_good _ _ h
theorem execVrcp_good x0 x1 x2 (s : State) (h : memWf s.mem = true) : Good (execVrcp x0 x1 x2 s) :=
  State.vecWord_good _ _ h
theorem execVrsq_good x0 x1 x2 (s : State) (h : memWf s.mem = true) : Good (execVrsq x0 x1 x2 s) :=
  State.vecWord_good _ _ h
theorem execVexp2_good x0 x1 x2 (s : State) (h : memWf s.mem = true) : Good (execVexp2 x0 x1 x2 s) :=
  State.vecWord_good _ _ h
theorem execVlog2_good x0 x1 x2 (s : State) (h : memWf s.mem = true) : Good (execVlog2 x0 x1 x2 s) :=
  State.vecWord_good _ _ h
theorem execVaddInt_good x0 x1 x2 x3 x4 (s : State) (h : memWf s.mem = true) : Good (execVaddInt x0 x1 x2 x3 x4 s) :=
  State.vecWord_good _ _ h
theorem execVsubInt_good x0 x1 x2 x3 x4 (s : State) (h : memWf s.mem = true) : Good (execVsubInt x0 x1 x2 x3 x4 s) :=
  State.vecWord_good _ _ h
theorem execVmulInt_good x0 x1 x2 x3 x4 (s : State) (h : memWf s.mem = true) : Good (execVmulInt x0 x1 x2 x3 x4 s) :=
  State.vecWord_good _ _ h
theorem execVminInt_good x0 x1 x2 x3 x4 (s : State) (h : memWf s.mem = true) : Good (execVminInt x0 x1 x2 x3 x4 s) :=
  State.vecWord_good _ _ h
theorem execVmaxInt_good x0 x1 x2 x3 x4 (s : State) (h : memWf s.mem = true) : Good (execVmaxInt x0 x1 x2 x3 x4 s) :=
  State.vecWord_good _ _ h
theorem execVadds_good x0 x1 x2 x3 x4 (s : State) (h : memWf s.mem = true) : Good (execVadds x0 x1 x2 x3 x4 s) :=
  State.vecWord_good _ _ h
theorem execVsubs_good x0 x1 x2 x3 x4 (s : State) (h : memWf s.mem = true) : Good (execVsubs x0 x1 x2 x3 x4 s) :=
  State.vecWord_good _ _ h
theorem execVand_good x0 x1 x2 x3 x4 (s : State) (h : memWf s.mem = true) : Good (execVand x0 x1 x2 x3 x4 s) :=
  State.vecWord_good _ _ h
theorem execVor_good x0 x1 x2 x3 x4 (s : State) (h : memWf s.mem = true) : Good (execVor x0 x1 x2 x3 x4 s) :=
  State.vecWord_good _ _ h
theorem execVxor_good x0 x1 x2 x3 x4 (s : State) (h : memWf s.mem = true) : Good (execVxor x0 x1 x2 x3 x4 s) :=
  State.vecWord_good _ _ h
theorem execVshl_good x0 x1 x2 x3 x4 (s : State) (h : memWf s.mem = true) : Good (execVshl x0 x1 x2 x3 x4 s) :=
  State.vecWord_good _ _ h
theorem execVsra_good x0 x1 x2 x3 x4 (s : State) (h : memWf s.mem = true) : Good (execVsra x0 x1 x2 x3 x4 s) :=
  State.vecWord_good _ _ h
theorem execVsrl_good x0 x1 x2 x3 x4 (s : State) (h : memWf s.mem = true) : Good (execVsrl x0 x1 x2 x3 x4 s) :=
  State.vecWord_good _ _ h
theorem execVcmpEq_good x0 x1 x2 x3 x4 (s : State) (h : memWf s.mem = true) : Good (execVcmpEq x0 x1 x2 x3 x4 s) :=
  State.vecWord_good _ _ h
theorem execVcmpNe_good x0 x1 x2 x3 x4 (s : State) (h : memWf s.mem = true) : Good (execVcmpNe x0 x1 x2 x3 x4 s) :=
  State.vecWord_good _ _ h
theorem execVcmpLt_good x0 x1 x2 x3 x4 (s : State) (h : memWf s.mem = true) : Good (execVcmpLt x0 x1 x2 x3 x4 s) :=
  State.vecWord_good _ _ h
theorem execVcmpLe_good x0 x1 x2 x3 x4 (s : State) (h : memWf s.mem = true) : Good (execVcmpLe x0 x1 x2 x3 x4 s) :=
  State.vecWord_good _ _ h
theorem execVcmpGt_good x0 x1 x2 x3 x4 (s : State) (h : memWf s.mem = true) : Good (execVcmpGt x0 x1 x2 x3 x4 s) :=
  State.vecWord_good _ _ h
theorem execVcmpGe_good x0 x1 x2 x3 x4 (s : State) (h : memWf s.mem = true) : Good (execVcmpGe x0 x1 x2 x3 x4 s) :=
  State.vecWord_good _ _ h
theorem execVcmpUo_good x0 x1 x2 x3 x4 (s : State) (h : memWf s.mem = true) : Good (execVcmpUo x0 x1 x2 x3 x4 s) :=
  State.vecWord_good _ _ h
theorem execVsel_good x0 x1 x2 (s : State) (h : memWf s.mem = true) : Good (execVsel x0 x1 x2 s) :=
  State.vecWord_good _ _ h
theorem execPand_good x0 x1 x2 x3 (s : State) (h : memWf s.mem = true) : Good (execPand x0 x1 x2 x3 s) :=
  State.vecWord_good _ _ h
theorem execPor_good x0 x1 x2 x3 (s : State) (h : memWf s.mem = true) : Good (execPor x0 x1 x2 x3 s) :=
  State.vecWord_good _ _ h
theorem execPxor_good x0 x1 x2 x3 (s : State) (h : memWf s.mem = true) : Good (execPxor x0 x1 x2 x3 s) :=
  State.vecWord_good _ _ h
theorem execPnot_good x0 x1 x2 (s : State) (h : memWf s.mem = true) : Good (execPnot x0 x1 x2 s) :=
  State.vecWord_good _ _ h
theorem execPset_good x0 x1 (s : State) (h : memWf s.mem = true) : Good (execPset x0 x1 s) :=
  State.vecWord_good _ _ h
theorem execPclr_good x0 x1 (s : State) (h : memWf s.mem = true) : Good (execPclr x0 x1 s) :=
  State.vecWord_good _ _ h
theorem execVcvt_good x0 x1 x2 x3 (s : State) (h : memWf s.mem = true) : Good (execVcvt x0 x1 x2 x3 s) :=
  State.vecWord_good _ _ h
theorem execVqnt_good x0 x1 x2 (s : State) (h : memWf s.mem = true) : Good (execVqnt x0 x1 x2 s) :=
  State.vecWord_good _ _ h
theorem execVdq_good x0 x1 x2 (s : State) (h : memWf s.mem = true) : Good (execVdq x0 x1 x2 s) :=
  State.vecWord_good _ _ h
theorem execVrsum_good x0 x1 x2 x3 (s : State) (h : memWf s.mem = true) : Good (execVrsum x0 x1 x2 x3 s) :=
  State.vecWord_good _ _ h
theorem execVrmax_good x0 x1 x2 x3 (s : State) (h : memWf s.mem = true) : Good (execVrmax x0 x1 x2 x3 s) :=
  State.vecWord_good _ _ h
theorem execVrmin_good x0 x1 x2 x3 (s : State) (h : memWf s.mem = true) : Good (execVrmin x0 x1 x2 x3 s) :=
  State.vecWord_good _ _ h
theorem execVgather_good x0 x1 x2 x3 (s : State) (h : memWf s.mem = true) : Good (execVgather x0 x1 x2 x3 s) :=
  State.vecWord_good _ _ h
theorem execVscatter_good x0 x1 x2 x3 (s : State) (h : memWf s.mem = true) : Good (execVscatter x0 x1 x2 x3 s) :=
  State.vecWord_good _ _ h
theorem execVperm_good x0 x1 x2 x3 (s : State) (h : memWf s.mem = true) : Good (execVperm x0 x1 x2 x3 s) :=
  State.vecWord_good _ _ h
theorem execVmov_good x0 x1 x2 (s : State) (h : memWf s.mem = true) : Good (execVmov x0 x1 x2 s) :=
  State.vecWord_good _ _ h
theorem execVfill_good x0 x1 x2 (s : State) (h : memWf s.mem = true) : Good (execVfill x0 x1 x2 s) :=
  State.vecWord_good _ _ h
theorem execViota_good x0 x1 (s : State) (h : memWf s.mem = true) : Good (execViota x0 x1 s) :=
  State.vecWord_good _ _ h
theorem execCmm_good x0 x1 x2 (s : State) (h : memWf s.mem = true) : Good (execCmm x0 x1 x2 s) :=
  State.cubeWord_good _ _ h
theorem execCmmh_good x0 x1 x2 (s : State) (h : memWf s.mem = true) : Good (execCmmh x0 x1 x2 s) :=
  State.cubeWord_good _ _ h
theorem execCldb_good x0 x1 (s : State) (h : memWf s.mem = true) : Good (execCldb x0 x1 s) :=
  State.cubeWord_good _ _ h
theorem execCzero_good x0 (s : State) (h : memWf s.mem = true) : Good (execCzero x0 s) :=
  by unfold execCzero; refine perform_good h fun a => ?_; first | exact h | simp [h]
theorem execCrd_good x0 x1 (s : State) (h : memWf s.mem = true) : Good (execCrd x0 x1 s) :=
  by unfold execCrd; refine perform_good h fun a => ?_; first | exact h | simp [h]
theorem execCfsel_good x0 (s : State) (h : memWf s.mem = true) : Good (execCfsel x0 s) :=
  by
  unfold execCfsel; simp only
  exact always_good h (by rw [State.modMe_mem]; exact ite_wf (by simp [h]) h)
theorem execCubeOperationStart_good x0 (s : State) (h : memWf s.mem = true) : Good (execCubeOperationStart x0 s) :=
  by unfold execCubeOperationStart; with_reducible apply happen_good; (repeat' split) <;> simp [h]
theorem execCubeOperationCompletion_good x0 (s : State) (h : memWf s.mem = true) : Good (execCubeOperationCompletion x0 s) :=
  by unfold execCubeOperationCompletion; with_reducible apply happen_good; (repeat' split) <;> simp [h]
theorem execHmov_good x0 x1 (s : State) (h : memWf s.mem = true) : Good (execHmov x0 x1 s) :=
  by unfold execHmov; refine perform_good h fun a => ?_; first | exact h | simp [h]
theorem execHofs_good x0 x1 x2 (s : State) (h : memWf s.mem = true) : Good (execHofs x0 x1 x2 s) :=
  by unfold execHofs; refine perform_good h fun a => ?_; first | exact h | simp [h]
theorem execHlive_good x0 x1 (s : State) (h : memWf s.mem = true) : Good (execHlive x0 x1 s) :=
  always_good h (by simp [h])
theorem execHea_good (d a b : BitVec 5) (s : State) (h : memWf s.mem = true) : Good (execHea d a b s) := by
  unfold execHea; simp only
  split
  · exact always_good h (by simp [h])
  · split
    · exact always_good h (by rw [State.pendLoad_mem]; exact h)
    · refine perform_good h fun r => ?_
      split <;> simp [h]
theorem execHset_good x0 x1 x2 (s : State) (h : memWf s.mem = true) : Good (execHset x0 x1 x2 s) :=
  by unfold execHset; refine perform_good h fun a => ?_; first | exact h | simp [h]
theorem execHget_good x0 x1 x2 (s : State) (h : memWf s.mem = true) : Good (execHget x0 x1 x2 s) :=
  happen_good h
theorem execTelemetrySample_good (s : State) (h : memWf s.mem = true) : Good (execTelemetrySample s) := by
  unfold execTelemetrySample
  refine happen_good ?_
  split
  · exact h
  · show memWf (List.foldl _ _ _ : State).mem = true
    rw [foldl_mem _ _ _ (fun _ _ => State.modCube_mem _ _ _)]
    exact foldl_wf _ _ _ (fun _ _ h => State.takeSample_wf _ _ _ h) h
theorem execTelemetryAggregate_good (s : State) (h : memWf s.mem = true) : Good (execTelemetryAggregate s) := by
  unfold execTelemetryAggregate
  refine happen_good ?_
  split
  · exact h
  · exact foldl_wf _ _ _ (fun _ _ h => State.telemetryRecord_wf _ _ h) h
theorem execSensorReading_good x0 x1 x2 (s : State) (h : memWf s.mem = true) : Good (execSensorReading x0 x1 x2 s) :=
  happen_good h
theorem execGovernorWindow_good x0 x1 (s : State) (h : memWf s.mem = true) : Good (execGovernorWindow x0 x1 s) :=
  by unfold execGovernorWindow; with_reducible apply happen_good; (repeat' split) <;> simp [h]
theorem execDroopAlarm_good x0 (s : State) (h : memWf s.mem = true) : Good (execDroopAlarm x0 s) :=
  by unfold execDroopAlarm; with_reducible apply happen_good; (repeat' split) <;> simp [h]
theorem execDroopAlarmClear_good x0 (s : State) (h : memWf s.mem = true) : Good (execDroopAlarmClear x0 s) :=
  by unfold execDroopAlarmClear; with_reducible apply happen_good; (repeat' split) <;> simp [h]
theorem execClockStretch_good x0 (s : State) (h : memWf s.mem = true) : Good (execClockStretch x0 s) :=
  happen_good h
theorem execCrossingBubble_good x0 (s : State) (h : memWf s.mem = true) : Good (execCrossingBubble x0 s) :=
  happen_good h
theorem execAfw_good x0 (s : State) (h : memWf s.mem = true) : Good (execAfw x0 s) :=
  happen_good h
theorem execForecastUpdate_good (s : State) (h : memWf s.mem = true) : Good (execForecastUpdate s) := by
  unfold execForecastUpdate
  refine happen_good ?_
  split
  · exact h
  · show memWf (State.raiseBack _).mem = true
    rw [State.raiseBack_mem, State.foresee_mem, foldl_mem _ _ _ (fun _ _ => State.modCube_mem _ _ _)]; exact h
theorem execForecastExpiry_good x0 (s : State) (h : memWf s.mem = true) : Good (execForecastExpiry x0 s) :=
  by unfold execForecastExpiry; with_reducible apply happen_good; (repeat' split) <;> simp [h]
theorem execBusTestRun_good x0 (s : State) (h : memWf s.mem = true) : Good (execBusTestRun x0 s) :=
  by unfold execBusTestRun; with_reducible apply happen_good; (repeat' split) <;> simp [h]
theorem execBusTestCompletion_good x0 x1 x2 (s : State) (h : memWf s.mem = true) : Good (execBusTestCompletion x0 x1 x2 s) :=
  by unfold execBusTestCompletion; with_reducible apply happen_good; (repeat' split) <;> simp [h]
theorem execWsMapApplication_good (core : Nat) (s : State) (h : memWf s.mem = true) : Good (execWsMapApplication core s) := by
  unfold execWsMapApplication
  refine happen_good ?_
  split
  · exact h
  · exact foldl_wf _ _ _ (fun _ _ h => State.stackEvent_wf _ _ _ _ _ _ h) (by simp [h])
theorem execElevatorDrainEnd_good x0 x1 (s : State) (h : memWf s.mem = true) : Good (execElevatorDrainEnd x0 x1 s) :=
  by unfold execElevatorDrainEnd; with_reducible apply happen_good; (repeat' split) <;> simp [h]
theorem execTransactionRetry_good x0 (s : State) (h : memWf s.mem = true) : Good (execTransactionRetry x0 s) :=
  by unfold execTransactionRetry; with_reducible apply happen_good; (repeat' split) <;> first | exact h | simp [h]
theorem execColdStart_good (f : List StartFailure) (s : State) (h : memWf s.mem = true) : Good (execColdStart f s) :=
  happen_good (State.coldRun_wf _ f (ite_wf (State.flushMap_wf _ h) h))
theorem State.warmRun_wf (s : State) (keep : Bool) (f : List StartFailure) (h : memWf s.mem = true) :
    memWf (s.warmRun keep f).mem = true := by
  have h1 : memWf (s.flushMap.fresh' false keep).mem = true := State.fresh'_wf _ _ _ (State.flushMap_wf _ h)
  unfold State.warmRun
  simp only
  split
  · exact State.coldRun_wf _ _ (State.flushMap_wf _ h)
  · split
    · simp [h1]
    · split
      · simp [h1]
      · split <;> simp [h1]
theorem execWarmStart_good (keep : Bool) (s : State) (h : memWf s.mem = true) : Good (execWarmStart keep s) := by
  unfold execWarmStart
  refine happen_good ?_
  split
  · exact s.warmRun_wf _ _ h
  · exact h
theorem execFatalEvent_good (code : Nat) (addr : BitVec 64) (s : State) (h : memWf s.mem = true) :
    Good (execFatalEvent code addr s) := by
  unfold execFatalEvent
  refine happen_good ?_
  split
  · exact h
  · rw [State.emit_mem, State.modRontal_mem]
    refine State.dumped_wf _ (foldl_wf _ _ _ (fun s d h => State.failLaunch_wf s d h)
      (foldl_wf _ _ _ (fun s d h => State.stopDomain_wf s d h) ?_))
    show memWf (if code = 2 then s.logFatal addr else s).mem = true
    split
    · simp [h]
    · exact h
theorem execRegisterWrite_good x0 x1 x2 (s : State) (h : memWf s.mem = true) : Good (execRegisterWrite x0 x1 x2 s) :=
  by unfold execRegisterWrite; with_reducible apply happen_good; first | exact h | simp [h]
theorem execFaultDomainAcknowledge_good x0 (s : State) (h : memWf s.mem = true) : Good (execFaultDomainAcknowledge x0 s) :=
  happen_good h
theorem execHostWindowAccess_good x0 x1 x2 x3 x4 (s : State) (h : memWf s.mem = true) :
    Good (execHostWindowAccess x0 x1 x2 x3 x4 s) := by
  have h1 : ∀ (c d : Prop) [Decidable c] [Decidable d] (n m a b e g i j k : Nat) (x y : Word),
      memWf (if c then (n, if d then s else (s.foreign m a b e x).2) else s.foreign g i j k y).2.mem = true := by
    intros
    split
    · exact ite_wf h (State.foreign_wf _ _ _ _ _ _ h)
    · exact State.foreign_wf _ _ _ _ _ _ h
  unfold execHostWindowAccess
  exact happen_good (ite_wf h (ite_wf (ite_wf h h) (ite_wf (h1 ..) (h1 ..))))
theorem execInfo_good  (s : State) (h : memWf s.mem = true) : Good (execInfo s) :=
  by unfold execInfo; with_reducible apply happen_good; (repeat' split) <;> simp [h]
theorem execGroup_good x0 x1 (s : State) (h : memWf s.mem = true) : Good (execGroup x0 x1 s) :=
  by unfold execGroup; with_reducible apply happen_good; (repeat' split) <;> simp [h]
theorem execKeyLoad_good x0 x1 (s : State) (h : memWf s.mem = true) : Good (execKeyLoad x0 x1 s) :=
  by unfold execKeyLoad; with_reducible apply happen_good; simp only; (repeat' split) <;> simp [h]
theorem execKeyClear_good x0 (s : State) (h : memWf s.mem = true) : Good (execKeyClear x0 s) :=
  by unfold execKeyClear; with_reducible apply happen_good; first | exact h | simp [h]
theorem execAttest_good x0 (s : State) (h : memWf s.mem = true) : Good (execAttest x0 s) :=
  by unfold execAttest; with_reducible apply happen_good; (repeat' split) <;> simp [h]
theorem execErrlog_good x0 (s : State) (h : memWf s.mem = true) : Good (execErrlog x0 s) :=
  by unfold execErrlog; with_reducible apply happen_good; (repeat' split) <;> simp [h]
theorem execStatus_good  (s : State) (h : memWf s.mem = true) : Good (execStatus s) :=
  happen_good h
theorem execReset_good x0 (s : State) (h : memWf s.mem = true) : Good (execReset x0 s) :=
  by unfold execReset; with_reducible apply happen_good; (repeat' split) <;> simp [h]
theorem execTelemetry_good x0 (s : State) (h : memWf s.mem = true) : Good (execTelemetry x0 s) :=
  happen_good h
theorem execDumpRead_good x0 x1 (s : State) (h : memWf s.mem = true) : Good (execDumpRead x0 x1 s) :=
  by unfold execDumpRead; with_reducible apply happen_good; (repeat' split) <;> simp [h]
theorem execDumpClear_good  (s : State) (h : memWf s.mem = true) : Good (execDumpClear s) :=
  happen_good h
theorem execConfigRead_good  (s : State) (h : memWf s.mem = true) : Good (execConfigRead s) :=
  happen_good h
theorem execConfigWrite_good x0 x1 x2 x3 x4 (s : State) (h : memWf s.mem = true) : Good (execConfigWrite x0 x1 x2 x3 x4 s) :=
  by unfold execConfigWrite; with_reducible apply happen_good; first | exact h | simp [h]
theorem execCmapRestore_good x0 x1 (s : State) (h : memWf s.mem = true) : Good (execCmapRestore x0 x1 s) :=
  by unfold execCmapRestore; with_reducible apply happen_good; (repeat' split) <;> simp [h]
theorem execTimeset_good x0 (s : State) (h : memWf s.mem = true) : Good (execTimeset x0 s) :=
  by unfold execTimeset; with_reducible apply happen_good; first | exact h | simp [h]
theorem execErrlogRead_good x0 x1 (s : State) (h : memWf s.mem = true) : Good (execErrlogRead x0 x1 s) :=
  happen_good h
theorem execGetMeasurements_good x0 (s : State) (h : memWf s.mem = true) : Good (execGetMeasurements x0 s) :=
  by unfold execGetMeasurements; with_reducible apply happen_good; (repeat' split) <;> simp [h]
theorem execSpdmSecuredSession_good  (s : State) (h : memWf s.mem = true) : Good (execSpdmSecuredSession s) :=
  happen_good h
theorem execAddi_good x0 x1 x2 (s : State) (h : memWf s.mem = true) : Good (execAddi x0 x1 x2 s) :=
  always_good h (by simp [h])
theorem execAddiW_good x0 x1 x2 (s : State) (h : memWf s.mem = true) : Good (execAddiW x0 x1 x2 s) :=
  always_good h (by simp [h])
theorem execAndi_good x0 x1 x2 (s : State) (h : memWf s.mem = true) : Good (execAndi x0 x1 x2 s) :=
  always_good h (by simp [h])
theorem execOri_good x0 x1 x2 (s : State) (h : memWf s.mem = true) : Good (execOri x0 x1 x2 s) :=
  always_good h (by simp [h])
theorem execXori_good x0 x1 x2 (s : State) (h : memWf s.mem = true) : Good (execXori x0 x1 x2 s) :=
  always_good h (by simp [h])
theorem execSlli_good x0 x1 x2 x3 (s : State) (h : memWf s.mem = true) : Good (execSlli x0 x1 x2 x3 s) :=
  always_good h (by simp [h])
theorem execSrli_good x0 x1 x2 x3 (s : State) (h : memWf s.mem = true) : Good (execSrli x0 x1 x2 x3 s) :=
  always_good h (by simp [h])
theorem execSrai_good x0 x1 x2 x3 (s : State) (h : memWf s.mem = true) : Good (execSrai x0 x1 x2 x3 s) :=
  always_good h (by simp [h])
theorem execLi_good x0 x1 (s : State) (h : memWf s.mem = true) : Good (execLi x0 x1 s) :=
  always_good h (by simp [h])
theorem execLui_good x0 x1 (s : State) (h : memWf s.mem = true) : Good (execLui x0 x1 s) :=
  always_good h (by simp [h])
theorem execLsi_good x0 x1 (s : State) (h : memWf s.mem = true) : Good (execLsi x0 x1 s) :=
  always_good h (by simp [h])
theorem execAdd_good x0 x1 x2 x3 (s : State) (h : memWf s.mem = true) : Good (execAdd x0 x1 x2 x3 s) :=
  always_good h (by simp [h])
theorem execSub_good x0 x1 x2 x3 (s : State) (h : memWf s.mem = true) : Good (execSub x0 x1 x2 x3 s) :=
  always_good h (by simp [h])
theorem execAnd_good x0 x1 x2 x3 (s : State) (h : memWf s.mem = true) : Good (execAnd x0 x1 x2 x3 s) :=
  always_good h (by simp [h])
theorem execOr_good x0 x1 x2 x3 (s : State) (h : memWf s.mem = true) : Good (execOr x0 x1 x2 x3 s) :=
  always_good h (by simp [h])
theorem execXor_good x0 x1 x2 x3 (s : State) (h : memWf s.mem = true) : Good (execXor x0 x1 x2 x3 s) :=
  always_good h (by simp [h])
theorem execAndn_good x0 x1 x2 x3 (s : State) (h : memWf s.mem = true) : Good (execAndn x0 x1 x2 x3 s) :=
  always_good h (by simp [h])
theorem execSll_good x0 x1 x2 x3 (s : State) (h : memWf s.mem = true) : Good (execSll x0 x1 x2 x3 s) :=
  always_good h (by simp [h])
theorem execSrl_good x0 x1 x2 x3 (s : State) (h : memWf s.mem = true) : Good (execSrl x0 x1 x2 x3 s) :=
  always_good h (by simp [h])
theorem execSra_good x0 x1 x2 x3 (s : State) (h : memWf s.mem = true) : Good (execSra x0 x1 x2 x3 s) :=
  always_good h (by simp [h])
theorem execMin_good x0 x1 x2 x3 (s : State) (h : memWf s.mem = true) : Good (execMin x0 x1 x2 x3 s) :=
  always_good h (by simp [h])
theorem execMax_good x0 x1 x2 x3 (s : State) (h : memWf s.mem = true) : Good (execMax x0 x1 x2 x3 s) :=
  always_good h (by simp [h])
theorem execMinu_good x0 x1 x2 x3 (s : State) (h : memWf s.mem = true) : Good (execMinu x0 x1 x2 x3 s) :=
  always_good h (by simp [h])
theorem execMaxu_good x0 x1 x2 x3 (s : State) (h : memWf s.mem = true) : Good (execMaxu x0 x1 x2 x3 s) :=
  always_good h (by simp [h])
theorem execClz_good x0 x1 x2 (s : State) (h : memWf s.mem = true) : Good (execClz x0 x1 x2 s) :=
  always_good h (by simp [h])
theorem execCtz_good x0 x1 x2 (s : State) (h : memWf s.mem = true) : Good (execCtz x0 x1 x2 s) :=
  always_good h (by simp [h])
theorem execPopc_good x0 x1 x2 (s : State) (h : memWf s.mem = true) : Good (execPopc x0 x1 x2 s) :=
  always_good h (by simp [h])
theorem execSextB_good x0 x1 x2 (s : State) (h : memWf s.mem = true) : Good (execSextB x0 x1 x2 s) :=
  always_good h (by simp [h])
theorem execSextH_good x0 x1 x2 (s : State) (h : memWf s.mem = true) : Good (execSextH x0 x1 x2 s) :=
  always_good h (by simp [h])
theorem execSextW_good x0 x1 x2 (s : State) (h : memWf s.mem = true) : Good (execSextW x0 x1 x2 s) :=
  always_good h (by simp [h])
theorem execZextB_good x0 x1 x2 (s : State) (h : memWf s.mem = true) : Good (execZextB x0 x1 x2 s) :=
  always_good h (by simp [h])
theorem execZextH_good x0 x1 x2 (s : State) (h : memWf s.mem = true) : Good (execZextH x0 x1 x2 s) :=
  always_good h (by simp [h])
theorem execZextW_good x0 x1 x2 (s : State) (h : memWf s.mem = true) : Good (execZextW x0 x1 x2 s) :=
  always_good h (by simp [h])
theorem execSadd1_good x0 x1 x2 x3 (s : State) (h : memWf s.mem = true) : Good (execSadd1 x0 x1 x2 x3 s) :=
  always_good h (by simp [h])
theorem execSadd2_good x0 x1 x2 x3 (s : State) (h : memWf s.mem = true) : Good (execSadd2 x0 x1 x2 x3 s) :=
  always_good h (by simp [h])
theorem execSadd3_good x0 x1 x2 x3 (s : State) (h : memWf s.mem = true) : Good (execSadd3 x0 x1 x2 x3 s) :=
  always_good h (by simp [h])
theorem execSadd4_good x0 x1 x2 x3 (s : State) (h : memWf s.mem = true) : Good (execSadd4 x0 x1 x2 x3 s) :=
  always_good h (by simp [h])
theorem execAddW_good x0 x1 x2 x3 (s : State) (h : memWf s.mem = true) : Good (execAddW x0 x1 x2 x3 s) :=
  always_good h (by simp [h])
theorem execSubW_good x0 x1 x2 x3 (s : State) (h : memWf s.mem = true) : Good (execSubW x0 x1 x2 x3 s) :=
  always_good h (by simp [h])
theorem execSllW_good x0 x1 x2 x3 (s : State) (h : memWf s.mem = true) : Good (execSllW x0 x1 x2 x3 s) :=
  always_good h (by simp [h])
theorem execSrlW_good x0 x1 x2 x3 (s : State) (h : memWf s.mem = true) : Good (execSrlW x0 x1 x2 x3 s) :=
  always_good h (by simp [h])
theorem execSraW_good x0 x1 x2 x3 (s : State) (h : memWf s.mem = true) : Good (execSraW x0 x1 x2 x3 s) :=
  always_good h (by simp [h])
theorem execClzW_good x0 x1 x2 (s : State) (h : memWf s.mem = true) : Good (execClzW x0 x1 x2 s) :=
  always_good h (by simp [h])
theorem execCtzW_good x0 x1 x2 (s : State) (h : memWf s.mem = true) : Good (execCtzW x0 x1 x2 s) :=
  always_good h (by simp [h])
theorem execPopcW_good x0 x1 x2 (s : State) (h : memWf s.mem = true) : Good (execPopcW x0 x1 x2 s) :=
  always_good h (by simp [h])
theorem execMul_good x0 x1 x2 (s : State) (h : memWf s.mem = true) : Good (execMul x0 x1 x2 s) :=
  always_good h (by simp [h])
theorem execMulh_good x0 x1 x2 (s : State) (h : memWf s.mem = true) : Good (execMulh x0 x1 x2 s) :=
  always_good h (by simp [h])
theorem execMulhu_good x0 x1 x2 (s : State) (h : memWf s.mem = true) : Good (execMulhu x0 x1 x2 s) :=
  always_good h (by simp [h])
theorem execMulhsu_good x0 x1 x2 (s : State) (h : memWf s.mem = true) : Good (execMulhsu x0 x1 x2 s) :=
  always_good h (by simp [h])
theorem execMulW_good x0 x1 x2 (s : State) (h : memWf s.mem = true) : Good (execMulW x0 x1 x2 s) :=
  always_good h (by simp [h])
theorem execDiv_good x0 x1 x2 (s : State) (h : memWf s.mem = true) : Good (execDiv x0 x1 x2 s) :=
  always_good h (by simp [h])
theorem execDivu_good x0 x1 x2 (s : State) (h : memWf s.mem = true) : Good (execDivu x0 x1 x2 s) :=
  always_good h (by simp [h])
theorem execRem_good x0 x1 x2 (s : State) (h : memWf s.mem = true) : Good (execRem x0 x1 x2 s) :=
  always_good h (by simp [h])
theorem execRemu_good x0 x1 x2 (s : State) (h : memWf s.mem = true) : Good (execRemu x0 x1 x2 s) :=
  always_good h (by simp [h])
theorem execDivW_good x0 x1 x2 (s : State) (h : memWf s.mem = true) : Good (execDivW x0 x1 x2 s) :=
  always_good h (by simp [h])
theorem execDivuW_good x0 x1 x2 (s : State) (h : memWf s.mem = true) : Good (execDivuW x0 x1 x2 s) :=
  always_good h (by simp [h])
theorem execRemW_good x0 x1 x2 (s : State) (h : memWf s.mem = true) : Good (execRemW x0 x1 x2 s) :=
  always_good h (by simp [h])
theorem execRemuW_good x0 x1 x2 (s : State) (h : memWf s.mem = true) : Good (execRemuW x0 x1 x2 s) :=
  always_good h (by simp [h])
theorem execPtgt_good x0 x1 (s : State) (h : memWf s.mem = true) : Good (execPtgt x0 x1 s) :=
  always_good h (by simp [h])
theorem execCmpEq_good x0 x1 x2 x3 (s : State) (h : memWf s.mem = true) : Good (execCmpEq x0 x1 x2 x3 s) :=
  always_good h (by simp [h])
theorem execCmpNe_good x0 x1 x2 x3 (s : State) (h : memWf s.mem = true) : Good (execCmpNe x0 x1 x2 x3 s) :=
  always_good h (by simp [h])
theorem execCmpLt_good x0 x1 x2 x3 (s : State) (h : memWf s.mem = true) : Good (execCmpLt x0 x1 x2 x3 s) :=
  always_good h (by simp [h])
theorem execCmpGe_good x0 x1 x2 x3 (s : State) (h : memWf s.mem = true) : Good (execCmpGe x0 x1 x2 x3 s) :=
  always_good h (by simp [h])
theorem execCmpLtu_good x0 x1 x2 x3 (s : State) (h : memWf s.mem = true) : Good (execCmpLtu x0 x1 x2 x3 s) :=
  always_good h (by simp [h])
theorem execCmpGeu_good x0 x1 x2 x3 (s : State) (h : memWf s.mem = true) : Good (execCmpGeu x0 x1 x2 x3 s) :=
  always_good h (by simp [h])
theorem execXtr_good x0 x1 (s : State) (h : memWf s.mem = true) : Good (execXtr x0 x1 s) :=
  State.transposeWord_good _ _ _ _ _ h
theorem execXtrc_good x0 x1 (s : State) (h : memWf s.mem = true) : Good (execXtrc x0 x1 s) :=
  State.transposeWord_good _ _ _ _ _ h
theorem execTransposeOperationCompletion_good x0 (s : State) (h : memWf s.mem = true) : Good (execTransposeOperationCompletion x0 s) :=
  by unfold execTransposeOperationCompletion; with_reducible apply happen_good; (repeat' split) <;> simp [h]
theorem execUpst_good x0 x1 (s : State) (h : memWf s.mem = true) : Good (execUpst x0 x1 s) :=
  by unfold execUpst; refine perform_good h fun a => ?_; first | exact h | simp [h]
theorem execUpstCompletion_good x0 (s : State) (h : memWf s.mem = true) : Good (execUpstCompletion x0 s) :=
  by unfold execUpstCompletion; with_reducible apply happen_good; (repeat' split) <;> simp [h]
theorem execUvtag_good x0 x1 (s : State) (h : memWf s.mem = true) : Good (execUvtag x0 x1 s) :=
  by unfold execUvtag; refine perform_good h fun a => ?_; first | exact h | simp [h]

set_option maxRecDepth 20000 in
/-- No instruction faults or is refused, and each keeps memory in its canonical form. -/
theorem exec_good (i : Instr) (s : State) (hs : memWf s.mem = true) : Good (exec i s) :=
  match i with
  | .addi d a imm => execAddi_good d a imm s hs
  | .addiW d a imm => execAddiW_good d a imm s hs
  | .andi d a imm => execAndi_good d a imm s hs
  | .ori d a imm => execOri_good d a imm s hs
  | .xori d a imm => execXori_good d a imm s hs
  | .slli d a x n => execSlli_good d a x n s hs
  | .srli d a x n => execSrli_good d a x n s hs
  | .srai d a x n => execSrai_good d a x n s hs
  | .li d imm => execLi_good d imm s hs
  | .lui d imm => execLui_good d imm s hs
  | .lsi d imm => execLsi_good d imm s hs
  | .add d a b t => execAdd_good d a b t s hs
  | .sub d a b t => execSub_good d a b t s hs
  | .and d a b t => execAnd_good d a b t s hs
  | .or d a b t => execOr_good d a b t s hs
  | .xor d a b t => execXor_good d a b t s hs
  | .andn d a b t => execAndn_good d a b t s hs
  | .sll d a b t => execSll_good d a b t s hs
  | .srl d a b t => execSrl_good d a b t s hs
  | .sra d a b t => execSra_good d a b t s hs
  | .min d a b t => execMin_good d a b t s hs
  | .max d a b t => execMax_good d a b t s hs
  | .minu d a b t => execMinu_good d a b t s hs
  | .maxu d a b t => execMaxu_good d a b t s hs
  | .clz d a t => execClz_good d a t s hs
  | .ctz d a t => execCtz_good d a t s hs
  | .popc d a t => execPopc_good d a t s hs
  | .sextB d a t => execSextB_good d a t s hs
  | .sextH d a t => execSextH_good d a t s hs
  | .sextW d a t => execSextW_good d a t s hs
  | .zextB d a t => execZextB_good d a t s hs
  | .zextH d a t => execZextH_good d a t s hs
  | .zextW d a t => execZextW_good d a t s hs
  | .sadd1 d a b t => execSadd1_good d a b t s hs
  | .sadd2 d a b t => execSadd2_good d a b t s hs
  | .sadd3 d a b t => execSadd3_good d a b t s hs
  | .sadd4 d a b t => execSadd4_good d a b t s hs
  | .addW d a b t => execAddW_good d a b t s hs
  | .subW d a b t => execSubW_good d a b t s hs
  | .sllW d a b t => execSllW_good d a b t s hs
  | .srlW d a b t => execSrlW_good d a b t s hs
  | .sraW d a b t => execSraW_good d a b t s hs
  | .clzW d a t => execClzW_good d a t s hs
  | .ctzW d a t => execCtzW_good d a t s hs
  | .popcW d a t => execPopcW_good d a t s hs
  | .mul d a b => execMul_good d a b s hs
  | .mulh d a b => execMulh_good d a b s hs
  | .mulhu d a b => execMulhu_good d a b s hs
  | .mulhsu d a b => execMulhsu_good d a b s hs
  | .mulW d a b => execMulW_good d a b s hs
  | .div d a b => execDiv_good d a b s hs
  | .divu d a b => execDivu_good d a b s hs
  | .rem d a b => execRem_good d a b s hs
  | .remu d a b => execRemu_good d a b s hs
  | .divW d a b => execDivW_good d a b s hs
  | .divuW d a b => execDivuW_good d a b s hs
  | .remW d a b => execRemW_good d a b s hs
  | .remuW d a b => execRemuW_good d a b s hs
  | .ldB d b o => execLdB_good d b o s hs
  | .ldH d b o => execLdH_good d b o s hs
  | .ldW d b o => execLdW_good d b o s hs
  | .ldD d b o => execLdD_good d b o s hs
  | .ldBu d b o => execLdBu_good d b o s hs
  | .ldHu d b o => execLdHu_good d b o s hs
  | .ldWu d b o => execLdWu_good d b o s hs
  | .stB d b o => execStB_good d b o s hs
  | .stH d b o => execStH_good d b o s hs
  | .stW d b o => execStW_good d b o s hs
  | .stD d b o => execStD_good d b o s hs
  | .hld d b o => execHld_good d b o s hs
  | .hst d b o => execHst_good d b o s hs
  | .hdrop d b => execHdrop_good d b s hs
  | .aadd d a b z => execAadd_good d a b z s hs
  | .aand d a b z => execAand_good d a b z s hs
  | .aor d a b z => execAor_good d a b z s hs
  | .axor d a b z => execAxor_good d a b z s hs
  | .amin d a b z => execAmin_good d a b z s hs
  | .amax d a b z => execAmax_good d a b z s hs
  | .aminu d a b z => execAminu_good d a b z s hs
  | .amaxu d a b z => execAmaxu_good d a b z s hs
  | .aswap d a b z => execAswap_good d a b z s hs
  | .acas d a b z => execAcas_good d a b z s hs
  | .bind a b => execBind_good a b s hs
  | .acq a c => execAcq_good a c s hs
  | .rel a c => execRel_good a c s hs
  | .fenceAcq c => execFenceAcq_good c s hs
  | .fenceRel c => execFenceRel_good c s hs
  | .fence c => execFence_good c s hs
  | .lfence => execLfence_good s hs
  | .ifence => execIfence_good s hs
  | .ptgt d imm => execPtgt_good d imm s hs
  | .cmpEq d a b x => execCmpEq_good d a b x s hs
  | .cmpNe d a b x => execCmpNe_good d a b x s hs
  | .cmpLt d a b x => execCmpLt_good d a b x s hs
  | .cmpGe d a b x => execCmpGe_good d a b x s hs
  | .cmpLtu d a b x => execCmpLtu_good d a b x s hs
  | .cmpGeu d a b x => execCmpGeu_good d a b x s hs
  | .br a b k => execBr_good a b k s hs
  | .brZ a b k => execBrZ_good a b k s hs
  | .brl d a k => execBrl_good d a k s hs
  | .jr a k => execJr_good a k s hs
  | .jtab a b k => execJtab_good a b k s hs
  | .vany d p => execVany_good d p s hs
  | .vall d p => execVall_good d p s hs
  | .estat d n => execEstat_good d n s hs
  | .lset l a => execLset_good l a s hs
  | .lstr l j r t => execLstr_good l j r t s hs
  | .lbody l n => execLbody_good l n s hs
  | .lidx l d => execLidx_good l d s hs
  | .lexit l => execLexit_good l s hs
  | .lfl l f => execLfl_good l f s hs
  | .nop => execNop_good s hs
  | .stall n => execStall_good n s hs
  | .trap n => execTrap_good n s hs
  | .brk n => execBrk_good n s hs
  | .rft => execRft_good s hs
  | .csrr x n => execCsrr_good x n s hs
  | .csrw x n => execCsrw_good x n s hs
  | .yield => execYield_good s hs
  | .idle => execIdle_good s hs
  | .tlbi x k => execTlbi_good x k s hs
  | .stest x => execStest_good x s hs
  | .ststat x => execStstat_good x s hs
  | .cmapw x => execCmapw_good x s hs
  | .hmov d a => execHmov_good d a s hs
  | .hofs d a b => execHofs_good d a b s hs
  | .hseq d b => execHseq_good d b s hs
  | .hlive d a => execHlive_good d a s hs
  | .hea d a b => execHea_good d a b s hs
  | .hset d a imm => execHset_good d a imm s hs
  | .hget d a imm => execHget_good d a imm s hs
  | .ewr c a b => execEwr_good c a b s hs
  | .erd c a b => execErd_good c a b s hs
  | .edrain => execEdrain_good s hs
  | .efence => execEfence_good s hs
  | .cmm c a b => execCmm_good c a b s hs
  | .cmmh c a b => execCmmh_good c a b s hs
  | .cldb a h => execCldb_good a h s hs
  | .czero c => execCzero_good c s hs
  | .crd c a => execCrd_good c a s hs
  | .cfsel a => execCfsel_good a s hs
  | .vaddFp c a b f m => execVaddFp_good c a b f m s hs
  | .vsubFp c a b f m => execVsubFp_good c a b f m s hs
  | .vmulFp c a b f m => execVmulFp_good c a b f m s hs
  | .vminFp c a b f m => execVminFp_good c a b f m s hs
  | .vmaxFp c a b f m => execVmaxFp_good c a b f m s hs
  | .vfma c a b f m => execVfma_good c a b f m s hs
  | .vfms c a b f m => execVfms_good c a b f m s hs
  | .vfnma c a b f m => execVfnma_good c a b f m s hs
  | .vabs c a f m => execVabs_good c a f m s hs
  | .vneg c a f m => execVneg_good c a f m s hs
  | .vrcp c a m => execVrcp_good c a m s hs
  | .vrsq c a m => execVrsq_good c a m s hs
  | .vexp2 c a m => execVexp2_good c a m s hs
  | .vlog2 c a m => execVlog2_good c a m s hs
  | .vaddInt c a b f m => execVaddInt_good c a b f m s hs
  | .vsubInt c a b f m => execVsubInt_good c a b f m s hs
  | .vmulInt c a b f m => execVmulInt_good c a b f m s hs
  | .vminInt c a b f m => execVminInt_good c a b f m s hs
  | .vmaxInt c a b f m => execVmaxInt_good c a b f m s hs
  | .vadds c a b f m => execVadds_good c a b f m s hs
  | .vsubs c a b f m => execVsubs_good c a b f m s hs
  | .vand c a b f m => execVand_good c a b f m s hs
  | .vor c a b f m => execVor_good c a b f m s hs
  | .vxor c a b f m => execVxor_good c a b f m s hs
  | .vshl c a b f m => execVshl_good c a b f m s hs
  | .vsra c a b f m => execVsra_good c a b f m s hs
  | .vsrl c a b f m => execVsrl_good c a b f m s hs
  | .vcmpEq p a b f m => execVcmpEq_good p a b f m s hs
  | .vcmpNe p a b f m => execVcmpNe_good p a b f m s hs
  | .vcmpLt p a b f m => execVcmpLt_good p a b f m s hs
  | .vcmpLe p a b f m => execVcmpLe_good p a b f m s hs
  | .vcmpGt p a b f m => execVcmpGt_good p a b f m s hs
  | .vcmpGe p a b f m => execVcmpGe_good p a b f m s hs
  | .vcmpUo p a b f m => execVcmpUo_good p a b f m s hs
  | .vsel c a b => execVsel_good c a b s hs
  | .pand p q r m => execPand_good p q r m s hs
  | .por p q r m => execPor_good p q r m s hs
  | .pxor p q r m => execPxor_good p q r m s hs
  | .pnot p q m => execPnot_good p q m s hs
  | .pset p m => execPset_good p m s hs
  | .pclr p m => execPclr_good p m s hs
  | .vcvt c a r m => execVcvt_good c a r m s hs
  | .vqnt c a m => execVqnt_good c a m s hs
  | .vdq c a m => execVdq_good c a m s hs
  | .vrsum c a f m => execVrsum_good c a f m s hs
  | .vrmax c a f m => execVrmax_good c a f m s hs
  | .vrmin c a f m => execVrmin_good c a f m s hs
  | .vgather c a b m => execVgather_good c a b m s hs
  | .vscatter c a b m => execVscatter_good c a b m s hs
  | .vperm c a b m => execVperm_good c a b m s hs
  | .vmov c a m => execVmov_good c a m s hs
  | .vfill c a m => execVfill_good c a m s hs
  | .viota c m => execViota_good c m s hs
  | .xtr c a => execXtr_good c a s hs
  | .xtrc c a => execXtrc_good c a s hs
  | .upst c a => execUpst_good c a s hs
  | .uvtag a b => execUvtag_good a b s hs
  | .cpy c a b => execCpy_good c a b s hs
  | .cpym c a b => execCpym_good c a b s hs
  | .rrot c a b => execRrot_good c a b s hs
  | .ccan a => execCcan_good a s hs
  | .waitc c => execWaitc_good c s hs
  | .sbind c q b => execSbind_good c q b s hs
  | .ssch a => execSsch_good a s hs
  | .sadv => execSadv_good s hs
  | .sres a => execSres_good a s hs
  | .ginit c a => execGinit_good c a s hs
  | .gwait c a b => execGwait_good c a b s hs
  | .gread c a => execGread_good c a s hs
  | .gbar => execGbar_good s hs
  | .wact a => execWact_good a s hs
  | .wpre a => execWpre_good a s hs
  | .wref a => execWref_good a s hs
  | .wld c a => execWld_good c a s hs
  | .wst c a => execWst_good c a s hs
  | .vpub a b => execVpub_good a b s hs
  | .vswt a => execVswt_good a s hs
  | .temit c a b => execTemit_good c a b s hs
  | .jopen a => execJopen_good a s hs
  | .jacc c a => execJacc_good c a s hs
  | .jarr c a => execJarr_good c a s hs
  | .jwait a => execJwait_good a s hs
  | .kpt => execKpt_good s hs
  | .coll a => execColl_good a s hs
  | .collJ a b => execCollJ_good a b s hs
  | .csig c a => execCsig_good c a s hs
  | .afw a => execAfw_good a s hs
  | .stallStep c => execStallStep_good c s hs
  | .shadowQueueLanding c => execShadowQueueLanding_good c s hs
  | .transientExpiry c => execTransientExpiry_good c s hs
  | .loadDataReturn id => execLoadDataReturn_good id s hs
  | .loopIterationEnd c => execLoopIterationEnd_good c s hs
  | .asynchronousTrap c => execAsynchronousTrap_good c s hs
  | .idleWake c => execIdleWake_good c s hs
  | .vectorOperationCompletion id => execVectorOperationCompletion_good id s hs
  | .transposeOperationCompletion id => execTransposeOperationCompletion_good id s hs
  | .upstCompletion id => execUpstCompletion_good id s hs
  | .cubeOperationStart id => execCubeOperationStart_good id s hs
  | .cubeOperationCompletion id => execCubeOperationCompletion_good id s hs
  | .copyLanding id recv => execCopyLanding_good id recv s hs
  | .scheduleIterationStart c entry => execScheduleIterationStart_good c entry s hs
  | .scheduleIterationLanding id => execScheduleIterationLanding_good id s hs
  | .wldLanding id => execWldLanding_good id s hs
  | .wstCompletion id => execWstCompletion_good id s hs
  | .guardRefresh bank => execGuardRefresh_good bank s hs
  | .gaugeTimeout c => execGaugeTimeout_good c s hs
  | .doorbell q tail => execDoorbell_good q tail s hs
  | .launchBegin => execLaunchBegin_good s hs
  | .groupPlacement l => execGroupPlacement_good l s hs
  | .preemptionDeadline c => execPreemptionDeadline_good c s hs
  | .save g => execSave_good g s hs
  | .resume g => execResume_good g s hs
  | .taskEnd c => execTaskEnd_good c s hs
  | .stepBudgetWindow => execStepBudgetWindow_good s hs
  | .quantumExpiry core => execQuantumExpiry_good core s hs
  | .progressPromise c => execProgressPromise_good c s hs
  | .recomputeProducerCompletion l => execRecomputeProducerCompletion_good l s hs
  | .stragglerKill c => execStragglerKill_good c s hs
  | .deadlockDetection cube => execDeadlockDetection_good cube s hs
  | .spillwayChunkReturn core queue => execSpillwayChunkReturn_good core queue s hs
  | .fabricWindowAccess node op offset size data cmp => execFabricWindowAccess_good node op offset size data cmp s hs
  | .windowAccessTimeout id => execWindowAccessTimeout_good id s hs
  | .collectiveTransferSend id => execCollectiveTransferSend_good id s hs
  | .collectiveFold id => execCollectiveFold_good id s hs
  | .collectiveCompletion id => execCollectiveCompletion_good id s hs
  | .linkFailure port node => execLinkFailure_good port node s hs
  | .versionPublication region ver => execVersionPublication_good region ver s hs
  | .loweringAnnouncement node limit at_ => execLoweringAnnouncement_good node limit at_ s hs
  | .raiseProposal node limit at_ => execRaiseProposal_good node limit at_ s hs
  | .raiseGrant node => execRaiseGrant_good node s hs
  | .ceilingChange => execCeilingChange_good s hs
  | .heartbeatSend => execHeartbeatSend_good s hs
  | .heartbeat node seq limit members => execHeartbeat_good node seq limit members s hs
  | .memberEviction node => execMemberEviction_good node s hs
  | .joinRequest node limit => execJoinRequest_good node limit s hs
  | .departure node => execDeparture_good node s hs
  | .weirReq limit => execWeirReq_good limit s hs
  | .pwrDidt cube limit => execPwrDidt_good cube limit s hs
  | .registerWrite bar0 n v => execRegisterWrite_good bar0 n v s hs
  | .sensorReading cube die quarters => execSensorReading_good cube die quarters s hs
  | .governorWindow cube power => execGovernorWindow_good cube power s hs
  | .droopAlarm region => execDroopAlarm_good region s hs
  | .droopAlarmClear region => execDroopAlarmClear_good region s hs
  | .forecastUpdate => execForecastUpdate_good s hs
  | .forecastExpiry c => execForecastExpiry_good c s hs
  | .telemetrySample => execTelemetrySample_good s hs
  | .telemetryAggregate => execTelemetryAggregate_good s hs
  | .busTestRun cube => execBusTestRun_good cube s hs
  | .busTestCompletion cube pass demand => execBusTestCompletion_good cube pass demand s hs
  | .wsMapApplication core => execWsMapApplication_good core s hs
  | .elevatorDrainEnd cube cluster => execElevatorDrainEnd_good cube cluster s hs
  | .transactionRetry id => execTransactionRetry_good id s hs
  | .fatalEvent code addr => execFatalEvent_good code addr s hs
  | .coldStart failing => execColdStart_good failing s hs
  | .warmStart keep => execWarmStart_good keep s hs
  | .faultDomainAcknowledge fdom => execFaultDomainAcknowledge_good fdom s hs
  | .hostWindowAccess op offset size data cmp => execHostWindowAccess_good op offset size data cmp s hs
  | .info => execInfo_good s hs
  | .group cmd nodes => execGroup_good cmd nodes s hs
  | .keyLoad slot wrapped => execKeyLoad_good slot wrapped s hs
  | .keyClear slot => execKeyClear_good slot s hs
  | .attest nonce => execAttest_good nonce s hs
  | .errlog index => execErrlog_good index s hs
  | .status => execStatus_good s hs
  | .reset kind => execReset_good kind s hs
  | .telemetry n => execTelemetry_good n s hs
  | .dumpRead offset len => execDumpRead_good offset len s hs
  | .dumpClear => execDumpClear_good s hs
  | .configRead => execConfigRead_good s hs
  | .configWrite node slot rollback body sig => execConfigWrite_good node slot rollback body sig s hs
  | .cmapRestore cube logical => execCmapRestore_good cube logical s hs
  | .timeset v => execTimeset_good v s hs
  | .errlogRead index n => execErrlogRead_good index n s hs
  | .getMeasurements nonce => execGetMeasurements_good nonce s hs
  | .testDrained cube => execTestDrained_good cube s hs
  | .testEnd cube => execTestEnd_good cube s hs
  | .testAbort cube => execTestAbort_good cube s hs
  | .coreMapPersist => execCoreMapPersist_good s hs
  | .copyFault id => execCopyFault_good id s hs
  | .storePerformed id => execStorePerformed_good id s hs
  | .jaccCompletion id => execJaccCompletion_good id s hs
  | .collectiveTransferArrival core sender chunk digest data => execCollectiveTransferArrival_good core sender chunk digest data s hs
  | .clockStretch region => execClockStretch_good region s hs
  | .crossingBubble region => execCrossingBubble_good region s hs
  | .spdmSecuredSession => execSpdmSecuredSession_good s hs

end Sys2Proof.Machine
end

