-- ==== Sys2Proof/Laws/PerInstr.lean ====
section
/-! SUPPORT. Statements about every instruction, one lemma a constructor. -/

set_option Elab.async false
set_option linter.unusedSimpArgs false

namespace Sys2Proof

/-- A word is read back as it was written, with any header (spec 02 R41, R52, R53). -/
def Laws.RoundTrip.Statement (i : Instr) : Prop :=
  ∀ h : Header, i.wf = true → i.isWord = true →
    decode (encodeWord h i) = .ok i ∧ decodeHeader (encodeWord h i) = h

theorem decodeBody_header (h : Header) (w : BitVec 32) : decodeBody (h.bits ||| w) = decodeBody w := by
  simp (disch := decide) only [decodeBody, decodeScalarReg, decodeMulDiv, decodeLoad, decodeLoadU, decodeStore, decodeHandleMem, decodeAtomic, decodeSync, decodeCompare, decodeTransfer, decodeVote, decodeLoop, decodeSystem, decodeHandle, decodeEngineConfig, decodeCubeProduct, decodeCubeLatch, decodeCubeRead, decodeCubeSelect, decodeVecFp, decodeVecFused, decodeVecInt, decodeVecCompare, decodeVecPred, decodeVecConvert, decodeVecReduce, decodeVecMove, decodeTranspose, decodeUpdate, decodeCopy, decodeStream, decodeGauge, decodeWeightStore, decodeVersion, decodeJoin, decodeCollective, decodePower, fld_or_header]

theorem decodeHeader_word (h : Header) (w : BitVec 32) (hw : fld w 28 4 = 0#4) : decodeHeader (h.bits ||| w) = h := by
  have hz : ∀ i, i < 4 → w.getLsbD (28 + i) = false := by
    intro i hi
    have := congrArg (fun v => v.getLsbD i) hw
    simpa [fld, hi] using this
  obtain ⟨e, s, v⟩ := h
  simp only [decodeHeader, Header.mk.injEq]
  refine ⟨fld_bits ?_, fld_bits ?_, fld_bits ?_⟩ <;> intro i hi <;>
    simp only [BitVec.getLsbD_or, Header.bits, BitVec.getLsbD_append, BitVec.getLsbD_zero]
  · have := hz 3 (by decide); grind
  · have := hz 2 (by decide); grind
  · have := hz i (by omega); grind

theorem major_01 {w : BitVec 32} (h : fld w 22 6 = 0x01#6) : decodeBody w = .ok (.addi (fld w 17 5) (fld w 12 5) (fld w 0 12)) := by
  unfold decodeBody; rw [h]; rfl
theorem major_02 {w : BitVec 32} (h : fld w 22 6 = 0x02#6) : decodeBody w = .ok (.addiW (fld w 17 5) (fld w 12 5) (fld w 0 12)) := by
  unfold decodeBody; rw [h]; rfl
theorem major_03 {w : BitVec 32} (h : fld w 22 6 = 0x03#6) : decodeBody w = .ok (.andi (fld w 17 5) (fld w 12 5) (fld w 0 12)) := by
  unfold decodeBody; rw [h]; rfl
theorem major_04 {w : BitVec 32} (h : fld w 22 6 = 0x04#6) : decodeBody w = .ok (.ori (fld w 17 5) (fld w 12 5) (fld w 0 12)) := by
  unfold decodeBody; rw [h]; rfl
theorem major_05 {w : BitVec 32} (h : fld w 22 6 = 0x05#6) : decodeBody w = .ok (.xori (fld w 17 5) (fld w 12 5) (fld w 0 12)) := by
  unfold decodeBody; rw [h]; rfl
theorem major_06 {w : BitVec 32} (h : fld w 22 6 = 0x06#6) : decodeBody w = reserved (fld w 7 5 = 0#5) (.slli (fld w 17 5) (fld w 12 5) (fld w 6 1) (fld w 0 6)) := by
  unfold decodeBody; rw [h]; rfl
theorem major_07 {w : BitVec 32} (h : fld w 22 6 = 0x07#6) : decodeBody w = reserved (fld w 7 5 = 0#5) (.srli (fld w 17 5) (fld w 12 5) (fld w 6 1) (fld w 0 6)) := by
  unfold decodeBody; rw [h]; rfl
theorem major_08 {w : BitVec 32} (h : fld w 22 6 = 0x08#6) : decodeBody w = reserved (fld w 7 5 = 0#5) (.srai (fld w 17 5) (fld w 12 5) (fld w 6 1) (fld w 0 6)) := by
  unfold decodeBody; rw [h]; rfl
theorem major_09 {w : BitVec 32} (h : fld w 22 6 = 0x09#6) : decodeBody w = .ok (.li (fld w 17 5) (fld w 0 17)) := by
  unfold decodeBody; rw [h]; rfl
theorem major_0A {w : BitVec 32} (h : fld w 22 6 = 0x0A#6) : decodeBody w = .ok (.lui (fld w 17 5) (fld w 0 17)) := by
  unfold decodeBody; rw [h]; rfl
theorem major_0B {w : BitVec 32} (h : fld w 22 6 = 0x0B#6) : decodeBody w = .ok (.lsi (fld w 17 5) (fld w 0 17)) := by
  unfold decodeBody; rw [h]; rfl
theorem major_10 {w : BitVec 32} (h : fld w 22 6 = 0x10#6) : decodeBody w = decodeScalarReg w := by
  unfold decodeBody; rw [h]; rfl
theorem major_11 {w : BitVec 32} (h : fld w 22 6 = 0x11#6) : decodeBody w = decodeMulDiv w := by
  unfold decodeBody; rw [h]; rfl
theorem major_12 {w : BitVec 32} (h : fld w 22 6 = 0x12#6) : decodeBody w = decodeLoad w := by
  unfold decodeBody; rw [h]; rfl
theorem major_13 {w : BitVec 32} (h : fld w 22 6 = 0x13#6) : decodeBody w = decodeLoadU w := by
  unfold decodeBody; rw [h]; rfl
theorem major_14 {w : BitVec 32} (h : fld w 22 6 = 0x14#6) : decodeBody w = decodeStore w := by
  unfold decodeBody; rw [h]; rfl
theorem major_17 {w : BitVec 32} (h : fld w 22 6 = 0x17#6) : decodeBody w = decodeHandleMem w := by
  unfold decodeBody; rw [h]; rfl
theorem major_18 {w : BitVec 32} (h : fld w 22 6 = 0x18#6) : decodeBody w = decodeAtomic w := by
  unfold decodeBody; rw [h]; rfl
theorem major_19 {w : BitVec 32} (h : fld w 22 6 = 0x19#6) : decodeBody w = decodeSync w := by
  unfold decodeBody; rw [h]; rfl
theorem major_1A {w : BitVec 32} (h : fld w 22 6 = 0x1A#6) : decodeBody w = .ok (.ptgt (fld w 17 5) (fld w 0 17)) := by
  unfold decodeBody; rw [h]; rfl
theorem major_1B {w : BitVec 32} (h : fld w 22 6 = 0x1B#6) : decodeBody w = decodeCompare w := by
  unfold decodeBody; rw [h]; rfl
theorem major_1C {w : BitVec 32} (h : fld w 22 6 = 0x1C#6) : decodeBody w = decodeTransfer w := by
  unfold decodeBody; rw [h]; rfl
theorem major_1D {w : BitVec 32} (h : fld w 22 6 = 0x1D#6) : decodeBody w = decodeVote w := by
  unfold decodeBody; rw [h]; rfl
theorem major_1E {w : BitVec 32} (h : fld w 22 6 = 0x1E#6) : decodeBody w = decodeLoop w := by
  unfold decodeBody; rw [h]; rfl
theorem major_1F {w : BitVec 32} (h : fld w 22 6 = 0x1F#6) : decodeBody w = decodeSystem w := by
  unfold decodeBody; rw [h]; rfl
theorem major_20 {w : BitVec 32} (h : fld w 22 6 = 0x20#6) : decodeBody w = decodeHandle w := by
  unfold decodeBody; rw [h]; rfl
theorem major_21 {w : BitVec 32} (h : fld w 22 6 = 0x21#6) : decodeBody w = .ok (.hset (fld w 17 5) (fld w 12 5) (fld w 0 12)) := by
  unfold decodeBody; rw [h]; rfl
theorem major_22 {w : BitVec 32} (h : fld w 22 6 = 0x22#6) : decodeBody w = .ok (.hget (fld w 17 5) (fld w 12 5) (fld w 0 12)) := by
  unfold decodeBody; rw [h]; rfl
theorem major_23 {w : BitVec 32} (h : fld w 22 6 = 0x23#6) : decodeBody w = decodeEngineConfig w := by
  unfold decodeBody; rw [h]; rfl
theorem major_24 {w : BitVec 32} (h : fld w 22 6 = 0x24#6) : decodeBody w = decodeCubeProduct w := by
  unfold decodeBody; rw [h]; rfl
theorem major_25 {w : BitVec 32} (h : fld w 22 6 = 0x25#6) : decodeBody w = decodeCubeLatch w := by
  unfold decodeBody; rw [h]; rfl
theorem major_26 {w : BitVec 32} (h : fld w 22 6 = 0x26#6) : decodeBody w = decodeCubeRead w := by
  unfold decodeBody; rw [h]; rfl
theorem major_27 {w : BitVec 32} (h : fld w 22 6 = 0x27#6) : decodeBody w = decodeCubeSelect w := by
  unfold decodeBody; rw [h]; rfl
theorem major_28 {w : BitVec 32} (h : fld w 22 6 = 0x28#6) : decodeBody w = decodeVecFp w := by
  unfold decodeBody; rw [h]; rfl
theorem major_29 {w : BitVec 32} (h : fld w 22 6 = 0x29#6) : decodeBody w = decodeVecFused w := by
  unfold decodeBody; rw [h]; rfl
theorem major_2A {w : BitVec 32} (h : fld w 22 6 = 0x2A#6) : decodeBody w = decodeVecInt w := by
  unfold decodeBody; rw [h]; rfl
theorem major_2B {w : BitVec 32} (h : fld w 22 6 = 0x2B#6) : decodeBody w = decodeVecCompare w := by
  unfold decodeBody; rw [h]; rfl
theorem major_2C {w : BitVec 32} (h : fld w 22 6 = 0x2C#6) : decodeBody w = decodeVecPred w := by
  unfold decodeBody; rw [h]; rfl
theorem major_2D {w : BitVec 32} (h : fld w 22 6 = 0x2D#6) : decodeBody w = decodeVecConvert w := by
  unfold decodeBody; rw [h]; rfl
theorem major_2E {w : BitVec 32} (h : fld w 22 6 = 0x2E#6) : decodeBody w = decodeVecReduce w := by
  unfold decodeBody; rw [h]; rfl
theorem major_2F {w : BitVec 32} (h : fld w 22 6 = 0x2F#6) : decodeBody w = decodeVecMove w := by
  unfold decodeBody; rw [h]; rfl
theorem major_30 {w : BitVec 32} (h : fld w 22 6 = 0x30#6) : decodeBody w = decodeTranspose w := by
  unfold decodeBody; rw [h]; rfl
theorem major_31 {w : BitVec 32} (h : fld w 22 6 = 0x31#6) : decodeBody w = decodeUpdate w := by
  unfold decodeBody; rw [h]; rfl
theorem major_32 {w : BitVec 32} (h : fld w 22 6 = 0x32#6) : decodeBody w = decodeCopy w := by
  unfold decodeBody; rw [h]; rfl
theorem major_33 {w : BitVec 32} (h : fld w 22 6 = 0x33#6) : decodeBody w = decodeStream w := by
  unfold decodeBody; rw [h]; rfl
theorem major_34 {w : BitVec 32} (h : fld w 22 6 = 0x34#6) : decodeBody w = decodeGauge w := by
  unfold decodeBody; rw [h]; rfl
theorem major_35 {w : BitVec 32} (h : fld w 22 6 = 0x35#6) : decodeBody w = decodeWeightStore w := by
  unfold decodeBody; rw [h]; rfl
theorem major_36 {w : BitVec 32} (h : fld w 22 6 = 0x36#6) : decodeBody w = decodeVersion w := by
  unfold decodeBody; rw [h]; rfl
theorem major_37 {w : BitVec 32} (h : fld w 22 6 = 0x37#6) : decodeBody w = decodeJoin w := by
  unfold decodeBody; rw [h]; rfl
theorem major_38 {w : BitVec 32} (h : fld w 22 6 = 0x38#6) : decodeBody w = decodeCollective w := by
  unfold decodeBody; rw [h]; rfl
theorem major_39 {w : BitVec 32} (h : fld w 22 6 = 0x39#6) : decodeBody w = decodePower w := by
  unfold decodeBody; rw [h]; rfl

theorem bits1_cases (c : BitVec 1) : c = 0 ∨ c = 1 := by revert c; decide
theorem bits2_cases (c : BitVec 2) : c = 0 ∨ c = 1 ∨ c = 2 ∨ c = 3 := by revert c; decide
theorem bits3_cases (c : BitVec 3) : c = 0 ∨ c = 1 ∨ c = 2 ∨ c = 3 ∨ c = 4 ∨ c = 5 ∨ c = 6 ∨ c = 7 := by
  revert c; decide

theorem roundTrip_of {i : Instr} (hb : i.wf = true → decodeBody (encode i) = .ok i) (ht : fld (encode i) 28 4 = 0#4) :
    Laws.RoundTrip.Statement i := by
  intro h hw _
  refine ⟨?_, decodeHeader_word h _ ht⟩
  simp only [decode, encodeWord, decodeBody_header, hb hw, hw, if_true]

theorem roundTrip_none {i : Instr} (h : encode i = 0#32) : Laws.RoundTrip.Statement i := by
  intro _ _ hw
  simp [Instr.isWord, h] at hw

theorem Laws.RoundTrip.addi d a i : Laws.RoundTrip.Statement (.addi d a i) :=
  roundTrip_of (by intro h; simp [encode, major_01, reserved]) (by simp [encode])
theorem Laws.RoundTrip.addiW d a i : Laws.RoundTrip.Statement (.addiW d a i) :=
  roundTrip_of (by intro h; simp [encode, major_02, reserved]) (by simp [encode])
theorem Laws.RoundTrip.andi d a i : Laws.RoundTrip.Statement (.andi d a i) :=
  roundTrip_of (by intro h; simp [encode, major_03, reserved]) (by simp [encode])
theorem Laws.RoundTrip.ori d a i : Laws.RoundTrip.Statement (.ori d a i) :=
  roundTrip_of (by intro h; simp [encode, major_04, reserved]) (by simp [encode])
theorem Laws.RoundTrip.xori d a i : Laws.RoundTrip.Statement (.xori d a i) :=
  roundTrip_of (by intro h; simp [encode, major_05, reserved]) (by simp [encode])
theorem Laws.RoundTrip.slli d a x n : Laws.RoundTrip.Statement (.slli d a x n) :=
  roundTrip_of (by intro h; simp [encode, major_06, reserved]) (by simp [encode])
theorem Laws.RoundTrip.srli d a x n : Laws.RoundTrip.Statement (.srli d a x n) :=
  roundTrip_of (by intro h; simp [encode, major_07, reserved]) (by simp [encode])
theorem Laws.RoundTrip.srai d a x n : Laws.RoundTrip.Statement (.srai d a x n) :=
  roundTrip_of (by intro h; simp [encode, major_08, reserved]) (by simp [encode])
theorem Laws.RoundTrip.li d i : Laws.RoundTrip.Statement (.li d i) :=
  roundTrip_of (by intro h; simp [encode, major_09, reserved]) (by simp [encode])
theorem Laws.RoundTrip.lui d i : Laws.RoundTrip.Statement (.lui d i) :=
  roundTrip_of (by intro h; simp [encode, major_0A, reserved]) (by simp [encode])
theorem Laws.RoundTrip.lsi d i : Laws.RoundTrip.Statement (.lsi d i) :=
  roundTrip_of (by intro h; simp [encode, major_0B, reserved]) (by simp [encode])
theorem Laws.RoundTrip.add d a b t : Laws.RoundTrip.Statement (.add d a b t) :=
  roundTrip_of (by intro h; simp [encode, major_10, decodeScalarReg, reserved]) (by simp [encode])
theorem Laws.RoundTrip.sub d a b t : Laws.RoundTrip.Statement (.sub d a b t) :=
  roundTrip_of (by intro h; simp [encode, major_10, decodeScalarReg, reserved]) (by simp [encode])
theorem Laws.RoundTrip.and d a b t : Laws.RoundTrip.Statement (.and d a b t) :=
  roundTrip_of (by intro h; simp [encode, major_10, decodeScalarReg, reserved]) (by simp [encode])
theorem Laws.RoundTrip.or d a b t : Laws.RoundTrip.Statement (.or d a b t) :=
  roundTrip_of (by intro h; simp [encode, major_10, decodeScalarReg, reserved]) (by simp [encode])
theorem Laws.RoundTrip.xor d a b t : Laws.RoundTrip.Statement (.xor d a b t) :=
  roundTrip_of (by intro h; simp [encode, major_10, decodeScalarReg, reserved]) (by simp [encode])
theorem Laws.RoundTrip.andn d a b t : Laws.RoundTrip.Statement (.andn d a b t) :=
  roundTrip_of (by intro h; simp [encode, major_10, decodeScalarReg, reserved]) (by simp [encode])
theorem Laws.RoundTrip.sll d a b t : Laws.RoundTrip.Statement (.sll d a b t) :=
  roundTrip_of (by intro h; simp [encode, major_10, decodeScalarReg, reserved]) (by simp [encode])
theorem Laws.RoundTrip.srl d a b t : Laws.RoundTrip.Statement (.srl d a b t) :=
  roundTrip_of (by intro h; simp [encode, major_10, decodeScalarReg, reserved]) (by simp [encode])
theorem Laws.RoundTrip.sra d a b t : Laws.RoundTrip.Statement (.sra d a b t) :=
  roundTrip_of (by intro h; simp [encode, major_10, decodeScalarReg, reserved]) (by simp [encode])
theorem Laws.RoundTrip.min d a b t : Laws.RoundTrip.Statement (.min d a b t) :=
  roundTrip_of (by intro h; simp [encode, major_10, decodeScalarReg, reserved]) (by simp [encode])
theorem Laws.RoundTrip.max d a b t : Laws.RoundTrip.Statement (.max d a b t) :=
  roundTrip_of (by intro h; simp [encode, major_10, decodeScalarReg, reserved]) (by simp [encode])
theorem Laws.RoundTrip.minu d a b t : Laws.RoundTrip.Statement (.minu d a b t) :=
  roundTrip_of (by intro h; simp [encode, major_10, decodeScalarReg, reserved]) (by simp [encode])
theorem Laws.RoundTrip.maxu d a b t : Laws.RoundTrip.Statement (.maxu d a b t) :=
  roundTrip_of (by intro h; simp [encode, major_10, decodeScalarReg, reserved]) (by simp [encode])
theorem Laws.RoundTrip.clz d a t : Laws.RoundTrip.Statement (.clz d a t) :=
  roundTrip_of (by intro h; simp [encode, major_10, decodeScalarReg, reserved]) (by simp [encode])
theorem Laws.RoundTrip.ctz d a t : Laws.RoundTrip.Statement (.ctz d a t) :=
  roundTrip_of (by intro h; simp [encode, major_10, decodeScalarReg, reserved]) (by simp [encode])
theorem Laws.RoundTrip.popc d a t : Laws.RoundTrip.Statement (.popc d a t) :=
  roundTrip_of (by intro h; simp [encode, major_10, decodeScalarReg, reserved]) (by simp [encode])
theorem Laws.RoundTrip.sextB d a t : Laws.RoundTrip.Statement (.sextB d a t) :=
  roundTrip_of (by intro h; simp [encode, major_10, decodeScalarReg, reserved]) (by simp [encode])
theorem Laws.RoundTrip.sextH d a t : Laws.RoundTrip.Statement (.sextH d a t) :=
  roundTrip_of (by intro h; simp [encode, major_10, decodeScalarReg, reserved]) (by simp [encode])
theorem Laws.RoundTrip.sextW d a t : Laws.RoundTrip.Statement (.sextW d a t) :=
  roundTrip_of (by intro h; simp [encode, major_10, decodeScalarReg, reserved]) (by simp [encode])
theorem Laws.RoundTrip.zextB d a t : Laws.RoundTrip.Statement (.zextB d a t) :=
  roundTrip_of (by intro h; simp [encode, major_10, decodeScalarReg, reserved]) (by simp [encode])
theorem Laws.RoundTrip.zextH d a t : Laws.RoundTrip.Statement (.zextH d a t) :=
  roundTrip_of (by intro h; simp [encode, major_10, decodeScalarReg, reserved]) (by simp [encode])
theorem Laws.RoundTrip.zextW d a t : Laws.RoundTrip.Statement (.zextW d a t) :=
  roundTrip_of (by intro h; simp [encode, major_10, decodeScalarReg, reserved]) (by simp [encode])
theorem Laws.RoundTrip.sadd1 d a b t : Laws.RoundTrip.Statement (.sadd1 d a b t) :=
  roundTrip_of (by intro h; simp [encode, major_10, decodeScalarReg, reserved]) (by simp [encode])
theorem Laws.RoundTrip.sadd2 d a b t : Laws.RoundTrip.Statement (.sadd2 d a b t) :=
  roundTrip_of (by intro h; simp [encode, major_10, decodeScalarReg, reserved]) (by simp [encode])
theorem Laws.RoundTrip.sadd3 d a b t : Laws.RoundTrip.Statement (.sadd3 d a b t) :=
  roundTrip_of (by intro h; simp [encode, major_10, decodeScalarReg, reserved]) (by simp [encode])
theorem Laws.RoundTrip.sadd4 d a b t : Laws.RoundTrip.Statement (.sadd4 d a b t) :=
  roundTrip_of (by intro h; simp [encode, major_10, decodeScalarReg, reserved]) (by simp [encode])
theorem Laws.RoundTrip.addW d a b t : Laws.RoundTrip.Statement (.addW d a b t) :=
  roundTrip_of (by intro h; simp [encode, major_10, decodeScalarReg, reserved]) (by simp [encode])
theorem Laws.RoundTrip.subW d a b t : Laws.RoundTrip.Statement (.subW d a b t) :=
  roundTrip_of (by intro h; simp [encode, major_10, decodeScalarReg, reserved]) (by simp [encode])
theorem Laws.RoundTrip.sllW d a b t : Laws.RoundTrip.Statement (.sllW d a b t) :=
  roundTrip_of (by intro h; simp [encode, major_10, decodeScalarReg, reserved]) (by simp [encode])
theorem Laws.RoundTrip.srlW d a b t : Laws.RoundTrip.Statement (.srlW d a b t) :=
  roundTrip_of (by intro h; simp [encode, major_10, decodeScalarReg, reserved]) (by simp [encode])
theorem Laws.RoundTrip.sraW d a b t : Laws.RoundTrip.Statement (.sraW d a b t) :=
  roundTrip_of (by intro h; simp [encode, major_10, decodeScalarReg, reserved]) (by simp [encode])
theorem Laws.RoundTrip.clzW d a t : Laws.RoundTrip.Statement (.clzW d a t) :=
  roundTrip_of (by intro h; simp [encode, major_10, decodeScalarReg, reserved]) (by simp [encode])
theorem Laws.RoundTrip.ctzW d a t : Laws.RoundTrip.Statement (.ctzW d a t) :=
  roundTrip_of (by intro h; simp [encode, major_10, decodeScalarReg, reserved]) (by simp [encode])
theorem Laws.RoundTrip.popcW d a t : Laws.RoundTrip.Statement (.popcW d a t) :=
  roundTrip_of (by intro h; simp [encode, major_10, decodeScalarReg, reserved]) (by simp [encode])
theorem Laws.RoundTrip.mul d a b : Laws.RoundTrip.Statement (.mul d a b) :=
  roundTrip_of (by intro h; simp [encode, major_11, decodeMulDiv, reserved]) (by simp [encode])
theorem Laws.RoundTrip.mulh d a b : Laws.RoundTrip.Statement (.mulh d a b) :=
  roundTrip_of (by intro h; simp [encode, major_11, decodeMulDiv, reserved]) (by simp [encode])
theorem Laws.RoundTrip.mulhu d a b : Laws.RoundTrip.Statement (.mulhu d a b) :=
  roundTrip_of (by intro h; simp [encode, major_11, decodeMulDiv, reserved]) (by simp [encode])
theorem Laws.RoundTrip.mulhsu d a b : Laws.RoundTrip.Statement (.mulhsu d a b) :=
  roundTrip_of (by intro h; simp [encode, major_11, decodeMulDiv, reserved]) (by simp [encode])
theorem Laws.RoundTrip.mulW d a b : Laws.RoundTrip.Statement (.mulW d a b) :=
  roundTrip_of (by intro h; simp [encode, major_11, decodeMulDiv, reserved]) (by simp [encode])
theorem Laws.RoundTrip.div d a b : Laws.RoundTrip.Statement (.div d a b) :=
  roundTrip_of (by intro h; simp [encode, major_11, decodeMulDiv, reserved]) (by simp [encode])
theorem Laws.RoundTrip.divu d a b : Laws.RoundTrip.Statement (.divu d a b) :=
  roundTrip_of (by intro h; simp [encode, major_11, decodeMulDiv, reserved]) (by simp [encode])
theorem Laws.RoundTrip.rem d a b : Laws.RoundTrip.Statement (.rem d a b) :=
  roundTrip_of (by intro h; simp [encode, major_11, decodeMulDiv, reserved]) (by simp [encode])
theorem Laws.RoundTrip.remu d a b : Laws.RoundTrip.Statement (.remu d a b) :=
  roundTrip_of (by intro h; simp [encode, major_11, decodeMulDiv, reserved]) (by simp [encode])
theorem Laws.RoundTrip.divW d a b : Laws.RoundTrip.Statement (.divW d a b) :=
  roundTrip_of (by intro h; simp [encode, major_11, decodeMulDiv, reserved]) (by simp [encode])
theorem Laws.RoundTrip.divuW d a b : Laws.RoundTrip.Statement (.divuW d a b) :=
  roundTrip_of (by intro h; simp [encode, major_11, decodeMulDiv, reserved]) (by simp [encode])
theorem Laws.RoundTrip.remW d a b : Laws.RoundTrip.Statement (.remW d a b) :=
  roundTrip_of (by intro h; simp [encode, major_11, decodeMulDiv, reserved]) (by simp [encode])
theorem Laws.RoundTrip.remuW d a b : Laws.RoundTrip.Statement (.remuW d a b) :=
  roundTrip_of (by intro h; simp [encode, major_11, decodeMulDiv, reserved]) (by simp [encode])
theorem Laws.RoundTrip.ldB d b o : Laws.RoundTrip.Statement (.ldB d b o) :=
  roundTrip_of (by intro h; simp [encode, major_12, decodeLoad, reserved]) (by simp [encode])
theorem Laws.RoundTrip.ldH d b o : Laws.RoundTrip.Statement (.ldH d b o) :=
  roundTrip_of (by intro h; simp [encode, major_12, decodeLoad, reserved]) (by simp [encode])
theorem Laws.RoundTrip.ldW d b o : Laws.RoundTrip.Statement (.ldW d b o) :=
  roundTrip_of (by intro h; simp [encode, major_12, decodeLoad, reserved]) (by simp [encode])
theorem Laws.RoundTrip.ldD d b o : Laws.RoundTrip.Statement (.ldD d b o) :=
  roundTrip_of (by intro h; simp [encode, major_12, decodeLoad, reserved]) (by simp [encode])
theorem Laws.RoundTrip.ldBu d b o : Laws.RoundTrip.Statement (.ldBu d b o) :=
  roundTrip_of (by intro h; simp [encode, major_13, decodeLoadU, reserved]) (by simp [encode])
theorem Laws.RoundTrip.ldHu d b o : Laws.RoundTrip.Statement (.ldHu d b o) :=
  roundTrip_of (by intro h; simp [encode, major_13, decodeLoadU, reserved]) (by simp [encode])
theorem Laws.RoundTrip.ldWu d b o : Laws.RoundTrip.Statement (.ldWu d b o) :=
  roundTrip_of (by intro h; simp [encode, major_13, decodeLoadU, reserved]) (by simp [encode])
theorem Laws.RoundTrip.stB d b o : Laws.RoundTrip.Statement (.stB d b o) :=
  roundTrip_of (by intro h; simp [encode, major_14, decodeStore, reserved]) (by simp [encode])
theorem Laws.RoundTrip.stH d b o : Laws.RoundTrip.Statement (.stH d b o) :=
  roundTrip_of (by intro h; simp [encode, major_14, decodeStore, reserved]) (by simp [encode])
theorem Laws.RoundTrip.stW d b o : Laws.RoundTrip.Statement (.stW d b o) :=
  roundTrip_of (by intro h; simp [encode, major_14, decodeStore, reserved]) (by simp [encode])
theorem Laws.RoundTrip.stD d b o : Laws.RoundTrip.Statement (.stD d b o) :=
  roundTrip_of (by intro h; simp [encode, major_14, decodeStore, reserved]) (by simp [encode])
theorem Laws.RoundTrip.hld d b o : Laws.RoundTrip.Statement (.hld d b o) :=
  roundTrip_of (by intro h; simp [encode, major_17, decodeHandleMem, reserved]) (by simp [encode])
theorem Laws.RoundTrip.hst d b o : Laws.RoundTrip.Statement (.hst d b o) :=
  roundTrip_of (by intro h; simp [encode, major_17, decodeHandleMem, reserved]) (by simp [encode])
theorem Laws.RoundTrip.hdrop d b : Laws.RoundTrip.Statement (.hdrop d b) :=
  roundTrip_of (by intro h; simp [encode, major_17, decodeHandleMem, reserved]) (by simp [encode])
theorem Laws.RoundTrip.aadd d a b z : Laws.RoundTrip.Statement (.aadd d a b z) :=
  roundTrip_of (by intro h; simp [encode, major_18, decodeAtomic, reserved]) (by simp [encode])
theorem Laws.RoundTrip.aand d a b z : Laws.RoundTrip.Statement (.aand d a b z) :=
  roundTrip_of (by intro h; simp [encode, major_18, decodeAtomic, reserved]) (by simp [encode])
theorem Laws.RoundTrip.aor d a b z : Laws.RoundTrip.Statement (.aor d a b z) :=
  roundTrip_of (by intro h; simp [encode, major_18, decodeAtomic, reserved]) (by simp [encode])
theorem Laws.RoundTrip.axor d a b z : Laws.RoundTrip.Statement (.axor d a b z) :=
  roundTrip_of (by intro h; simp [encode, major_18, decodeAtomic, reserved]) (by simp [encode])
theorem Laws.RoundTrip.amin d a b z : Laws.RoundTrip.Statement (.amin d a b z) :=
  roundTrip_of (by intro h; simp [encode, major_18, decodeAtomic, reserved]) (by simp [encode])
theorem Laws.RoundTrip.amax d a b z : Laws.RoundTrip.Statement (.amax d a b z) :=
  roundTrip_of (by intro h; simp [encode, major_18, decodeAtomic, reserved]) (by simp [encode])
theorem Laws.RoundTrip.aminu d a b z : Laws.RoundTrip.Statement (.aminu d a b z) :=
  roundTrip_of (by intro h; simp [encode, major_18, decodeAtomic, reserved]) (by simp [encode])
theorem Laws.RoundTrip.amaxu d a b z : Laws.RoundTrip.Statement (.amaxu d a b z) :=
  roundTrip_of (by intro h; simp [encode, major_18, decodeAtomic, reserved]) (by simp [encode])
theorem Laws.RoundTrip.aswap d a b z : Laws.RoundTrip.Statement (.aswap d a b z) :=
  roundTrip_of (by intro h; simp [encode, major_18, decodeAtomic, reserved]) (by simp [encode])
theorem Laws.RoundTrip.acas d a b z : Laws.RoundTrip.Statement (.acas d a b z) :=
  roundTrip_of (by intro h; simp [encode, major_18, decodeAtomic, reserved]) (by simp [encode])
theorem Laws.RoundTrip.bind a b : Laws.RoundTrip.Statement (.bind a b) :=
  roundTrip_of (by intro h; simp [encode, major_19, decodeSync, reserved]) (by simp [encode])
theorem Laws.RoundTrip.acq a c : Laws.RoundTrip.Statement (.acq a c) :=
  roundTrip_of (by intro h; rcases bits3_cases c with rfl | rfl | rfl | rfl | rfl | rfl | rfl | rfl <;> simp [encode, major_19, decodeSync, reserved]) (by simp [encode])
theorem Laws.RoundTrip.rel a c : Laws.RoundTrip.Statement (.rel a c) :=
  roundTrip_of (by intro h; rcases bits3_cases c with rfl | rfl | rfl | rfl | rfl | rfl | rfl | rfl <;> simp [encode, major_19, decodeSync, reserved]) (by simp [encode])
theorem Laws.RoundTrip.fenceAcq c : Laws.RoundTrip.Statement (.fenceAcq c) :=
  roundTrip_of (by intro h; rcases bits3_cases c with rfl | rfl | rfl | rfl | rfl | rfl | rfl | rfl <;> simp [encode, major_19, decodeSync, reserved]) (by simp [encode])
theorem Laws.RoundTrip.fenceRel c : Laws.RoundTrip.Statement (.fenceRel c) :=
  roundTrip_of (by intro h; rcases bits3_cases c with rfl | rfl | rfl | rfl | rfl | rfl | rfl | rfl <;> simp [encode, major_19, decodeSync, reserved]) (by simp [encode])
theorem Laws.RoundTrip.fence c : Laws.RoundTrip.Statement (.fence c) :=
  roundTrip_of (by intro h; rcases bits3_cases c with rfl | rfl | rfl | rfl | rfl | rfl | rfl | rfl <;> simp [encode, major_19, decodeSync, reserved]) (by simp [encode])
theorem Laws.RoundTrip.lfence : Laws.RoundTrip.Statement (.lfence) :=
  roundTrip_of (by intro h; simp [encode, major_19, decodeSync, reserved]) (by simp [encode])
theorem Laws.RoundTrip.ifence : Laws.RoundTrip.Statement (.ifence) :=
  roundTrip_of (by intro h; simp [encode, major_19, decodeSync, reserved]) (by simp [encode])
theorem Laws.RoundTrip.ptgt d i : Laws.RoundTrip.Statement (.ptgt d i) :=
  roundTrip_of (by intro h; simp [encode, major_1A, reserved]) (by simp [encode])
theorem Laws.RoundTrip.cmpEq d a b x : Laws.RoundTrip.Statement (.cmpEq d a b x) :=
  roundTrip_of (by intro h; rcases bits1_cases x with rfl | rfl <;> simp [encode, major_1B, decodeCompare, reserved]) (by simp [encode])
theorem Laws.RoundTrip.cmpNe d a b x : Laws.RoundTrip.Statement (.cmpNe d a b x) :=
  roundTrip_of (by intro h; rcases bits1_cases x with rfl | rfl <;> simp [encode, major_1B, decodeCompare, reserved]) (by simp [encode])
theorem Laws.RoundTrip.cmpLt d a b x : Laws.RoundTrip.Statement (.cmpLt d a b x) :=
  roundTrip_of (by intro h; rcases bits1_cases x with rfl | rfl <;> simp [encode, major_1B, decodeCompare, reserved]) (by simp [encode])
theorem Laws.RoundTrip.cmpGe d a b x : Laws.RoundTrip.Statement (.cmpGe d a b x) :=
  roundTrip_of (by intro h; rcases bits1_cases x with rfl | rfl <;> simp [encode, major_1B, decodeCompare, reserved]) (by simp [encode])
theorem Laws.RoundTrip.cmpLtu d a b x : Laws.RoundTrip.Statement (.cmpLtu d a b x) :=
  roundTrip_of (by intro h; rcases bits1_cases x with rfl | rfl <;> simp [encode, major_1B, decodeCompare, reserved]) (by simp [encode])
theorem Laws.RoundTrip.cmpGeu d a b x : Laws.RoundTrip.Statement (.cmpGeu d a b x) :=
  roundTrip_of (by intro h; rcases bits1_cases x with rfl | rfl <;> simp [encode, major_1B, decodeCompare, reserved]) (by simp [encode])
theorem Laws.RoundTrip.br a b k : Laws.RoundTrip.Statement (.br a b k) :=
  roundTrip_of (by intro h; simp [encode, major_1C, decodeTransfer, reserved]) (by simp [encode])
theorem Laws.RoundTrip.brZ a b k : Laws.RoundTrip.Statement (.brZ a b k) :=
  roundTrip_of (by intro h; simp [encode, major_1C, decodeTransfer, reserved]) (by simp [encode])
theorem Laws.RoundTrip.brl d a k : Laws.RoundTrip.Statement (.brl d a k) :=
  roundTrip_of (by intro h; simp [encode, major_1C, decodeTransfer, reserved]) (by simp [encode])
theorem Laws.RoundTrip.jr a k : Laws.RoundTrip.Statement (.jr a k) :=
  roundTrip_of (by intro h; simp [encode, major_1C, decodeTransfer, reserved]) (by simp [encode])
theorem Laws.RoundTrip.jtab a b k : Laws.RoundTrip.Statement (.jtab a b k) :=
  roundTrip_of (by intro h; simp [encode, major_1C, decodeTransfer, reserved]) (by simp [encode])
theorem Laws.RoundTrip.vany d p : Laws.RoundTrip.Statement (.vany d p) :=
  roundTrip_of (by intro h; simp [encode, major_1D, decodeVote, reserved]) (by simp [encode])
theorem Laws.RoundTrip.vall d p : Laws.RoundTrip.Statement (.vall d p) :=
  roundTrip_of (by intro h; simp [encode, major_1D, decodeVote, reserved]) (by simp [encode])
theorem Laws.RoundTrip.estat d n : Laws.RoundTrip.Statement (.estat d n) :=
  roundTrip_of (by intro h; simp [encode, major_1D, decodeVote, reserved]) (by simp [encode])
theorem Laws.RoundTrip.lset l a : Laws.RoundTrip.Statement (.lset l a) :=
  roundTrip_of (by intro h; simp [encode, major_1E, decodeLoop, reserved]) (by simp [encode])
theorem Laws.RoundTrip.lstr l j r t : Laws.RoundTrip.Statement (.lstr l j r t) :=
  roundTrip_of (by intro h; simp [encode, major_1E, decodeLoop, reserved]) (by simp [encode])
theorem Laws.RoundTrip.lbody l n : Laws.RoundTrip.Statement (.lbody l n) :=
  roundTrip_of (by intro h; simp [encode, major_1E, decodeLoop, reserved]) (by simp [encode])
theorem Laws.RoundTrip.lidx l d : Laws.RoundTrip.Statement (.lidx l d) :=
  roundTrip_of (by intro h; simp [encode, major_1E, decodeLoop, reserved]) (by simp [encode])
theorem Laws.RoundTrip.lexit l : Laws.RoundTrip.Statement (.lexit l) :=
  roundTrip_of (by intro h; simp [encode, major_1E, decodeLoop, reserved]) (by simp [encode])
theorem Laws.RoundTrip.lfl l f : Laws.RoundTrip.Statement (.lfl l f) :=
  roundTrip_of (by intro h; simp [encode, major_1E, decodeLoop, reserved]) (by simp [encode])
theorem Laws.RoundTrip.nop : Laws.RoundTrip.Statement (.nop) :=
  roundTrip_of (by intro h; simp [encode, major_1F, decodeSystem, reserved]) (by simp [encode])
theorem Laws.RoundTrip.stall n : Laws.RoundTrip.Statement (.stall n) :=
  roundTrip_of (by intro h; simp [encode, major_1F, decodeSystem, reserved]) (by simp [encode])
theorem Laws.RoundTrip.trap n : Laws.RoundTrip.Statement (.trap n) :=
  roundTrip_of (by intro h; simp [encode, major_1F, decodeSystem, reserved]) (by simp [encode])
theorem Laws.RoundTrip.brk n : Laws.RoundTrip.Statement (.brk n) :=
  roundTrip_of (by intro h; simp [encode, major_1F, decodeSystem, reserved]) (by simp [encode])
theorem Laws.RoundTrip.rft : Laws.RoundTrip.Statement (.rft) :=
  roundTrip_of (by intro h; simp [encode, major_1F, decodeSystem, reserved]) (by simp [encode])
theorem Laws.RoundTrip.csrr x n : Laws.RoundTrip.Statement (.csrr x n) :=
  roundTrip_of (by intro h; simp [encode, major_1F, decodeSystem, reserved]) (by simp [encode])
theorem Laws.RoundTrip.csrw x n : Laws.RoundTrip.Statement (.csrw x n) :=
  roundTrip_of (by intro h; simp [encode, major_1F, decodeSystem, reserved]) (by simp [encode])
theorem Laws.RoundTrip.yield : Laws.RoundTrip.Statement (.yield) :=
  roundTrip_of (by intro h; simp [encode, major_1F, decodeSystem, reserved]) (by simp [encode])
theorem Laws.RoundTrip.idle : Laws.RoundTrip.Statement (.idle) :=
  roundTrip_of (by intro h; simp [encode, major_1F, decodeSystem, reserved]) (by simp [encode])
theorem Laws.RoundTrip.tlbi x k : Laws.RoundTrip.Statement (.tlbi x k) :=
  roundTrip_of (by intro h; simp [encode, major_1F, decodeSystem, reserved]) (by simp [encode])
theorem Laws.RoundTrip.stest x : Laws.RoundTrip.Statement (.stest x) :=
  roundTrip_of (by intro h; simp [encode, major_1F, decodeSystem, reserved]) (by simp [encode])
theorem Laws.RoundTrip.ststat x : Laws.RoundTrip.Statement (.ststat x) :=
  roundTrip_of (by intro h; simp [encode, major_1F, decodeSystem, reserved]) (by simp [encode])
theorem Laws.RoundTrip.cmapw x : Laws.RoundTrip.Statement (.cmapw x) :=
  roundTrip_of (by intro h; simp [encode, major_1F, decodeSystem, reserved]) (by simp [encode])
theorem Laws.RoundTrip.hmov d a : Laws.RoundTrip.Statement (.hmov d a) :=
  roundTrip_of (by intro h; simp [encode, major_20, decodeHandle, reserved]) (by simp [encode])
theorem Laws.RoundTrip.hofs d a b : Laws.RoundTrip.Statement (.hofs d a b) :=
  roundTrip_of (by intro h; simp [encode, major_20, decodeHandle, reserved]) (by simp [encode])
theorem Laws.RoundTrip.hseq d b : Laws.RoundTrip.Statement (.hseq d b) :=
  roundTrip_of (by intro h; simp [encode, major_20, decodeHandle, reserved]) (by simp [encode])
theorem Laws.RoundTrip.hlive d a : Laws.RoundTrip.Statement (.hlive d a) :=
  roundTrip_of (by intro h; simp [encode, major_20, decodeHandle, reserved]) (by simp [encode])
theorem Laws.RoundTrip.hea d a b : Laws.RoundTrip.Statement (.hea d a b) :=
  roundTrip_of (by intro h; simp [encode, major_20, decodeHandle, reserved]) (by simp [encode])
theorem Laws.RoundTrip.hset d a i : Laws.RoundTrip.Statement (.hset d a i) :=
  roundTrip_of (by intro h; simp [encode, major_21, reserved]) (by simp [encode])
theorem Laws.RoundTrip.hget d a i : Laws.RoundTrip.Statement (.hget d a i) :=
  roundTrip_of (by intro h; simp [encode, major_22, reserved]) (by simp [encode])
theorem Laws.RoundTrip.ewr c a b : Laws.RoundTrip.Statement (.ewr c a b) :=
  roundTrip_of (by intro h; simp [encode, major_23, decodeEngineConfig, reserved]) (by simp [encode])
theorem Laws.RoundTrip.erd c a b : Laws.RoundTrip.Statement (.erd c a b) :=
  roundTrip_of (by intro h; simp [encode, major_23, decodeEngineConfig, reserved]) (by simp [encode])
theorem Laws.RoundTrip.edrain : Laws.RoundTrip.Statement (.edrain) :=
  roundTrip_of (by intro h; simp [encode, major_23, decodeEngineConfig, reserved]) (by simp [encode])
theorem Laws.RoundTrip.efence : Laws.RoundTrip.Statement (.efence) :=
  roundTrip_of (by intro h; simp [encode, major_23, decodeEngineConfig, reserved]) (by simp [encode])
theorem Laws.RoundTrip.cmm c a b : Laws.RoundTrip.Statement (.cmm c a b) :=
  roundTrip_of (by intro h; simp [encode, major_24, decodeCubeProduct, reserved]) (by simp [encode])
theorem Laws.RoundTrip.cmmh c a b : Laws.RoundTrip.Statement (.cmmh c a b) :=
  roundTrip_of (by intro h; simp [encode, major_24, decodeCubeProduct, reserved]) (by simp [encode])
theorem Laws.RoundTrip.cldb a h : Laws.RoundTrip.Statement (.cldb a h) :=
  roundTrip_of (by intro h; simp [encode, major_25, decodeCubeLatch, reserved]) (by simp [encode])
theorem Laws.RoundTrip.czero c : Laws.RoundTrip.Statement (.czero c) :=
  roundTrip_of (by intro h; simp [encode, major_25, decodeCubeLatch, reserved]) (by simp [encode])
theorem Laws.RoundTrip.crd c a : Laws.RoundTrip.Statement (.crd c a) :=
  roundTrip_of (by intro h; simp [encode, major_26, decodeCubeRead, reserved]) (by simp [encode])
theorem Laws.RoundTrip.cfsel a : Laws.RoundTrip.Statement (.cfsel a) :=
  roundTrip_of (by intro h; simp [encode, major_27, decodeCubeSelect, reserved]) (by simp [encode])
theorem Laws.RoundTrip.vaddFp c a b f m : Laws.RoundTrip.Statement (.vaddFp c a b f m) :=
  roundTrip_of (by intro h; simp [encode, major_28, decodeVecFp, reserved]) (by simp [encode])
theorem Laws.RoundTrip.vsubFp c a b f m : Laws.RoundTrip.Statement (.vsubFp c a b f m) :=
  roundTrip_of (by intro h; simp [encode, major_28, decodeVecFp, reserved]) (by simp [encode])
theorem Laws.RoundTrip.vmulFp c a b f m : Laws.RoundTrip.Statement (.vmulFp c a b f m) :=
  roundTrip_of (by intro h; simp [encode, major_28, decodeVecFp, reserved]) (by simp [encode])
theorem Laws.RoundTrip.vminFp c a b f m : Laws.RoundTrip.Statement (.vminFp c a b f m) :=
  roundTrip_of (by intro h; simp [encode, major_28, decodeVecFp, reserved]) (by simp [encode])
theorem Laws.RoundTrip.vmaxFp c a b f m : Laws.RoundTrip.Statement (.vmaxFp c a b f m) :=
  roundTrip_of (by intro h; simp [encode, major_28, decodeVecFp, reserved]) (by simp [encode])
theorem Laws.RoundTrip.vfma c a b f m : Laws.RoundTrip.Statement (.vfma c a b f m) :=
  roundTrip_of (by intro h; simp [encode, major_29, decodeVecFused, reserved]) (by simp [encode])
theorem Laws.RoundTrip.vfms c a b f m : Laws.RoundTrip.Statement (.vfms c a b f m) :=
  roundTrip_of (by intro h; simp [encode, major_29, decodeVecFused, reserved]) (by simp [encode])
theorem Laws.RoundTrip.vfnma c a b f m : Laws.RoundTrip.Statement (.vfnma c a b f m) :=
  roundTrip_of (by intro h; simp [encode, major_29, decodeVecFused, reserved]) (by simp [encode])
theorem Laws.RoundTrip.vabs c a f m : Laws.RoundTrip.Statement (.vabs c a f m) :=
  roundTrip_of (by intro h; simp [encode, major_29, decodeVecFused, reserved]) (by simp [encode])
theorem Laws.RoundTrip.vneg c a f m : Laws.RoundTrip.Statement (.vneg c a f m) :=
  roundTrip_of (by intro h; simp [encode, major_29, decodeVecFused, reserved]) (by simp [encode])
theorem Laws.RoundTrip.vrcp c a m : Laws.RoundTrip.Statement (.vrcp c a m) :=
  roundTrip_of (by intro h; simp [encode, major_29, decodeVecFused, reserved]) (by simp [encode])
theorem Laws.RoundTrip.vrsq c a m : Laws.RoundTrip.Statement (.vrsq c a m) :=
  roundTrip_of (by intro h; simp [encode, major_29, decodeVecFused, reserved]) (by simp [encode])
theorem Laws.RoundTrip.vexp2 c a m : Laws.RoundTrip.Statement (.vexp2 c a m) :=
  roundTrip_of (by intro h; simp [encode, major_29, decodeVecFused, reserved]) (by simp [encode])
theorem Laws.RoundTrip.vlog2 c a m : Laws.RoundTrip.Statement (.vlog2 c a m) :=
  roundTrip_of (by intro h; simp [encode, major_29, decodeVecFused, reserved]) (by simp [encode])
theorem Laws.RoundTrip.vaddInt c a b f m : Laws.RoundTrip.Statement (.vaddInt c a b f m) :=
  roundTrip_of (by intro h; simp [encode, major_2A, decodeVecInt, reserved]) (by simp [encode])
theorem Laws.RoundTrip.vsubInt c a b f m : Laws.RoundTrip.Statement (.vsubInt c a b f m) :=
  roundTrip_of (by intro h; simp [encode, major_2A, decodeVecInt, reserved]) (by simp [encode])
theorem Laws.RoundTrip.vmulInt c a b f m : Laws.RoundTrip.Statement (.vmulInt c a b f m) :=
  roundTrip_of (by intro h; simp [encode, major_2A, decodeVecInt, reserved]) (by simp [encode])
theorem Laws.RoundTrip.vminInt c a b f m : Laws.RoundTrip.Statement (.vminInt c a b f m) :=
  roundTrip_of (by intro h; simp [encode, major_2A, decodeVecInt, reserved]) (by simp [encode])
theorem Laws.RoundTrip.vmaxInt c a b f m : Laws.RoundTrip.Statement (.vmaxInt c a b f m) :=
  roundTrip_of (by intro h; simp [encode, major_2A, decodeVecInt, reserved]) (by simp [encode])
theorem Laws.RoundTrip.vadds c a b f m : Laws.RoundTrip.Statement (.vadds c a b f m) :=
  roundTrip_of (by intro h; simp [encode, major_2A, decodeVecInt, reserved]) (by simp [encode])
theorem Laws.RoundTrip.vsubs c a b f m : Laws.RoundTrip.Statement (.vsubs c a b f m) :=
  roundTrip_of (by intro h; simp [encode, major_2A, decodeVecInt, reserved]) (by simp [encode])
theorem Laws.RoundTrip.vand c a b f m : Laws.RoundTrip.Statement (.vand c a b f m) :=
  roundTrip_of (by intro h; simp [encode, major_2A, decodeVecInt, reserved]) (by simp [encode])
theorem Laws.RoundTrip.vor c a b f m : Laws.RoundTrip.Statement (.vor c a b f m) :=
  roundTrip_of (by intro h; simp [encode, major_2A, decodeVecInt, reserved]) (by simp [encode])
theorem Laws.RoundTrip.vxor c a b f m : Laws.RoundTrip.Statement (.vxor c a b f m) :=
  roundTrip_of (by intro h; simp [encode, major_2A, decodeVecInt, reserved]) (by simp [encode])
theorem Laws.RoundTrip.vshl c a b f m : Laws.RoundTrip.Statement (.vshl c a b f m) :=
  roundTrip_of (by intro h; simp [encode, major_2A, decodeVecInt, reserved]) (by simp [encode])
theorem Laws.RoundTrip.vsra c a b f m : Laws.RoundTrip.Statement (.vsra c a b f m) :=
  roundTrip_of (by intro h; simp [encode, major_2A, decodeVecInt, reserved]) (by simp [encode])
theorem Laws.RoundTrip.vsrl c a b f m : Laws.RoundTrip.Statement (.vsrl c a b f m) :=
  roundTrip_of (by intro h; simp [encode, major_2A, decodeVecInt, reserved]) (by simp [encode])
theorem Laws.RoundTrip.vcmpEq p a b f m : Laws.RoundTrip.Statement (.vcmpEq p a b f m) :=
  roundTrip_of (by intro h; simp [encode, major_2B, decodeVecCompare, reserved]) (by simp [encode])
theorem Laws.RoundTrip.vcmpNe p a b f m : Laws.RoundTrip.Statement (.vcmpNe p a b f m) :=
  roundTrip_of (by intro h; simp [encode, major_2B, decodeVecCompare, reserved]) (by simp [encode])
theorem Laws.RoundTrip.vcmpLt p a b f m : Laws.RoundTrip.Statement (.vcmpLt p a b f m) :=
  roundTrip_of (by intro h; simp [encode, major_2B, decodeVecCompare, reserved]) (by simp [encode])
theorem Laws.RoundTrip.vcmpLe p a b f m : Laws.RoundTrip.Statement (.vcmpLe p a b f m) :=
  roundTrip_of (by intro h; simp [encode, major_2B, decodeVecCompare, reserved]) (by simp [encode])
theorem Laws.RoundTrip.vcmpGt p a b f m : Laws.RoundTrip.Statement (.vcmpGt p a b f m) :=
  roundTrip_of (by intro h; simp [encode, major_2B, decodeVecCompare, reserved]) (by simp [encode])
theorem Laws.RoundTrip.vcmpGe p a b f m : Laws.RoundTrip.Statement (.vcmpGe p a b f m) :=
  roundTrip_of (by intro h; simp [encode, major_2B, decodeVecCompare, reserved]) (by simp [encode])
theorem Laws.RoundTrip.vcmpUo p a b f m : Laws.RoundTrip.Statement (.vcmpUo p a b f m) :=
  roundTrip_of (by intro h; simp [encode, major_2B, decodeVecCompare, reserved]) (by simp [encode])
theorem Laws.RoundTrip.vsel c a b : Laws.RoundTrip.Statement (.vsel c a b) :=
  roundTrip_of (by intro h; simp [encode, major_2C, decodeVecPred, reserved]) (by simp [encode])
theorem Laws.RoundTrip.pand p q r m : Laws.RoundTrip.Statement (.pand p q r m) :=
  roundTrip_of (by intro h; simp [encode, major_2C, decodeVecPred, reserved]) (by simp [encode])
theorem Laws.RoundTrip.por p q r m : Laws.RoundTrip.Statement (.por p q r m) :=
  roundTrip_of (by intro h; simp [encode, major_2C, decodeVecPred, reserved]) (by simp [encode])
theorem Laws.RoundTrip.pxor p q r m : Laws.RoundTrip.Statement (.pxor p q r m) :=
  roundTrip_of (by intro h; simp [encode, major_2C, decodeVecPred, reserved]) (by simp [encode])
theorem Laws.RoundTrip.pnot p q m : Laws.RoundTrip.Statement (.pnot p q m) :=
  roundTrip_of (by intro h; simp [encode, major_2C, decodeVecPred, reserved]) (by simp [encode])
theorem Laws.RoundTrip.pset p m : Laws.RoundTrip.Statement (.pset p m) :=
  roundTrip_of (by intro h; simp [encode, major_2C, decodeVecPred, reserved]) (by simp [encode])
theorem Laws.RoundTrip.pclr p m : Laws.RoundTrip.Statement (.pclr p m) :=
  roundTrip_of (by intro h; simp [encode, major_2C, decodeVecPred, reserved]) (by simp [encode])
theorem Laws.RoundTrip.vcvt c a r m : Laws.RoundTrip.Statement (.vcvt c a r m) :=
  roundTrip_of (by intro h; rcases bits2_cases r with rfl | rfl | rfl | rfl <;> simp [encode, major_2D, decodeVecConvert, reserved]) (by simp [encode])
theorem Laws.RoundTrip.vqnt c a m : Laws.RoundTrip.Statement (.vqnt c a m) :=
  roundTrip_of (by intro h; simp [encode, major_2D, decodeVecConvert, reserved]) (by simp [encode])
theorem Laws.RoundTrip.vdq c a m : Laws.RoundTrip.Statement (.vdq c a m) :=
  roundTrip_of (by intro h; simp [encode, major_2D, decodeVecConvert, reserved]) (by simp [encode])
theorem Laws.RoundTrip.vrsum c a f m : Laws.RoundTrip.Statement (.vrsum c a f m) :=
  roundTrip_of (by intro h; simp [encode, major_2E, decodeVecReduce, reserved]) (by simp [encode])
theorem Laws.RoundTrip.vrmax c a f m : Laws.RoundTrip.Statement (.vrmax c a f m) :=
  roundTrip_of (by intro h; simp [encode, major_2E, decodeVecReduce, reserved]) (by simp [encode])
theorem Laws.RoundTrip.vrmin c a f m : Laws.RoundTrip.Statement (.vrmin c a f m) :=
  roundTrip_of (by intro h; simp [encode, major_2E, decodeVecReduce, reserved]) (by simp [encode])
theorem Laws.RoundTrip.vgather c a b m : Laws.RoundTrip.Statement (.vgather c a b m) :=
  roundTrip_of (by intro h; simp [encode, major_2F, decodeVecMove, reserved]) (by simp [encode])
theorem Laws.RoundTrip.vscatter c a b m : Laws.RoundTrip.Statement (.vscatter c a b m) :=
  roundTrip_of (by intro h; simp [encode, major_2F, decodeVecMove, reserved]) (by simp [encode])
theorem Laws.RoundTrip.vperm c a b m : Laws.RoundTrip.Statement (.vperm c a b m) :=
  roundTrip_of (by intro h; simp [encode, major_2F, decodeVecMove, reserved]) (by simp [encode])
theorem Laws.RoundTrip.vmov c a m : Laws.RoundTrip.Statement (.vmov c a m) :=
  roundTrip_of (by intro h; simp [encode, major_2F, decodeVecMove, reserved]) (by simp [encode])
theorem Laws.RoundTrip.vfill c a m : Laws.RoundTrip.Statement (.vfill c a m) :=
  roundTrip_of (by intro h; simp [encode, major_2F, decodeVecMove, reserved]) (by simp [encode])
theorem Laws.RoundTrip.viota c m : Laws.RoundTrip.Statement (.viota c m) :=
  roundTrip_of (by intro h; simp [encode, major_2F, decodeVecMove, reserved]) (by simp [encode])
theorem Laws.RoundTrip.xtr c a : Laws.RoundTrip.Statement (.xtr c a) :=
  roundTrip_of (by intro h; simp [encode, major_30, decodeTranspose, reserved]) (by simp [encode])
theorem Laws.RoundTrip.xtrc c a : Laws.RoundTrip.Statement (.xtrc c a) :=
  roundTrip_of (by intro h; simp [encode, major_30, decodeTranspose, reserved]) (by simp [encode])
theorem Laws.RoundTrip.upst c a : Laws.RoundTrip.Statement (.upst c a) :=
  roundTrip_of (by intro h; simp [encode, major_31, decodeUpdate, reserved]) (by simp [encode])
theorem Laws.RoundTrip.uvtag a b : Laws.RoundTrip.Statement (.uvtag a b) :=
  roundTrip_of (by intro h; simp [encode, major_31, decodeUpdate, reserved]) (by simp [encode])
theorem Laws.RoundTrip.cpy c a b : Laws.RoundTrip.Statement (.cpy c a b) :=
  roundTrip_of (by intro h; simp [encode, major_32, decodeCopy, reserved]) (by simp [encode])
theorem Laws.RoundTrip.cpym c a b : Laws.RoundTrip.Statement (.cpym c a b) :=
  roundTrip_of (by intro h; simp [encode, major_32, decodeCopy, reserved]) (by simp [encode])
theorem Laws.RoundTrip.rrot c a b : Laws.RoundTrip.Statement (.rrot c a b) :=
  roundTrip_of (by intro h; simp [encode, major_32, decodeCopy, reserved]) (by simp [encode])
theorem Laws.RoundTrip.ccan a : Laws.RoundTrip.Statement (.ccan a) :=
  roundTrip_of (by intro h; simp [encode, major_32, decodeCopy, reserved]) (by simp [encode])
theorem Laws.RoundTrip.waitc c : Laws.RoundTrip.Statement (.waitc c) :=
  roundTrip_of (by intro h; simp [encode, major_32, decodeCopy, reserved]) (by simp [encode])
theorem Laws.RoundTrip.sbind c q b : Laws.RoundTrip.Statement (.sbind c q b) :=
  roundTrip_of (by intro h; simp [encode, major_33, decodeStream, reserved]) (by simp [encode])
theorem Laws.RoundTrip.ssch a : Laws.RoundTrip.Statement (.ssch a) :=
  roundTrip_of (by intro h; simp [encode, major_33, decodeStream, reserved]) (by simp [encode])
theorem Laws.RoundTrip.sadv : Laws.RoundTrip.Statement (.sadv) :=
  roundTrip_of (by intro h; simp [encode, major_33, decodeStream, reserved]) (by simp [encode])
theorem Laws.RoundTrip.sres a : Laws.RoundTrip.Statement (.sres a) :=
  roundTrip_of (by intro h; simp [encode, major_33, decodeStream, reserved]) (by simp [encode])
theorem Laws.RoundTrip.ginit c a : Laws.RoundTrip.Statement (.ginit c a) :=
  roundTrip_of (by intro h; simp [encode, major_34, decodeGauge, reserved]) (by simp [encode])
theorem Laws.RoundTrip.gwait c a b : Laws.RoundTrip.Statement (.gwait c a b) :=
  roundTrip_of (by intro h; simp [encode, major_34, decodeGauge, reserved]) (by simp [encode])
theorem Laws.RoundTrip.gread c a : Laws.RoundTrip.Statement (.gread c a) :=
  roundTrip_of (by intro h; simp [encode, major_34, decodeGauge, reserved]) (by simp [encode])
theorem Laws.RoundTrip.gbar : Laws.RoundTrip.Statement (.gbar) :=
  roundTrip_of (by intro h; simp [encode, major_34, decodeGauge, reserved]) (by simp [encode])
theorem Laws.RoundTrip.wact a : Laws.RoundTrip.Statement (.wact a) :=
  roundTrip_of (by intro h; simp [encode, major_35, decodeWeightStore, reserved]) (by simp [encode])
theorem Laws.RoundTrip.wpre a : Laws.RoundTrip.Statement (.wpre a) :=
  roundTrip_of (by intro h; simp [encode, major_35, decodeWeightStore, reserved]) (by simp [encode])
theorem Laws.RoundTrip.wref a : Laws.RoundTrip.Statement (.wref a) :=
  roundTrip_of (by intro h; simp [encode, major_35, decodeWeightStore, reserved]) (by simp [encode])
theorem Laws.RoundTrip.wld c a : Laws.RoundTrip.Statement (.wld c a) :=
  roundTrip_of (by intro h; simp [encode, major_35, decodeWeightStore, reserved]) (by simp [encode])
theorem Laws.RoundTrip.wst c a : Laws.RoundTrip.Statement (.wst c a) :=
  roundTrip_of (by intro h; simp [encode, major_35, decodeWeightStore, reserved]) (by simp [encode])
theorem Laws.RoundTrip.vpub a b : Laws.RoundTrip.Statement (.vpub a b) :=
  roundTrip_of (by intro h; simp [encode, major_36, decodeVersion, reserved]) (by simp [encode])
theorem Laws.RoundTrip.vswt a : Laws.RoundTrip.Statement (.vswt a) :=
  roundTrip_of (by intro h; simp [encode, major_36, decodeVersion, reserved]) (by simp [encode])
theorem Laws.RoundTrip.temit c a b : Laws.RoundTrip.Statement (.temit c a b) :=
  roundTrip_of (by intro h; simp [encode, major_36, decodeVersion, reserved]) (by simp [encode])
theorem Laws.RoundTrip.jopen a : Laws.RoundTrip.Statement (.jopen a) :=
  roundTrip_of (by intro h; simp [encode, major_37, decodeJoin, reserved]) (by simp [encode])
theorem Laws.RoundTrip.jacc c a : Laws.RoundTrip.Statement (.jacc c a) :=
  roundTrip_of (by intro h; simp [encode, major_37, decodeJoin, reserved]) (by simp [encode])
theorem Laws.RoundTrip.jarr c a : Laws.RoundTrip.Statement (.jarr c a) :=
  roundTrip_of (by intro h; simp [encode, major_37, decodeJoin, reserved]) (by simp [encode])
theorem Laws.RoundTrip.jwait a : Laws.RoundTrip.Statement (.jwait a) :=
  roundTrip_of (by intro h; simp [encode, major_37, decodeJoin, reserved]) (by simp [encode])
theorem Laws.RoundTrip.kpt : Laws.RoundTrip.Statement (.kpt) :=
  roundTrip_of (by intro h; simp [encode, major_37, decodeJoin, reserved]) (by simp [encode])
theorem Laws.RoundTrip.coll a : Laws.RoundTrip.Statement (.coll a) :=
  roundTrip_of (by intro h; simp [encode, major_38, decodeCollective, reserved]) (by simp [encode])
theorem Laws.RoundTrip.collJ a b : Laws.RoundTrip.Statement (.collJ a b) :=
  roundTrip_of (by intro h; simp [encode, major_38, decodeCollective, reserved]) (by simp [encode])
theorem Laws.RoundTrip.csig c a : Laws.RoundTrip.Statement (.csig c a) :=
  roundTrip_of (by intro h; simp [encode, major_38, decodeCollective, reserved]) (by simp [encode])
theorem Laws.RoundTrip.afw a : Laws.RoundTrip.Statement (.afw a) :=
  roundTrip_of (by intro h; simp [encode, major_39, decodePower, reserved]) (by simp [encode])
theorem Laws.RoundTrip.stallStep x0 : Laws.RoundTrip.Statement (.stallStep x0) := roundTrip_none rfl
theorem Laws.RoundTrip.shadowQueueLanding x0 : Laws.RoundTrip.Statement (.shadowQueueLanding x0) := roundTrip_none rfl
theorem Laws.RoundTrip.transientExpiry x0 : Laws.RoundTrip.Statement (.transientExpiry x0) := roundTrip_none rfl
theorem Laws.RoundTrip.loadDataReturn x0 : Laws.RoundTrip.Statement (.loadDataReturn x0) := roundTrip_none rfl
theorem Laws.RoundTrip.loopIterationEnd x0 : Laws.RoundTrip.Statement (.loopIterationEnd x0) := roundTrip_none rfl
theorem Laws.RoundTrip.asynchronousTrap x0 : Laws.RoundTrip.Statement (.asynchronousTrap x0) := roundTrip_none rfl
theorem Laws.RoundTrip.idleWake x0 : Laws.RoundTrip.Statement (.idleWake x0) := roundTrip_none rfl
theorem Laws.RoundTrip.vectorOperationCompletion x0 : Laws.RoundTrip.Statement (.vectorOperationCompletion x0) := roundTrip_none rfl
theorem Laws.RoundTrip.transposeOperationCompletion x0 : Laws.RoundTrip.Statement (.transposeOperationCompletion x0) := roundTrip_none rfl
theorem Laws.RoundTrip.upstCompletion x0 : Laws.RoundTrip.Statement (.upstCompletion x0) := roundTrip_none rfl
theorem Laws.RoundTrip.cubeOperationStart x0 : Laws.RoundTrip.Statement (.cubeOperationStart x0) := roundTrip_none rfl
theorem Laws.RoundTrip.cubeOperationCompletion x0 : Laws.RoundTrip.Statement (.cubeOperationCompletion x0) := roundTrip_none rfl
theorem Laws.RoundTrip.copyLanding x0 x1 : Laws.RoundTrip.Statement (.copyLanding x0 x1) := roundTrip_none rfl
theorem Laws.RoundTrip.scheduleIterationStart x0 x1 : Laws.RoundTrip.Statement (.scheduleIterationStart x0 x1) := roundTrip_none rfl
theorem Laws.RoundTrip.scheduleIterationLanding x0 : Laws.RoundTrip.Statement (.scheduleIterationLanding x0) := roundTrip_none rfl
theorem Laws.RoundTrip.wldLanding x0 : Laws.RoundTrip.Statement (.wldLanding x0) := roundTrip_none rfl
theorem Laws.RoundTrip.wstCompletion x0 : Laws.RoundTrip.Statement (.wstCompletion x0) := roundTrip_none rfl
theorem Laws.RoundTrip.guardRefresh x0 : Laws.RoundTrip.Statement (.guardRefresh x0) := roundTrip_none rfl
theorem Laws.RoundTrip.gaugeTimeout x0 : Laws.RoundTrip.Statement (.gaugeTimeout x0) := roundTrip_none rfl
theorem Laws.RoundTrip.doorbell x0 x1 : Laws.RoundTrip.Statement (.doorbell x0 x1) := roundTrip_none rfl
theorem Laws.RoundTrip.launchBegin : Laws.RoundTrip.Statement .launchBegin := roundTrip_none rfl
theorem Laws.RoundTrip.groupPlacement x0 : Laws.RoundTrip.Statement (.groupPlacement x0) := roundTrip_none rfl
theorem Laws.RoundTrip.preemptionDeadline x0 : Laws.RoundTrip.Statement (.preemptionDeadline x0) := roundTrip_none rfl
theorem Laws.RoundTrip.save x0 : Laws.RoundTrip.Statement (.save x0) := roundTrip_none rfl
theorem Laws.RoundTrip.resume x0 : Laws.RoundTrip.Statement (.resume x0) := roundTrip_none rfl
theorem Laws.RoundTrip.taskEnd x0 : Laws.RoundTrip.Statement (.taskEnd x0) := roundTrip_none rfl
theorem Laws.RoundTrip.stepBudgetWindow : Laws.RoundTrip.Statement .stepBudgetWindow := roundTrip_none rfl
theorem Laws.RoundTrip.quantumExpiry x0 : Laws.RoundTrip.Statement (.quantumExpiry x0) := roundTrip_none rfl
theorem Laws.RoundTrip.progressPromise x0 : Laws.RoundTrip.Statement (.progressPromise x0) := roundTrip_none rfl
theorem Laws.RoundTrip.recomputeProducerCompletion x0 : Laws.RoundTrip.Statement (.recomputeProducerCompletion x0) := roundTrip_none rfl
theorem Laws.RoundTrip.stragglerKill x0 : Laws.RoundTrip.Statement (.stragglerKill x0) := roundTrip_none rfl
theorem Laws.RoundTrip.deadlockDetection x0 : Laws.RoundTrip.Statement (.deadlockDetection x0) := roundTrip_none rfl
theorem Laws.RoundTrip.spillwayChunkReturn x0 x1 : Laws.RoundTrip.Statement (.spillwayChunkReturn x0 x1) := roundTrip_none rfl
theorem Laws.RoundTrip.fabricWindowAccess x0 x1 x2 x3 x4 x5 : Laws.RoundTrip.Statement (.fabricWindowAccess x0 x1 x2 x3 x4 x5) := roundTrip_none rfl
theorem Laws.RoundTrip.windowAccessTimeout x0 : Laws.RoundTrip.Statement (.windowAccessTimeout x0) := roundTrip_none rfl
theorem Laws.RoundTrip.collectiveTransferSend x0 : Laws.RoundTrip.Statement (.collectiveTransferSend x0) := roundTrip_none rfl
theorem Laws.RoundTrip.collectiveFold x0 : Laws.RoundTrip.Statement (.collectiveFold x0) := roundTrip_none rfl
theorem Laws.RoundTrip.collectiveCompletion x0 : Laws.RoundTrip.Statement (.collectiveCompletion x0) := roundTrip_none rfl
theorem Laws.RoundTrip.linkFailure x0 x1 : Laws.RoundTrip.Statement (.linkFailure x0 x1) := roundTrip_none rfl
theorem Laws.RoundTrip.versionPublication x0 x1 : Laws.RoundTrip.Statement (.versionPublication x0 x1) := roundTrip_none rfl
theorem Laws.RoundTrip.loweringAnnouncement x0 x1 x2 : Laws.RoundTrip.Statement (.loweringAnnouncement x0 x1 x2) := roundTrip_none rfl
theorem Laws.RoundTrip.raiseProposal x0 x1 x2 : Laws.RoundTrip.Statement (.raiseProposal x0 x1 x2) := roundTrip_none rfl
theorem Laws.RoundTrip.raiseGrant x0 : Laws.RoundTrip.Statement (.raiseGrant x0) := roundTrip_none rfl
theorem Laws.RoundTrip.ceilingChange : Laws.RoundTrip.Statement .ceilingChange := roundTrip_none rfl
theorem Laws.RoundTrip.heartbeatSend : Laws.RoundTrip.Statement .heartbeatSend := roundTrip_none rfl
theorem Laws.RoundTrip.heartbeat x0 x1 x2 x3 : Laws.RoundTrip.Statement (.heartbeat x0 x1 x2 x3) := roundTrip_none rfl
theorem Laws.RoundTrip.memberEviction x0 : Laws.RoundTrip.Statement (.memberEviction x0) := roundTrip_none rfl
theorem Laws.RoundTrip.joinRequest x0 x1 : Laws.RoundTrip.Statement (.joinRequest x0 x1) := roundTrip_none rfl
theorem Laws.RoundTrip.departure x0 : Laws.RoundTrip.Statement (.departure x0) := roundTrip_none rfl
theorem Laws.RoundTrip.weirReq x0 : Laws.RoundTrip.Statement (.weirReq x0) := roundTrip_none rfl
theorem Laws.RoundTrip.pwrDidt x0 x1 : Laws.RoundTrip.Statement (.pwrDidt x0 x1) := roundTrip_none rfl
theorem Laws.RoundTrip.registerWrite x0 x1 x2 : Laws.RoundTrip.Statement (.registerWrite x0 x1 x2) := roundTrip_none rfl
theorem Laws.RoundTrip.sensorReading x0 x1 x2 : Laws.RoundTrip.Statement (.sensorReading x0 x1 x2) := roundTrip_none rfl
theorem Laws.RoundTrip.governorWindow x0 x1 : Laws.RoundTrip.Statement (.governorWindow x0 x1) := roundTrip_none rfl
theorem Laws.RoundTrip.droopAlarm x0 : Laws.RoundTrip.Statement (.droopAlarm x0) := roundTrip_none rfl
theorem Laws.RoundTrip.droopAlarmClear x0 : Laws.RoundTrip.Statement (.droopAlarmClear x0) := roundTrip_none rfl
theorem Laws.RoundTrip.forecastUpdate : Laws.RoundTrip.Statement .forecastUpdate := roundTrip_none rfl
theorem Laws.RoundTrip.forecastExpiry x0 : Laws.RoundTrip.Statement (.forecastExpiry x0) := roundTrip_none rfl
theorem Laws.RoundTrip.telemetrySample : Laws.RoundTrip.Statement .telemetrySample := roundTrip_none rfl
theorem Laws.RoundTrip.telemetryAggregate : Laws.RoundTrip.Statement .telemetryAggregate := roundTrip_none rfl
theorem Laws.RoundTrip.busTestRun x0 : Laws.RoundTrip.Statement (.busTestRun x0) := roundTrip_none rfl
theorem Laws.RoundTrip.busTestCompletion x0 x1 x2 : Laws.RoundTrip.Statement (.busTestCompletion x0 x1 x2) := roundTrip_none rfl
theorem Laws.RoundTrip.wsMapApplication x0 : Laws.RoundTrip.Statement (.wsMapApplication x0) := roundTrip_none rfl
theorem Laws.RoundTrip.elevatorDrainEnd x0 x1 : Laws.RoundTrip.Statement (.elevatorDrainEnd x0 x1) := roundTrip_none rfl
theorem Laws.RoundTrip.transactionRetry x0 : Laws.RoundTrip.Statement (.transactionRetry x0) := roundTrip_none rfl
theorem Laws.RoundTrip.fatalEvent x0 x1 : Laws.RoundTrip.Statement (.fatalEvent x0 x1) := roundTrip_none rfl
theorem Laws.RoundTrip.coldStart x0 : Laws.RoundTrip.Statement (.coldStart x0) := roundTrip_none rfl
theorem Laws.RoundTrip.warmStart x0 : Laws.RoundTrip.Statement (.warmStart x0) := roundTrip_none rfl
theorem Laws.RoundTrip.faultDomainAcknowledge x0 : Laws.RoundTrip.Statement (.faultDomainAcknowledge x0) := roundTrip_none rfl
theorem Laws.RoundTrip.hostWindowAccess x0 x1 x2 x3 x4 : Laws.RoundTrip.Statement (.hostWindowAccess x0 x1 x2 x3 x4) := roundTrip_none rfl
theorem Laws.RoundTrip.info : Laws.RoundTrip.Statement .info := roundTrip_none rfl
theorem Laws.RoundTrip.group x0 x1 : Laws.RoundTrip.Statement (.group x0 x1) := roundTrip_none rfl
theorem Laws.RoundTrip.keyLoad x0 x1 : Laws.RoundTrip.Statement (.keyLoad x0 x1) := roundTrip_none rfl
theorem Laws.RoundTrip.keyClear x0 : Laws.RoundTrip.Statement (.keyClear x0) := roundTrip_none rfl
theorem Laws.RoundTrip.attest x0 : Laws.RoundTrip.Statement (.attest x0) := roundTrip_none rfl
theorem Laws.RoundTrip.errlog x0 : Laws.RoundTrip.Statement (.errlog x0) := roundTrip_none rfl
theorem Laws.RoundTrip.status : Laws.RoundTrip.Statement .status := roundTrip_none rfl
theorem Laws.RoundTrip.reset x0 : Laws.RoundTrip.Statement (.reset x0) := roundTrip_none rfl
theorem Laws.RoundTrip.telemetry x0 : Laws.RoundTrip.Statement (.telemetry x0) := roundTrip_none rfl
theorem Laws.RoundTrip.dumpRead x0 x1 : Laws.RoundTrip.Statement (.dumpRead x0 x1) := roundTrip_none rfl
theorem Laws.RoundTrip.dumpClear : Laws.RoundTrip.Statement .dumpClear := roundTrip_none rfl
theorem Laws.RoundTrip.configRead : Laws.RoundTrip.Statement .configRead := roundTrip_none rfl
theorem Laws.RoundTrip.configWrite x0 x1 x2 x3 x4 : Laws.RoundTrip.Statement (.configWrite x0 x1 x2 x3 x4) := roundTrip_none rfl
theorem Laws.RoundTrip.cmapRestore x0 x1 : Laws.RoundTrip.Statement (.cmapRestore x0 x1) := roundTrip_none rfl
theorem Laws.RoundTrip.timeset x0 : Laws.RoundTrip.Statement (.timeset x0) := roundTrip_none rfl
theorem Laws.RoundTrip.errlogRead x0 x1 : Laws.RoundTrip.Statement (.errlogRead x0 x1) := roundTrip_none rfl
theorem Laws.RoundTrip.getMeasurements x0 : Laws.RoundTrip.Statement (.getMeasurements x0) := roundTrip_none rfl
theorem Laws.RoundTrip.testDrained x0 : Laws.RoundTrip.Statement (.testDrained x0) := roundTrip_none rfl
theorem Laws.RoundTrip.testEnd x0 : Laws.RoundTrip.Statement (.testEnd x0) := roundTrip_none rfl
theorem Laws.RoundTrip.testAbort x0 : Laws.RoundTrip.Statement (.testAbort x0) := roundTrip_none rfl
theorem Laws.RoundTrip.coreMapPersist : Laws.RoundTrip.Statement .coreMapPersist := roundTrip_none rfl
theorem Laws.RoundTrip.copyFault x0 : Laws.RoundTrip.Statement (.copyFault x0) := roundTrip_none rfl
theorem Laws.RoundTrip.storePerformed x0 : Laws.RoundTrip.Statement (.storePerformed x0) := roundTrip_none rfl
theorem Laws.RoundTrip.jaccCompletion x0 : Laws.RoundTrip.Statement (.jaccCompletion x0) := roundTrip_none rfl
theorem Laws.RoundTrip.collectiveTransferArrival x0 x1 x2 x3 x4 : Laws.RoundTrip.Statement (.collectiveTransferArrival x0 x1 x2 x3 x4) := roundTrip_none rfl
theorem Laws.RoundTrip.clockStretch x0 : Laws.RoundTrip.Statement (.clockStretch x0) := roundTrip_none rfl
theorem Laws.RoundTrip.crossingBubble x0 : Laws.RoundTrip.Statement (.crossingBubble x0) := roundTrip_none rfl
theorem Laws.RoundTrip.spdmSecuredSession : Laws.RoundTrip.Statement .spdmSecuredSession := roundTrip_none rfl

end Sys2Proof
end

