-- ==== Sys2Proof/Laws/Steps.lean ====
section
/-! SUPPORT. What a bundle, a move and the passing of time do to memory: they keep its canonical form. -/

namespace Sys2Proof.Machine

/-- The state in which a word has been performed is the next state of its meaning. -/
theorem State.after_eq (s : State) (i : Instr) (h : memWf s.mem = true) :
    exec i s = .next (s.after i) ∧ memWf (s.after i).mem = true := by
  obtain ⟨t, ht, hw⟩ := exec_good i s h
  simp only [State.after, ht]
  exact ⟨trivial, hw⟩

theorem State.after_wf (s : State) (i : Instr) (h : memWf s.mem = true) : memWf (s.after i).mem = true :=
  (s.after_eq i h).2

/-- Checking the words of a bundle changes no memory. -/
theorem State.checkWords_mem (s : State) (is : List Instr) : (s.checkWords is).state.mem = s.mem := by
  induction is generalizing s with
  | nil => rfl
  | cons i r ih =>
    unfold State.checkWords; simp only
    split
    · exact ih s
    · exact (ih _).trans (State.keepRecords_mem _ _)
    · exact (ih _).trans (State.keepRecords_mem _ _)

theorem State.effectOf_wf (s : State) (i : Instr) (h : memWf s.mem = true) : memWf (s.effectOf i).mem = true := by
  unfold State.effectOf
  split
  · exact h
  · split
    · exact State.after_wf _ i h
    · exact s.after_wf i h

theorem State.performWords_wf (s : State) (is : List Instr) (h : memWf s.mem = true) :
    memWf (s.performWords is).mem = true := by
  induction is generalizing s with
  | nil => exact h
  | cons i r ih =>
    unfold State.performWords; simp only
    split
    · exact ih _ (s.effectOf_wf i h)
    · exact s.effectOf_wf i h

/-- Laying the bytes that a bundle's first words have changed over memory keeps its form. -/
theorem memOverlay_wf (old new cur : List Host.Cell) (h : memWf cur = true) : memWf (memOverlay old new cur) = true := by
  unfold memOverlay; split
  · exact h
  · generalize (old ++ new).map (·.1) = l
    induction l generalizing cur with
    | nil => exact h
    | cons a r ih =>
      exact ih _ (by dsimp only; split <;> first | exact h | exact memWf_set _ _ _ h)

theorem State.beside_wf (s old : State) (f : State → State) (hf : ∀ t : State, memWf t.mem = true → memWf (f t).mem = true)
    (h : memWf old.mem = true) : memWf (s.beside old f).mem = true :=
  memOverlay_wf _ _ _ (hf _ h)

theorem State.performBundle_wf (s : State) (is : List Instr) (h : memWf s.mem = true) :
    memWf (s.performBundle is).mem = true := by
  have h1 := s.performWords_wf (byRank effectRank 3 is) h
  unfold State.performBundle; simp only
  split
  · exact State.performWords_wf _ _ h
  · split
    · split
      · exact h1
      · exact State.beside_wf _ _ _ (fun t ht => State.performWords_wf t _ ht) h
    · exact h1

theorem State.issueParsed_wf (s : State) (p : Parsed) (h : memWf s.mem = true) : memWf (s.issueParsed p).mem = true := by
  unfold State.issueParsed; simp only
  have hc : memWf ({ s with issue := s.seq }.checkWords (byRank checkRank 5 p.on)).state.mem = true := by
    rw [State.checkWords_mem]; exact h
  generalize State.checkWords _ (byRank checkRank 5 p.on) = r at hc ⊢
  obtain ⟨ts, ws, t⟩ := r
  simp only at hc ⊢
  split
  · exact State.precise_wf _ _ hc
  · rw [State.block_mem, State.modMe_mem]; exact hc
  · have hp := State.performBundle_wf (t.modMe (fun x => { x with scbSkip := x.scbSkip && x.inh, killPoint := false }))
      p.on (by rw [State.modMe_mem]; exact hc)
    split
    · exact State.precise_wf _ _ hc
    · rw [State.block_mem, State.modMe_mem]; exact hc
    · refine State.settle_wf _ _ (State.stepOver_wf _ _ ?_)
      rw [State.progress_mem, State.issued_mem]; exact hp

theorem State.issueBundle_wf (s : State) (c : Nat) (h : memWf s.mem = true) : memWf (s.issueBundle c).mem = true := by
  unfold State.issueBundle; simp only
  split
  · exact State.precise_wf _ _ h
  · exact State.stepOver_wf _ _ h
  · exact State.precise_wf _ _ h
  · exact State.takeTrap_wf _ _ _ h
  · exact h
  · exact State.issueParsed_wf _ _ h

/-- A context's step keeps memory in its canonical form. -/
theorem State.coreStep_wf (s : State) (c : Nat) (h : memWf s.mem = true) : memWf (s.coreStep c).mem = true := by
  have hg : memWf (s.giveSlot c).mem = true := by simp [h]
  unfold State.coreStep; simp only
  split
  · refine State.settle_wf _ _ (State.stepOver_wf _ _ ?_)
    rw [State.modCtx_mem]; exact hg
  · exact State.issueBundle_wf _ _ hg

theorem Event.run_good (e : Event) (s : State) (h : memWf s.mem = true) : Good (e.run s) :=
  match e with
  | .loopIterationEnd c => execLoopIterationEnd_good c s h
  | .asynchronousTrap c => execAsynchronousTrap_good c s h
  | .idleWake c => execIdleWake_good c s h
  | .gaugeTimeout c => execGaugeTimeout_good c s h
  | .preemptionDeadline c => execPreemptionDeadline_good c s h
  | .save g => execSave_good g s h
  | .taskEnd c => execTaskEnd_good c s h
  | .progressPromise c => execProgressPromise_good c s h
  | .stragglerKill c => execStragglerKill_good c s h
  | .forecastExpiry c => execForecastExpiry_good c s h
  | .scheduleIterationStart c entry => execScheduleIterationStart_good c entry s h
  | .cubeOperationStart id => execCubeOperationStart_good id s h
  | .cubeOperationCompletion id => execCubeOperationCompletion_good id s h
  | .vectorOperationCompletion id => execVectorOperationCompletion_good id s h
  | .transposeOperationCompletion id => execTransposeOperationCompletion_good id s h
  | .upstCompletion id => execUpstCompletion_good id s h
  | .copyFault id => execCopyFault_good id s h
  | .scheduleIterationLanding id => execScheduleIterationLanding_good id s h
  | .copyLanding id recv => execCopyLanding_good id recv s h
  | .wldLanding id => execWldLanding_good id s h
  | .wstCompletion id => execWstCompletion_good id s h
  | .jaccCompletion id => execJaccCompletion_good id s h
  | .loadDataReturn id => execLoadDataReturn_good id s h
  | .windowAccessTimeout id => execWindowAccessTimeout_good id s h
  | .storePerformed id => execStorePerformed_good id s h
  | .collectiveTransferSend id => execCollectiveTransferSend_good id s h
  | .collectiveFold id => execCollectiveFold_good id s h
  | .collectiveCompletion id => execCollectiveCompletion_good id s h
  | .quantumExpiry core => execQuantumExpiry_good core s h
  | .spillwayChunkReturn core queue => execSpillwayChunkReturn_good core queue s h
  | .wsMapApplication core => execWsMapApplication_good core s h
  | .deadlockDetection cube => execDeadlockDetection_good cube s h
  | .governorWindow cube power => execGovernorWindow_good cube power s h
  | .busTestRun cube => execBusTestRun_good cube s h
  | .testDrained cube => execTestDrained_good cube s h
  | .testEnd cube => execTestEnd_good cube s h
  | .testAbort cube => execTestAbort_good cube s h
  | .elevatorDrainEnd cube cluster => execElevatorDrainEnd_good cube cluster s h
  | .transactionRetry id => execTransactionRetry_good id s h
  | .droopAlarm region => execDroopAlarm_good region s h
  | .droopAlarmClear region => execDroopAlarmClear_good region s h
  | .fatalEvent code addr => execFatalEvent_good code addr s h
  | .groupPlacement l => execGroupPlacement_good l s h
  | .recomputeProducerCompletion l => execRecomputeProducerCompletion_good l s h
  | .resume g => execResume_good g s h
  | .guardRefresh bank => execGuardRefresh_good bank s h
  | .launchBegin => execLaunchBegin_good s h
  | .stepBudgetWindow => execStepBudgetWindow_good s h
  | .ceilingChange => execCeilingChange_good s h
  | .heartbeatSend => execHeartbeatSend_good s h
  | .departure node => execDeparture_good node s h
  | .forecastUpdate => execForecastUpdate_good s h
  | .telemetrySample => execTelemetrySample_good s h
  | .telemetryAggregate => execTelemetryAggregate_good s h
  | .coreMapPersist => execCoreMapPersist_good s h
  | .warmStart keep => execWarmStart_good keep s h
  | .coldStart failing => execColdStart_good failing s h
  | .info => execInfo_good s h
  | .group cmd nodes => execGroup_good cmd nodes s h
  | .keyLoad slot wrapped => execKeyLoad_good slot wrapped s h
  | .keyClear slot => execKeyClear_good slot s h
  | .attest nonce => execAttest_good nonce s h
  | .errlog index => execErrlog_good index s h
  | .mailRefusal => ⟨_, rfl, by simp [h]⟩
  | .memberEviction node => execMemberEviction_good node s h

theorem ite_good {c : Prop} [Decidable c] {o : Host.Outcome State Fault Refusal} {s : State} (ho : Good o)
    (h : memWf s.mem = true) : Good (if c then o else .next s) := by
  split
  · exact ho
  · exact ⟨s, rfl, h⟩

theorem Input.run_good (e : Input) (s : State) (h : memWf s.mem = true) : Good (e.run s) :=
  match e with
  | .registerWrite n v => ite_good (execRegisterWrite_good true n v s h) h
  | .doorbell q tail => ite_good (execDoorbell_good q tail s h) h
  | .faultDomainAcknowledge fdom => ite_good (execFaultDomainAcknowledge_good fdom s h) h
  | .hostWindowAccess op offset size data cmp => ite_good (execHostWindowAccess_good op offset size data cmp s h) h
  | .hostAtomicFailure id => ⟨_, rfl, State.atomicFailed_wf s id h⟩
  | .status => execStatus_good s h
  | .reset kind => execReset_good kind s h
  | .telemetry n => execTelemetry_good n s h
  | .dumpRead offset len => execDumpRead_good offset len s h
  | .dumpClear => execDumpClear_good s h
  | .configRead => execConfigRead_good s h
  | .configWrite node slot rollback body sig => execConfigWrite_good node slot rollback body sig s h
  | .cmapRestore cube logical => execCmapRestore_good cube logical s h
  | .timeset v => execTimeset_good v s h
  | .errlogRead index n => execErrlogRead_good index n s h
  | .getMeasurements nonce => execGetMeasurements_good nonce s h
  | .spdmSecuredSession => execSpdmSecuredSession_good s h
  | .fabricWindowAccess node op offset size data cmp => execFabricWindowAccess_good node op offset size data cmp s h
  | .linkFailure port node => execLinkFailure_good port node s h
  | .versionPublication _ region ver => ite_good (execVersionPublication_good region ver s h) h
  | .loweringAnnouncement node limit at_ => execLoweringAnnouncement_good node limit at_ s h
  | .raiseProposal node limit at_ => execRaiseProposal_good node limit at_ s h
  | .raiseGrant node => execRaiseGrant_good node s h
  | .raiseGrantOf proposer node limit at_ => ⟨_, rfl, by simp [h]⟩
  | .loweringAcknowledgement node limit at_ => ⟨_, rfl, by simp [h]⟩
  | .grantTable node entries => ⟨_, rfl, by simp [h]⟩
  | .joinAcknowledgement node joiner limit seq members => ⟨_, rfl, by simp [h]⟩
  | .formRequest node limit seq nodes => ⟨_, rfl, by simp [h]⟩
  | .heartbeat node seq limit members => execHeartbeat_good node seq limit members s h
  | .joinRequest node limit => execJoinRequest_good node limit s h
  | .departure node => execDeparture_good node s h
  | .collectiveTransferArrival node core sender chunk digest data => ⟨_, rfl, State.transferComes_wf s core _ h⟩
  | .collectiveAcknowledgement core receiver chunk => ⟨_, rfl, by simp [h]⟩
  | .scheduleSwitch core digest chunk => ⟨_, rfl, by simp [h]⟩
  | .sensorReading cube sensor quarters => execSensorReading_good cube sensor quarters s h
  | .periodCount region n => ⟨_, rfl, by simp [h]⟩
  | .clockStretch region => execClockStretch_good region s h
  | .crossingBubble region => execCrossingBubble_good region s h
  | .busTestCompletion cube pass demand => execBusTestCompletion_good cube pass demand s h
  | .busError cube place id => ⟨_, rfl, State.busError_wf s cube place id h⟩
  | .fatalEvent code addr => execFatalEvent_good code addr s h
  | .coldStart failing => execColdStart_good failing s h

@[simp] theorem State.foldl_progress_mem (s : State) (l : List Nat) : (l.foldl State.progress s).mem = s.mem :=
  foldl_mem _ _ _ fun _ _ => rfl

/-- Every move the machine can make gives a next state, in which memory is in canonical form. -/
theorem State.make_good (s : State) (m : Move) (h : memWf s.mem = true) : Good (s.make m) := by
  cases m with
  | core c => exact ⟨_, rfl, s.coreStep_wf c h⟩
  | event e => exact e.run_good _ (by rw [State.foldl_progress_mem]; exact h)
  | input e => exact e.run_good _ (by rw [State.foldl_progress_mem]; exact h)

end Sys2Proof.Machine
end

