-- ==== Sys2Proof/Tests/Slice0.lean ====
section
/-! SUPPORT. Tests: an ill-formed term for each check of WellFormed, a word of every instruction written out from the fields of
its row in spec/opcode_table.json, states that meet the hypotheses of the statements, and steps worked out from the spec. -/

set_option Elab.async false

namespace Sys2Proof.Tests

open Sys2Proof Sys2Proof.Machine

/-! Terms that are not well formed (spec 02 R53). -/

theorem test_shift_w_refused : Instr.wf (.slli 1#5 1#5 1#1 32#6) = false := by decide
theorem test_scope_refused : Instr.wf (.acq 1#5 6#3) = false ∧ Instr.wf (.fence 7#3) = false := by decide
theorem test_predicate_refused : Instr.wf (.vany 1#5 8#5) = false ∧ Instr.wf (.pand 1#5 2#5 9#5 0#1) = false ∧
    Instr.wf (.pnot 1#5 8#5 0#1) = false ∧ Instr.wf (.sbind 1#5 8#5 1#5) = false := by decide
theorem test_engine_refused : Instr.wf (.estat 1#5 6#5) = false := by decide
theorem test_engine_register_refused : Instr.wf (.ewr 1#5 0#5 7#5) = false ∧ Instr.wf (.erd 1#5 6#5 0#5) = false := by decide
theorem test_level_refused : Instr.wf (.lset 6#3 1#5) = false ∧ Instr.wf (.lfl 7#3 0#10) = false := by decide
theorem test_stall_refused : Instr.wf (.stall 0#12) = false := by decide
theorem test_tlbi_refused : Instr.wf (.tlbi 1#5 3#2) = false ∧ Instr.wf (.tlbi 1#5 2#2) = false := by decide
theorem test_handle_field_refused : Instr.wf (.hset 1#5 1#5 0x13#12) = false ∧ Instr.wf (.hget 1#5 1#5 0x24#12) = false := by
  decide
theorem test_format_refused : Instr.wf (.vfma 1#5 2#5 3#5 3#2 0#1) = false ∧ Instr.wf (.vcmpUo 1#5 2#5 3#5 3#2 0#1) = false := by
  decide
theorem test_upst_refused : Instr.wf (.upst 31#5 1#5) = false := by decide
theorem test_csr_refused : Instr.wf (.csrr 1#5 0x003#12) = false ∧ Instr.wf (.csrw 1#5 0x7FF#12) = false := by decide

/-! Words (spec 02 R41, R52; the fields of each row). -/

theorem test_decode_majors_01_to_0F :
    decode 0b1_0_00_000001_00011_00100_000000000101#32 = .ok (.addi 3#5 4#5 5#12) ∧
    decode 0b1_0_00_000010_00011_00100_000000000101#32 = .ok (.addiW 3#5 4#5 5#12) ∧
    decode 0b1_0_00_000011_00011_00100_000000000101#32 = .ok (.andi 3#5 4#5 5#12) ∧
    decode 0b1_0_00_000100_00011_00100_000000000101#32 = .ok (.ori 3#5 4#5 5#12) ∧
    decode 0b1_0_00_000101_00011_00100_000000000101#32 = .ok (.xori 3#5 4#5 5#12) ∧
    decode 0b1_0_00_000110_00011_00100_00000_1_000110#32 = .ok (.slli 3#5 4#5 1#1 6#6) ∧
    decode 0b1_0_00_000111_00011_00100_00000_1_000110#32 = .ok (.srli 3#5 4#5 1#1 6#6) ∧
    decode 0b1_0_00_001000_00011_00100_00000_1_000110#32 = .ok (.srai 3#5 4#5 1#1 6#6) ∧
    decode 0b1_0_00_001001_00011_00000000000000100#32 = .ok (.li 3#5 4#17) ∧
    decode 0b1_0_00_001010_00011_00000000000000100#32 = .ok (.lui 3#5 4#17) ∧
    decode 0b1_0_00_001011_00011_00000000000000100#32 = .ok (.lsi 3#5 4#17) := by
  refine ⟨?_, ?_, ?_, ?_, ?_, ?_, ?_, ?_, ?_, ?_, ?_⟩ <;> rfl

theorem test_decode_majors_10_to_10 :
    decode 0b1_0_00_010000_00011_00100_00101_1_000000#32 = .ok (.add 3#5 4#5 5#5 1#1) ∧
    decode 0b1_0_00_010000_00011_00100_00101_1_000001#32 = .ok (.sub 3#5 4#5 5#5 1#1) ∧
    decode 0b1_0_00_010000_00011_00100_00101_1_000010#32 = .ok (.and 3#5 4#5 5#5 1#1) ∧
    decode 0b1_0_00_010000_00011_00100_00101_1_000011#32 = .ok (.or 3#5 4#5 5#5 1#1) ∧
    decode 0b1_0_00_010000_00011_00100_00101_1_000100#32 = .ok (.xor 3#5 4#5 5#5 1#1) ∧
    decode 0b1_0_00_010000_00011_00100_00101_1_000101#32 = .ok (.andn 3#5 4#5 5#5 1#1) ∧
    decode 0b1_0_00_010000_00011_00100_00101_1_000110#32 = .ok (.sll 3#5 4#5 5#5 1#1) ∧
    decode 0b1_0_00_010000_00011_00100_00101_1_000111#32 = .ok (.srl 3#5 4#5 5#5 1#1) ∧
    decode 0b1_0_00_010000_00011_00100_00101_1_001000#32 = .ok (.sra 3#5 4#5 5#5 1#1) ∧
    decode 0b1_0_00_010000_00011_00100_00101_1_001001#32 = .ok (.min 3#5 4#5 5#5 1#1) ∧
    decode 0b1_0_00_010000_00011_00100_00101_1_001010#32 = .ok (.max 3#5 4#5 5#5 1#1) ∧
    decode 0b1_0_00_010000_00011_00100_00101_1_001011#32 = .ok (.minu 3#5 4#5 5#5 1#1) ∧
    decode 0b1_0_00_010000_00011_00100_00101_1_001100#32 = .ok (.maxu 3#5 4#5 5#5 1#1) ∧
    decode 0b1_0_00_010000_00011_00100_00000_1_001101#32 = .ok (.clz 3#5 4#5 1#1) ∧
    decode 0b1_0_00_010000_00011_00100_00000_1_001110#32 = .ok (.ctz 3#5 4#5 1#1) ∧
    decode 0b1_0_00_010000_00011_00100_00000_1_001111#32 = .ok (.popc 3#5 4#5 1#1) ∧
    decode 0b1_0_00_010000_00011_00100_00000_1_010000#32 = .ok (.sextB 3#5 4#5 1#1) ∧
    decode 0b1_0_00_010000_00011_00100_00000_1_010001#32 = .ok (.sextH 3#5 4#5 1#1) ∧
    decode 0b1_0_00_010000_00011_00100_00000_1_010010#32 = .ok (.sextW 3#5 4#5 1#1) ∧
    decode 0b1_0_00_010000_00011_00100_00000_1_010011#32 = .ok (.zextB 3#5 4#5 1#1) ∧
    decode 0b1_0_00_010000_00011_00100_00000_1_010100#32 = .ok (.zextH 3#5 4#5 1#1) ∧
    decode 0b1_0_00_010000_00011_00100_00000_1_010101#32 = .ok (.zextW 3#5 4#5 1#1) ∧
    decode 0b1_0_00_010000_00011_00100_00101_1_010110#32 = .ok (.sadd1 3#5 4#5 5#5 1#1) ∧
    decode 0b1_0_00_010000_00011_00100_00101_1_010111#32 = .ok (.sadd2 3#5 4#5 5#5 1#1) ∧
    decode 0b1_0_00_010000_00011_00100_00101_1_011000#32 = .ok (.sadd3 3#5 4#5 5#5 1#1) ∧
    decode 0b1_0_00_010000_00011_00100_00101_1_011001#32 = .ok (.sadd4 3#5 4#5 5#5 1#1) ∧
    decode 0b1_0_00_010000_00011_00100_00101_1_100000#32 = .ok (.addW 3#5 4#5 5#5 1#1) ∧
    decode 0b1_0_00_010000_00011_00100_00101_1_100001#32 = .ok (.subW 3#5 4#5 5#5 1#1) ∧
    decode 0b1_0_00_010000_00011_00100_00101_1_100110#32 = .ok (.sllW 3#5 4#5 5#5 1#1) ∧
    decode 0b1_0_00_010000_00011_00100_00101_1_100111#32 = .ok (.srlW 3#5 4#5 5#5 1#1) ∧
    decode 0b1_0_00_010000_00011_00100_00101_1_101000#32 = .ok (.sraW 3#5 4#5 5#5 1#1) ∧
    decode 0b1_0_00_010000_00011_00100_00000_1_101101#32 = .ok (.clzW 3#5 4#5 1#1) ∧
    decode 0b1_0_00_010000_00011_00100_00000_1_101110#32 = .ok (.ctzW 3#5 4#5 1#1) ∧
    decode 0b1_0_00_010000_00011_00100_00000_1_101111#32 = .ok (.popcW 3#5 4#5 1#1) := by
  refine ⟨?_, ?_, ?_, ?_, ?_, ?_, ?_, ?_, ?_, ?_, ?_, ?_, ?_, ?_, ?_, ?_, ?_, ?_, ?_, ?_, ?_, ?_, ?_, ?_, ?_, ?_, ?_, ?_, ?_, ?_, ?_, ?_, ?_, ?_⟩ <;> rfl

theorem test_decode_majors_11_to_11 :
    decode 0b1_0_00_010001_00011_00100_00101_0000000#32 = .ok (.mul 3#5 4#5 5#5) ∧
    decode 0b1_0_00_010001_00011_00100_00101_0000001#32 = .ok (.mulh 3#5 4#5 5#5) ∧
    decode 0b1_0_00_010001_00011_00100_00101_0000010#32 = .ok (.mulhu 3#5 4#5 5#5) ∧
    decode 0b1_0_00_010001_00011_00100_00101_0000011#32 = .ok (.mulhsu 3#5 4#5 5#5) ∧
    decode 0b1_0_00_010001_00011_00100_00101_0000100#32 = .ok (.mulW 3#5 4#5 5#5) ∧
    decode 0b1_0_00_010001_00011_00100_00101_0001000#32 = .ok (.div 3#5 4#5 5#5) ∧
    decode 0b1_0_00_010001_00011_00100_00101_0001001#32 = .ok (.divu 3#5 4#5 5#5) ∧
    decode 0b1_0_00_010001_00011_00100_00101_0001010#32 = .ok (.rem 3#5 4#5 5#5) ∧
    decode 0b1_0_00_010001_00011_00100_00101_0001011#32 = .ok (.remu 3#5 4#5 5#5) ∧
    decode 0b1_0_00_010001_00011_00100_00101_0001100#32 = .ok (.divW 3#5 4#5 5#5) ∧
    decode 0b1_0_00_010001_00011_00100_00101_0001101#32 = .ok (.divuW 3#5 4#5 5#5) ∧
    decode 0b1_0_00_010001_00011_00100_00101_0001110#32 = .ok (.remW 3#5 4#5 5#5) ∧
    decode 0b1_0_00_010001_00011_00100_00101_0001111#32 = .ok (.remuW 3#5 4#5 5#5) := by
  refine ⟨?_, ?_, ?_, ?_, ?_, ?_, ?_, ?_, ?_, ?_, ?_, ?_, ?_⟩ <;> rfl

theorem test_decode_majors_12_to_15 :
    decode 0b1_0_00_010010_00011_00100_00_0000000101#32 = .ok (.ldB 3#5 4#5 5#10) ∧
    decode 0b1_0_00_010010_00011_00100_01_0000000101#32 = .ok (.ldH 3#5 4#5 5#10) ∧
    decode 0b1_0_00_010010_00011_00100_10_0000000101#32 = .ok (.ldW 3#5 4#5 5#10) ∧
    decode 0b1_0_00_010010_00011_00100_11_0000000101#32 = .ok (.ldD 3#5 4#5 5#10) ∧
    decode 0b1_0_00_010011_00011_00100_00_0000000101#32 = .ok (.ldBu 3#5 4#5 5#10) ∧
    decode 0b1_0_00_010011_00011_00100_01_0000000101#32 = .ok (.ldHu 3#5 4#5 5#10) ∧
    decode 0b1_0_00_010011_00011_00100_10_0000000101#32 = .ok (.ldWu 3#5 4#5 5#10) ∧
    decode 0b1_0_00_010100_00011_00100_00_0000000101#32 = .ok (.stB 3#5 4#5 5#10) ∧
    decode 0b1_0_00_010100_00011_00100_01_0000000101#32 = .ok (.stH 3#5 4#5 5#10) ∧
    decode 0b1_0_00_010100_00011_00100_10_0000000101#32 = .ok (.stW 3#5 4#5 5#10) ∧
    decode 0b1_0_00_010100_00011_00100_11_0000000101#32 = .ok (.stD 3#5 4#5 5#10) := by
  refine ⟨?_, ?_, ?_, ?_, ?_, ?_, ?_, ?_, ?_, ?_, ?_⟩ <;> rfl

theorem test_decode_majors_16_to_17 :
    decode 0b1_0_00_010111_00011_00100_00_0000000101#32 = .ok (.hld 3#5 4#5 5#10) ∧
    decode 0b1_0_00_010111_00011_00100_01_0000000101#32 = .ok (.hst 3#5 4#5 5#10) ∧
    decode 0b1_0_00_010111_00011_00100_100000000000#32 = .ok (.hdrop 3#5 4#5) := by
  refine ⟨?_, ?_, ?_⟩ <;> rfl

theorem test_decode_majors_18_to_1B :
    decode 0b1_0_00_011000_00011_00100_00101_000000_1#32 = .ok (.aadd 3#5 4#5 5#5 1#1) ∧
    decode 0b1_0_00_011000_00011_00100_00101_000001_1#32 = .ok (.aand 3#5 4#5 5#5 1#1) ∧
    decode 0b1_0_00_011000_00011_00100_00101_000010_1#32 = .ok (.aor 3#5 4#5 5#5 1#1) ∧
    decode 0b1_0_00_011000_00011_00100_00101_000011_1#32 = .ok (.axor 3#5 4#5 5#5 1#1) ∧
    decode 0b1_0_00_011000_00011_00100_00101_000100_1#32 = .ok (.amin 3#5 4#5 5#5 1#1) ∧
    decode 0b1_0_00_011000_00011_00100_00101_000101_1#32 = .ok (.amax 3#5 4#5 5#5 1#1) ∧
    decode 0b1_0_00_011000_00011_00100_00101_000110_1#32 = .ok (.aminu 3#5 4#5 5#5 1#1) ∧
    decode 0b1_0_00_011000_00011_00100_00101_000111_1#32 = .ok (.amaxu 3#5 4#5 5#5 1#1) ∧
    decode 0b1_0_00_011000_00011_00100_00101_001000_1#32 = .ok (.aswap 3#5 4#5 5#5 1#1) ∧
    decode 0b1_0_00_011000_00011_00100_00101_001001_1#32 = .ok (.acas 3#5 4#5 5#5 1#1) ∧
    decode 0b1_0_00_01100100000_00011_00100_0000000#32 = .ok (.bind 3#5 4#5) ∧
    decode 0b1_0_00_01100100000_00011_000000001_010#32 = .ok (.acq 3#5 2#3) ∧
    decode 0b1_0_00_01100100000_00011_000000010_010#32 = .ok (.rel 3#5 2#3) ∧
    decode 0b1_0_00_0110010000000000000000011_010#32 = .ok (.fenceAcq 2#3) ∧
    decode 0b1_0_00_0110010000000000000000100_010#32 = .ok (.fenceRel 2#3) ∧
    decode 0b1_0_00_0110010000000000000000101_010#32 = .ok (.fence 2#3) ∧
    decode 0b1_0_00_0110010000000000000000110000#32 = .ok .lfence ∧
    decode 0b1_0_00_0110010000000000000000110001#32 = .ok .ifence ∧
    decode 0b1_0_00_011010_00011_00000000000000100#32 = .ok (.ptgt 3#5 4#17) ∧
    decode 0b1_0_00_011011_00011_00100_00101_000_1_000#32 = .ok (.cmpEq 3#5 4#5 5#5 1#1) ∧
    decode 0b1_0_00_011011_00011_00100_00101_000_1_001#32 = .ok (.cmpNe 3#5 4#5 5#5 1#1) ∧
    decode 0b1_0_00_011011_00011_00100_00101_000_1_010#32 = .ok (.cmpLt 3#5 4#5 5#5 1#1) ∧
    decode 0b1_0_00_011011_00011_00100_00101_000_1_011#32 = .ok (.cmpGe 3#5 4#5 5#5 1#1) ∧
    decode 0b1_0_00_011011_00011_00100_00101_000_1_100#32 = .ok (.cmpLtu 3#5 4#5 5#5 1#1) ∧
    decode 0b1_0_00_011011_00011_00100_00101_000_1_101#32 = .ok (.cmpGeu 3#5 4#5 5#5 1#1) := by
  refine ⟨?_, ?_, ?_, ?_, ?_, ?_, ?_, ?_, ?_, ?_, ?_, ?_, ?_, ?_, ?_, ?_, ?_, ?_, ?_, ?_, ?_, ?_, ?_, ?_, ?_⟩ <;> rfl

theorem test_decode_majors_1C_to_1F :
    decode 0b1_0_00_01110000000_00011_00100_00000_01#32 = .ok (.br 3#5 4#5 1#2) ∧
    decode 0b1_0_00_01110000000_00011_00100_00001_01#32 = .ok (.brZ 3#5 4#5 1#2) ∧
    decode 0b1_0_00_011100_00011_00100_0000000010_01#32 = .ok (.brl 3#5 4#5 1#2) ∧
    decode 0b1_0_00_01110000000_00011_0000000011_01#32 = .ok (.jr 3#5 1#2) ∧
    decode 0b1_0_00_01110000000_00011_00100_00100_01#32 = .ok (.jtab 3#5 4#5 1#2) ∧
    decode 0b1_0_00_011101_00011_00100_000000000000#32 = .ok (.vany 3#5 4#5) ∧
    decode 0b1_0_00_011101_00011_00100_000000000001#32 = .ok (.vall 3#5 4#5) ∧
    decode 0b1_0_00_011101_00011_00100_000000000010#32 = .ok (.estat 3#5 4#5) ∧
    decode 0b1_0_00_011110_010_000_00100_00000000000#32 = .ok (.lset 2#3 4#5) ∧
    decode 0b1_0_00_011110_010_001_1_00101_00110_00000#32 = .ok (.lstr 2#3 1#1 5#5 6#5) ∧
    decode 0b1_0_00_011110_010_01000000000_00000100#32 = .ok (.lbody 2#3 4#8) ∧
    decode 0b1_0_00_011110_010_011_00100_00000000000#32 = .ok (.lidx 2#3 4#5) ∧
    decode 0b1_0_00_011110_010_1000000000000000000#32 = .ok (.lexit 2#3) ∧
    decode 0b1_0_00_011110_010_111000000_0000000100#32 = .ok (.lfl 2#3 4#10) ∧
    decode 0b1_0_00_0111110000000000000000000000#32 = .ok .nop ∧
    decode 0b1_0_00_0111110000000001_000000000011#32 = .ok (.stall 3#12) ∧
    decode 0b1_0_00_0111110000000010_000000000011#32 = .ok (.trap 3#12) ∧
    decode 0b1_0_00_0111110000000011_000000000011#32 = .ok (.brk 3#12) ∧
    decode 0b1_0_00_0111110000000100000000000000#32 = .ok .rft ∧
    decode 0b1_0_00_011111_00011_00101_000100000110#32 = .ok (.csrr 3#5 262#12) ∧
    decode 0b1_0_00_011111_00011_00110_000100000110#32 = .ok (.csrw 3#5 262#12) ∧
    decode 0b1_0_00_0111110000000111000000000000#32 = .ok .yield ∧
    decode 0b1_0_00_0111110000001000000000000000#32 = .ok .idle ∧
    decode 0b1_0_00_011111_00000_010010000000000_10#32 = .ok (.tlbi 0#5 2#2) ∧
    decode 0b1_0_00_011111_00011_01010000000000000#32 = .ok (.stest 3#5) ∧
    decode 0b1_0_00_011111_00011_01011000000000000#32 = .ok (.ststat 3#5) ∧
    decode 0b1_0_00_011111_00011_01100000000000000#32 = .ok (.cmapw 3#5) := by
  refine ⟨?_, ?_, ?_, ?_, ?_, ?_, ?_, ?_, ?_, ?_, ?_, ?_, ?_, ?_, ?_, ?_, ?_, ?_, ?_, ?_, ?_, ?_, ?_, ?_, ?_, ?_, ?_⟩ <;> rfl

theorem test_decode_majors_20_to_22 :
    decode 0b1_0_00_100000_00011_00100_000000000000#32 = .ok (.hmov 3#5 4#5) ∧
    decode 0b1_0_00_100000_00011_00100_00101_0000001#32 = .ok (.hofs 3#5 4#5 5#5) ∧
    decode 0b1_0_00_100000_00011_00000_00100_0000010#32 = .ok (.hseq 3#5 4#5) ∧
    decode 0b1_0_00_100000_00011_00100_000000000011#32 = .ok (.hlive 3#5 4#5) ∧
    decode 0b1_0_00_100000_00011_00100_00101_0000100#32 = .ok (.hea 3#5 4#5 5#5) ∧
    decode 0b1_0_00_100001_00011_00100_000000000001#32 = .ok (.hset 3#5 4#5 1#12) ∧
    decode 0b1_0_00_100010_00011_00100_000000010010#32 = .ok (.hget 3#5 4#5 18#12) := by
  refine ⟨?_, ?_, ?_, ?_, ?_, ?_, ?_⟩ <;> rfl

theorem test_decode_majors_23_to_24 :
    decode 0b1_0_00_100011_00011_00100_00101_0000000#32 = .ok (.ewr 3#5 4#5 5#5) ∧
    decode 0b1_0_00_100011_00011_00100_00101_0000010#32 = .ok (.erd 3#5 4#5 5#5) ∧
    decode 0b1_0_00_1000110000000000000000000100#32 = .ok .edrain ∧
    decode 0b1_0_00_1000110000000000000000000110#32 = .ok .efence ∧
    decode 0b1_0_00_100100_00011_00100_00101_0000000#32 = .ok (.cmm 3#5 4#5 5#5) ∧
    decode 0b1_0_00_100100_00011_00100_00101_0000010#32 = .ok (.cmmh 3#5 4#5 5#5) := by
  refine ⟨?_, ?_, ?_, ?_, ?_, ?_⟩ <;> rfl

theorem test_decode_majors_25_to_26 :
    decode 0b1_0_00_10010100000_00011_00000000000_1#32 = .ok (.cldb 3#5 1#1) ∧
    decode 0b1_0_00_100101_00011_00000000000000010#32 = .ok (.czero 3#5) ∧
    decode 0b1_0_00_100110_00011_00100_000000000000#32 = .ok (.crd 3#5 4#5) := by
  refine ⟨?_, ?_, ?_⟩ <;> rfl

theorem test_decode_majors_27_to_2A :
    decode 0b1_0_00_10011100000_00011_000000000000#32 = .ok (.cfsel 3#5) ∧
    decode 0b1_0_00_101000_00011_00100_00101_01_0000_1#32 = .ok (.vaddFp 3#5 4#5 5#5 1#2 1#1) ∧
    decode 0b1_0_00_101000_00011_00100_00101_01_0001_1#32 = .ok (.vsubFp 3#5 4#5 5#5 1#2 1#1) ∧
    decode 0b1_0_00_101000_00011_00100_00101_01_0010_1#32 = .ok (.vmulFp 3#5 4#5 5#5 1#2 1#1) ∧
    decode 0b1_0_00_101000_00011_00100_00101_01_0011_1#32 = .ok (.vminFp 3#5 4#5 5#5 1#2 1#1) ∧
    decode 0b1_0_00_101000_00011_00100_00101_01_0100_1#32 = .ok (.vmaxFp 3#5 4#5 5#5 1#2 1#1) ∧
    decode 0b1_0_00_101001_00011_00100_00101_01_0000_1#32 = .ok (.vfma 3#5 4#5 5#5 1#2 1#1) ∧
    decode 0b1_0_00_101001_00011_00100_00101_01_0001_1#32 = .ok (.vfms 3#5 4#5 5#5 1#2 1#1) ∧
    decode 0b1_0_00_101001_00011_00100_00101_01_0010_1#32 = .ok (.vfnma 3#5 4#5 5#5 1#2 1#1) ∧
    decode 0b1_0_00_101001_00011_00100_00000_01_0011_1#32 = .ok (.vabs 3#5 4#5 1#2 1#1) ∧
    decode 0b1_0_00_101001_00011_00100_00000_01_0100_1#32 = .ok (.vneg 3#5 4#5 1#2 1#1) ∧
    decode 0b1_0_00_101001_00011_00100_00000000101_1#32 = .ok (.vrcp 3#5 4#5 1#1) ∧
    decode 0b1_0_00_101001_00011_00100_00000000110_1#32 = .ok (.vrsq 3#5 4#5 1#1) ∧
    decode 0b1_0_00_101001_00011_00100_00000000111_1#32 = .ok (.vexp2 3#5 4#5 1#1) ∧
    decode 0b1_0_00_101001_00011_00100_00000001000_1#32 = .ok (.vlog2 3#5 4#5 1#1) ∧
    decode 0b1_0_00_101010_00011_00100_00101_01_0000_1#32 = .ok (.vaddInt 3#5 4#5 5#5 1#2 1#1) ∧
    decode 0b1_0_00_101010_00011_00100_00101_01_0001_1#32 = .ok (.vsubInt 3#5 4#5 5#5 1#2 1#1) ∧
    decode 0b1_0_00_101010_00011_00100_00101_01_0010_1#32 = .ok (.vmulInt 3#5 4#5 5#5 1#2 1#1) ∧
    decode 0b1_0_00_101010_00011_00100_00101_01_0011_1#32 = .ok (.vminInt 3#5 4#5 5#5 1#2 1#1) ∧
    decode 0b1_0_00_101010_00011_00100_00101_01_0100_1#32 = .ok (.vmaxInt 3#5 4#5 5#5 1#2 1#1) ∧
    decode 0b1_0_00_101010_00011_00100_00101_01_0101_1#32 = .ok (.vadds 3#5 4#5 5#5 1#2 1#1) ∧
    decode 0b1_0_00_101010_00011_00100_00101_01_0110_1#32 = .ok (.vsubs 3#5 4#5 5#5 1#2 1#1) ∧
    decode 0b1_0_00_101010_00011_00100_00101_01_0111_1#32 = .ok (.vand 3#5 4#5 5#5 1#2 1#1) ∧
    decode 0b1_0_00_101010_00011_00100_00101_01_1000_1#32 = .ok (.vor 3#5 4#5 5#5 1#2 1#1) ∧
    decode 0b1_0_00_101010_00011_00100_00101_01_1001_1#32 = .ok (.vxor 3#5 4#5 5#5 1#2 1#1) ∧
    decode 0b1_0_00_101010_00011_00100_00101_01_1010_1#32 = .ok (.vshl 3#5 4#5 5#5 1#2 1#1) ∧
    decode 0b1_0_00_101010_00011_00100_00101_01_1011_1#32 = .ok (.vsra 3#5 4#5 5#5 1#2 1#1) ∧
    decode 0b1_0_00_101010_00011_00100_00101_01_1100_1#32 = .ok (.vsrl 3#5 4#5 5#5 1#2 1#1) := by
  refine ⟨?_, ?_, ?_, ?_, ?_, ?_, ?_, ?_, ?_, ?_, ?_, ?_, ?_, ?_, ?_, ?_, ?_, ?_, ?_, ?_, ?_, ?_, ?_, ?_, ?_, ?_, ?_, ?_⟩ <;> rfl

theorem test_decode_majors_2B_to_2F :
    decode 0b1_0_00_101011_00011_00100_00101_01_0000_1#32 = .ok (.vcmpEq 3#5 4#5 5#5 1#2 1#1) ∧
    decode 0b1_0_00_101011_00011_00100_00101_01_0001_1#32 = .ok (.vcmpNe 3#5 4#5 5#5 1#2 1#1) ∧
    decode 0b1_0_00_101011_00011_00100_00101_01_0010_1#32 = .ok (.vcmpLt 3#5 4#5 5#5 1#2 1#1) ∧
    decode 0b1_0_00_101011_00011_00100_00101_01_0011_1#32 = .ok (.vcmpLe 3#5 4#5 5#5 1#2 1#1) ∧
    decode 0b1_0_00_101011_00011_00100_00101_01_0100_1#32 = .ok (.vcmpGt 3#5 4#5 5#5 1#2 1#1) ∧
    decode 0b1_0_00_101011_00011_00100_00101_01_0101_1#32 = .ok (.vcmpGe 3#5 4#5 5#5 1#2 1#1) ∧
    decode 0b1_0_00_101011_00011_00100_00101_01_0110_1#32 = .ok (.vcmpUo 3#5 4#5 5#5 1#2 1#1) ∧
    decode 0b1_0_00_101100_00011_00100_00101_0000000#32 = .ok (.vsel 3#5 4#5 5#5) ∧
    decode 0b1_0_00_101100_00011_00100_00101_000001_1#32 = .ok (.pand 3#5 4#5 5#5 1#1) ∧
    decode 0b1_0_00_101100_00011_00100_00101_000010_1#32 = .ok (.por 3#5 4#5 5#5 1#1) ∧
    decode 0b1_0_00_101100_00011_00100_00101_000011_1#32 = .ok (.pxor 3#5 4#5 5#5 1#1) ∧
    decode 0b1_0_00_101100_00011_00100_00000000100_1#32 = .ok (.pnot 3#5 4#5 1#1) ∧
    decode 0b1_0_00_101100_00011_0000000000000101_1#32 = .ok (.pset 3#5 1#1) ∧
    decode 0b1_0_00_101100_00011_0000000000000110_1#32 = .ok (.pclr 3#5 1#1) ∧
    decode 0b1_0_00_101101_00011_00100_000000000_01_1#32 = .ok (.vcvt 3#5 4#5 1#2 1#1) ∧
    decode 0b1_0_00_101101_00011_00100_00000000100_1#32 = .ok (.vqnt 3#5 4#5 1#1) ∧
    decode 0b1_0_00_101101_00011_00100_00000001000_1#32 = .ok (.vdq 3#5 4#5 1#1) ∧
    decode 0b1_0_00_101110_00011_00100_00000_01_0000_1#32 = .ok (.vrsum 3#5 4#5 1#2 1#1) ∧
    decode 0b1_0_00_101110_00011_00100_00000_01_0001_1#32 = .ok (.vrmax 3#5 4#5 1#2 1#1) ∧
    decode 0b1_0_00_101110_00011_00100_00000_01_0010_1#32 = .ok (.vrmin 3#5 4#5 1#2 1#1) ∧
    decode 0b1_0_00_101111_00011_00100_00101_000000_1#32 = .ok (.vgather 3#5 4#5 5#5 1#1) ∧
    decode 0b1_0_00_101111_00011_00100_00101_000001_1#32 = .ok (.vscatter 3#5 4#5 5#5 1#1) ∧
    decode 0b1_0_00_101111_00011_00100_00101_000010_1#32 = .ok (.vperm 3#5 4#5 5#5 1#1) ∧
    decode 0b1_0_00_101111_00011_00100_00000000011_1#32 = .ok (.vmov 3#5 4#5 1#1) ∧
    decode 0b1_0_00_101111_00011_00100_00000000100_1#32 = .ok (.vfill 3#5 4#5 1#1) ∧
    decode 0b1_0_00_101111_00011_0000000000000101_1#32 = .ok (.viota 3#5 1#1) := by
  refine ⟨?_, ?_, ?_, ?_, ?_, ?_, ?_, ?_, ?_, ?_, ?_, ?_, ?_, ?_, ?_, ?_, ?_, ?_, ?_, ?_, ?_, ?_, ?_, ?_, ?_, ?_⟩ <;> rfl

theorem test_decode_majors_30_to_32 :
    decode 0b1_0_00_110000_00011_00100_000000000000#32 = .ok (.xtr 3#5 4#5) ∧
    decode 0b1_0_00_110000_00011_00100_000000000010#32 = .ok (.xtrc 3#5 4#5) ∧
    decode 0b1_0_00_110001_00011_00100_000000000000#32 = .ok (.upst 3#5 4#5) ∧
    decode 0b1_0_00_11000100000_00011_00100_0000010#32 = .ok (.uvtag 3#5 4#5) ∧
    decode 0b1_0_00_110010_00011_00100_00101_0000000#32 = .ok (.cpy 3#5 4#5 5#5) ∧
    decode 0b1_0_00_110010_00011_00100_00101_0000010#32 = .ok (.cpym 3#5 4#5 5#5) ∧
    decode 0b1_0_00_110010_00011_00100_00101_0000100#32 = .ok (.rrot 3#5 4#5 5#5) ∧
    decode 0b1_0_00_11001000000_00011_000000000110#32 = .ok (.ccan 3#5) ∧
    decode 0b1_0_00_110010_00011_00000000000001000#32 = .ok (.waitc 3#5) := by
  refine ⟨?_, ?_, ?_, ?_, ?_, ?_, ?_, ?_, ?_⟩ <;> rfl

theorem test_decode_majors_33_to_36 :
    decode 0b1_0_00_110011_00011_00100_00101_0000000#32 = .ok (.sbind 3#5 4#5 5#5) ∧
    decode 0b1_0_00_11001100000_00011_000000000010#32 = .ok (.ssch 3#5) ∧
    decode 0b1_0_00_1100110000000000000000000100#32 = .ok .sadv ∧
    decode 0b1_0_00_11001100000_00011_000000000110#32 = .ok (.sres 3#5) ∧
    decode 0b1_0_00_110100_00011_00100_000000000000#32 = .ok (.ginit 3#5 4#5) ∧
    decode 0b1_0_00_110100_00011_00100_00101_0000010#32 = .ok (.gwait 3#5 4#5 5#5) ∧
    decode 0b1_0_00_110100_00011_00100_000000000100#32 = .ok (.gread 3#5 4#5) ∧
    decode 0b1_0_00_1101000000000000000000000110#32 = .ok .gbar ∧
    decode 0b1_0_00_11010100000_00011_000000000000#32 = .ok (.wact 3#5) ∧
    decode 0b1_0_00_11010100000_00011_000000000010#32 = .ok (.wpre 3#5) ∧
    decode 0b1_0_00_11010100000_00011_000000000100#32 = .ok (.wref 3#5) ∧
    decode 0b1_0_00_110101_00011_00100_000000000110#32 = .ok (.wld 3#5 4#5) ∧
    decode 0b1_0_00_110101_00011_00100_000000001000#32 = .ok (.wst 3#5 4#5) ∧
    decode 0b1_0_00_11011000000_00011_00100_0000000#32 = .ok (.vpub 3#5 4#5) ∧
    decode 0b1_0_00_11011000000_00011_000000000010#32 = .ok (.vswt 3#5) ∧
    decode 0b1_0_00_110110_00011_00100_00101_0000100#32 = .ok (.temit 3#5 4#5 5#5) := by
  refine ⟨?_, ?_, ?_, ?_, ?_, ?_, ?_, ?_, ?_, ?_, ?_, ?_, ?_, ?_, ?_, ?_⟩ <;> rfl

theorem test_decode_majors_37_to_3F :
    decode 0b1_0_00_11011100000_00011_000000000000#32 = .ok (.jopen 3#5) ∧
    decode 0b1_0_00_110111_00011_00100_000000000010#32 = .ok (.jacc 3#5 4#5) ∧
    decode 0b1_0_00_110111_00011_00100_000000000100#32 = .ok (.jarr 3#5 4#5) ∧
    decode 0b1_0_00_11011100000_00011_000000000110#32 = .ok (.jwait 3#5) ∧
    decode 0b1_0_00_1101110000000000000000001000#32 = .ok .kpt ∧
    decode 0b1_0_00_11100000000_00011_000000000000#32 = .ok (.coll 3#5) ∧
    decode 0b1_0_00_11100000000_00011_00100_0000001#32 = .ok (.collJ 3#5 4#5) ∧
    decode 0b1_0_00_111000_00011_00100_000000000010#32 = .ok (.csig 3#5 4#5) ∧
    decode 0b1_0_00_11100100000_00011_000000000000#32 = .ok (.afw 3#5) := by
  refine ⟨?_, ?_, ?_, ?_, ?_, ?_, ?_, ?_, ?_⟩ <;> rfl

/-! States for the witnesses: context 0 in supervisor mode, with all of its scratchpad, its code at 0 and 4 GiB of package memory
mapped from 0. -/

def base : State := State.reset.withFetchWord 32 0x80400000
def setS (s : State) (r : BitVec 5) (v : Word) : State := s.modMe (fun x => { x with regs := vset x.regs r v })
def setH (s : State) (r : BitVec 5) (h : Handle) : State := s.modMe (fun x => { x with hregs := vset x.hregs r h })
/-- A local address of the base slice. -/
def near (o : Nat) : Word := BitVec.ofNat 64 (2 ^ 63 + o)
/-- Where a mapped address leads. -/
def far (o : Nat) : Place := ⟨bootCode + o, ⟨bootLeaf, bootTable + 0, 32⟩⟩
/-- A plain handle of e0 by e1 elements whose rows lie `str` bytes apart. -/
def plain (a : Word) (fmt e0 e1 str : Nat) : Handle :=
  BitVec.ofNat 256 (a.toNat + 2 ^ 64 * e0 + 2 ^ 80 * e1 + 2 ^ 96 + 2 ^ 112 + 2 ^ 128 * str + 2 ^ 200 * fmt)

/-- A check answers a value. -/
def isOk {α : Type} [DecidableEq α] (c : Chk α) (a : α) : Bool :=
  match c with
  | .ok b => decide (b = a)
  | .error _ => false
theorem ok_of {α : Type} [DecidableEq α] {c : Chk α} {a : α} (h : isOk c a = true) : c = .ok a := by
  cases c with
  | ok b => simp only [isOk, decide_eq_true_eq] at h; rw [h]
  | error e => simp [isOk] at h

theorem nearFree_of {s : State} {a : Word} {n : Nat} (h : (isLocal a && a.toNat % n == 0 &&
    isOk (s.localAt s.cur (coreOf s.cur) a n) (spadLoc (coreOf s.cur) a.toNat) &&
    !s.rangeBusy (coreOf s.cur) none (spadLoc (coreOf s.cur) a.toNat) n) = true) : s.nearFree a n := by
  simp only [Bool.and_eq_true, beq_iff_eq, Bool.not_eq_true'] at h
  exact ⟨h.1.1.1, h.1.1.2, ok_of h.1.2, h.2⟩

theorem farFree_of {s : State} {acc : Acc} {t : Bool} {a : Word} {n : Nat} {p : Place} (h : (!isLocal a && a.toNat % n == 0 &&
    isOk (s.globalAt (s.agentOf s.cur) acc a) p && isOk (s.raceTrap s.cur p a (acc == .write) t) ()) = true) : s.farFree acc t a n p := by
  simp only [Bool.and_eq_true, beq_iff_eq, Bool.not_eq_true'] at h
  exact ⟨h.1.1.1, h.1.1.2, ok_of h.1.2, ok_of h.2⟩

def okSome {α : Type} (c : Chk α) : Bool :=
  match c with
  | .ok _ => true
  | .error _ => false
theorem some_ok {α : Type} {c : Chk α} (h : okSome c = true) : ∃ a, c = .ok a := by
  cases c with
  | ok b => exact ⟨b, rfl⟩
  | error e => simp [okSome] at h

/-- A check answers a value with a property. -/
def okWith {α : Type} (c : Chk α) (f : α → Bool) : Bool :=
  match c with
  | .ok a => f a
  | .error _ => false
theorem ok_with {α : Type} {c : Chk α} {f : α → Bool} (h : okWith c f = true) : ∃ a, c = .ok a ∧ f a = true := by
  cases c with
  | ok b => exact ⟨b, rfl, h⟩
  | error e => simp [okWith] at h

/-- An operation in flight. -/
def flying (id eng : Nat) (i : Instr) : Op :=
  ⟨id, 0, eng, i, [], 0, 0, EngRegs.reset, [], [], 0, none, none, none, 0, [], none, 0, 0, none, 0, false, 0, 0, 0, false, 0⟩

/-- The state after a word that goes on, and the operation it put in flight. -/
def after (i : Instr) (s : State) : State :=
  match exec i s with
  | .next t => t
  | _ => s
def lastOp (s : State) : Op := s.ops.getLastD (flying 0 0 .nop)

/-- The way a check ends. -/
def verdict {α : Type} (c : Chk α) : Nat :=
  match c with
  | .ok _ => 0
  | .error .wait => 1
  | .error (.trap _) => 2
theorem verdict_trap {α : Type} {c : Chk α} (h : verdict c = 2) : ∃ u, c = .error (.trap u) := by
  cases c with
  | ok b => simp [verdict] at h
  | error e => cases e with
    | trap u => exact ⟨u, rfl⟩
    | wait => simp [verdict] at h
theorem verdict_wait {α : Type} {c : Chk α} (h : verdict c = 1) : c = .error .wait := by
  cases c with
  | ok b => simp [verdict] at h
  | error e => cases e with
    | trap u => simp [verdict] at h
    | wait => rfl

def event (o : Host.Outcome State Fault Refusal) (s : State) : State :=
  match o with
  | .next t => t
  | _ => s

/-- An operand is a row (Opnd.isRow), as a test. -/
def rowOk (o : Opnd) (n b : Nat) : Bool :=
  decide (fmtBits (hFmt o.h) = some (8 * b)) && decide (extents o.h = (n, 1, 1, 1)) && decide (o.lay = none) && isLocal o.base &&
    decide (o.base.toNat % 2 ^ 30 + n * b ≤ 2 ^ 30)
theorem isRow_of {o : Opnd} {n b : Nat} (h : rowOk o n b = true) : o.isRow n b := by
  simp only [rowOk, Bool.and_eq_true, decide_eq_true_eq] at h
  exact ⟨h.1.1.1.1, h.1.1.1.2, h.1.1.2, h.1.2, h.2⟩

/-! Witnesses. -/

theorem witness_ScalarResultsLand : (∀ w ∈ Ctx.reset.shadow, ¬(w.file = .scalar ∧ w.reg = 3#5)) ∧
    (∀ b ∈ Ctx.reset.bypass, b.reg ≠ 3#5) := by decide

def nearS : State := setS (setS base 4 (near 64)) 5 0x1122334455667788
def farS : State := setS (setS base 4 0x100) 5 0x1122334455667788

theorem witness_ScalarLoads : nearS.nearFree (nearS.sr 4#5 + ((1#10).signExtend 64 <<< 3)) 8 ∧
    nearS.poisoned (spadLoc 0 (nearS.sr 4#5 + ((1#10).signExtend 64 <<< 3)).toNat) 8 = false ∧
    farS.farFree .read false (farS.sr 4#5 + ((1#10).signExtend 64 <<< 3)) 8 (far 0x108) ∧
    farS.checks (far 0x108).leaf = false :=
  ⟨nearFree_of (by decide +kernel), by decide +kernel, farFree_of (by decide +kernel), by decide +kernel⟩

theorem witness_ScalarWordsFrame :
    (Instr.addi 3#5 4#5 5#12).isWord = true ∧ majorOf (.addi 3#5 4#5 5#12) ≤ 0x11 ∧
    (∃ t, exec (.addi 3#5 4#5 5#12) base = .next t) ∧ fieldD (.addi 0#5 4#5 5#12) = 0#5 := by
  refine ⟨by decide, by decide, ⟨_, rfl⟩, by decide⟩

theorem witness_ImmediateWords :
    6 ≤ (fld 0x81800080#32 22 6).toNat ∧ (fld 0x81800080#32 22 6).toNat ≤ 8 ∧ fld 0x81800080#32 7 5 ≠ 0#5 ∧
    fld 0x82000060#32 22 6 = 8#6 ∧ fld 0x82000060#32 5 2 = 3#2 := by decide

theorem witness_RegisterWords :
    (fld 0x8400001A#32 22 6 = 0x10#6 ∧ (fld 0x8400001A#32 0 6).toNat = 0x1A) ∧ (fld 0x8400008D#32 0 6).toNat = 0x0D ∧
    fld 0x8400008D#32 7 5 ≠ 0#5 ∧ ((32 = 64 ∨ 32 = 32) ∧ (64 = 64 ∨ 64 = 32)) := by decide

theorem witness_MultiplyAndDivide :
    (∀ n, n < 128 → fld (BitVec.ofNat 32 (0x84400000 + n)) 22 6 = 0x11#6 ∧ (fld (BitVec.ofNat 32 (0x84400000 + n)) 0 7).toNat = n) ∧
    (4#5 : BitVec 5) ≠ 0#5 ∧ Instr.mul 4#5 1#5 2#5 ∈ [Instr.mul 4#5 1#5 2#5] := by decide +kernel

theorem witness_TargetsAndCompares :
    fld 0x86C0000E#32 22 6 = 0x1B#6 ∧ (fld 0x86C0000E#32 0 7).toNat = 0xE ∧ (fld 0x86C00006#32 0 7).toNat = 6 := by decide

/-- A bind table of three rows at 0x1000. -/
def bindS : State :=
  let s := setH (setS base 4 (near 64)) 5 (plain 0x2000 0 4 2 64)
  { s with mem := memWrite (memWrite s.mem (Config.polderBase + 40) 8 0x1000) (Config.polderBase + 48) 2 3 }
def bindNew : BindEntry := ⟨near 64, 0x204F, 0x2000, bindS.agent 0⟩
def bindRows : List (Nat × Option BindEntry) := [(bootCode + 0x1020, none), (bootCode + 0x1040, none), (bootCode + 0x1060, none)]

/-- The same with an initialised gauge as the object, and with a table all of whose rows other regions hold. -/
def bindG : State := { bindS with mem := memWrite bindS.mem (spadLoc 0 (2 ^ 63 + 64)) 16 (2 ^ 127 + 1) }
def heldRow (k : Nat) : BindEntry := ⟨0x9000, BitVec.ofNat 64 (0x8000 + 64 * k + 63), BitVec.ofNat 64 (0x8000 + 64 * k), 0⟩
def fullRows : List (Nat × Option BindEntry) := [0, 1, 2].map (fun k => (bootCode + 0x1020 + 32 * k, some (heldRow k)))
def bindFull : State := { bindS with mem := [0, 1, 2].foldl (fun m k => memWrite m (bootCode + 0x1020 + 32 * k) 32 (heldRow k).bits) bindS.mem }

theorem witness_BindInstruction :
    (bindNew.lo.toNat ≤ bindNew.hi.toNat ∧ ∃ after, bindResult bindNew bindRows = some after) ∧
    (∀ q ∈ [(bindS, bindRows), (bindG, bindRows), (bindFull, fullRows)], let s := q.1; let h := s.hr 5#5
      checkHandle 31#5 [kPlain] h = .ok () ∧ emptyHandle h = false ∧ s.layoutFor s.cur 31#5 h = .ok none ∧
      spanFits (hBase h) (spanOf h none) = true ∧
      s.bindEntries (s.tableAgent s.cur) (s.bindTable s.cur).1 (s.bindTable s.cur).2 = .ok q.2) ∧
    bindResult bindNew fullRows = none ∧
    (∀ after, bindResult bindNew bindRows = some after →
      bindG.bindWrites (bindG.tableAgent bindG.cur) (bindG.bindTable bindG.cur).1 0 bindRows after = .ok ()) ∧
    bindRows.Pairwise (fun p q => p.1 + 32 ≤ q.1 ∨ q.1 + 32 ≤ p.1) ∧
    (let gauge := spadLoc (clusterCore (coreOf bindG.cur) (ccoreOf (bindG.sr 4#5))) (bindG.sr 4#5).toNat
     let g := memRead bindG.mem gauge 16
     (∀ r ∈ bindRows, r.1 + 32 ≤ gauge ∨ gauge + 16 ≤ r.1) ∧ isLocal (bindG.sr 4#5) = true ∧ localOk (bindG.sr 4#5) = true ∧
     (bindG.sr 4#5).toNat % 16 = 0 ∧ bitsOf g 125 112 = 0 ∧ 1 ≤ g % 2 ^ 32 ∧ g % 2 ^ 32 < 2 ^ 30 ∧ g.testBit 127 = true) ∧
    isLocal ((setS bindS 4 0x40).sr 4#5) = false ∧
    emptyHandle 0 = true ∧ checkHandle 31#5 [kPlain] 0 = .ok () := by
  refine ⟨⟨by decide +kernel, ⟨_, rfl⟩⟩, ?_, by decide +kernel, ?_, by decide +kernel, by decide +kernel, by decide +kernel,
    by decide +kernel, ok_of (by decide +kernel)⟩
  · intro q hq
    simp only [List.mem_cons, List.not_mem_nil, or_false] at hq
    rcases hq with rfl | rfl | rfl <;>
      exact ⟨ok_of (by decide +kernel), by decide +kernel, ok_of (by decide +kernel), by decide +kernel, ok_of (by decide +kernel)⟩
  · rintro _ ⟨⟩
    exact ok_of (by decide +kernel)

/-- A state whose lock word at 0x100 holds a value. -/
def lockS (v : Nat) : State := { farS with mem := memWrite farS.mem (bootCode + 0x100) 8 v }

theorem witness_Locks : ∀ v ∈ [0, base.ownerValue 0, 5], (lockS v).lockAt ((lockS v).sr 4#5) = .ok (.far (far 0x100), v) ∧
    (lockS v).lockReady (.far (far 0x100)) ((lockS v).sr 4#5) = .ok () ∧ (lockS v).ownerValue 0 = base.ownerValue 0 ∧
    (lockS v).coveredDone 0 ((lockS v).sr 4#5) 4 = true ∧ base.ownerValue 0 ≠ 0 ∧ base.ownerValue 0 ≠ 5 := by
  intro v hv
  simp only [List.mem_cons, List.not_mem_nil, or_false] at hv
  rcases hv with rfl | rfl | rfl <;>
    exact ⟨ok_of (by decide +kernel), ok_of (by decide +kernel), by decide +kernel, by decide +kernel, by decide +kernel, by decide +kernel⟩

/-- The lock is the context's, and a store of its own to a region bound to the lock is not yet performed. -/
def lockHeld : State :=
  let s := lockS (base.ownerValue 0)
  { s with
    mem := memWrite (memWrite (memWrite s.mem (Config.polderBase + 40) 8 0x1000) (Config.polderBase + 48) 2 3) (bootCode + 0x1020) 32
      (⟨0x100, 0x1BF, 0x180, base.agent 0⟩ : BindEntry).bits
    stores := [⟨1, 0, 0x180, bootCode + 0x180, 8, 0, none, 0, [], none, 0⟩] }
theorem witness_Locks_covered : (lockHeld.lockAt (lockHeld.sr 4#5) = .ok (.far (far 0x100), lockHeld.ownerValue 0) ∧
    lockHeld.lockReady (.far (far 0x100)) (lockHeld.sr 4#5) = .ok ()) ∧
    (lockHeld.coveredDone 0 (lockHeld.sr 4#5) 4 = false) :=
  ⟨⟨ok_of (by decide +kernel), ok_of (by decide +kernel)⟩, by decide +kernel⟩

/-- A jump table at 0x100: one entry, 0x40, and the default 0x80. -/
def tableS (b : Nat) : State :=
  let s := setS farS 5 (BitVec.ofNat 64 b)
  { s with mem := memWrite (memWrite (memWrite s.mem (bootCode + 0x100) 8 1) (bootCode + 0x108) 8 0x80) (bootCode + 0x110) 8 0x40 }

theorem witness_ControlTransfers :
    (farS.sr 4#5).toNat % 4 = 0 ∧ (setS farS 4 2).sr 4#5 = 2#64 ∧ (∃ l, base.afterBundles base.cur 1 base.me.pc = .ok l) ∧
    ((tableS 0).tableRead ((tableS 0).sr 4#5) = .ok 1#64 ∧ (tableS 0).tableRead ((tableS 0).sr 4#5 + 16#64 + 8#64 * (tableS 0).sr 5#5) = .ok 0x40#64) ∧
    ((tableS 1).tableRead ((tableS 1).sr 4#5) = .ok 1#64 ∧ (tableS 1).tableRead ((tableS 1).sr 4#5 + 8#64) = .ok 0x80#64) ∧
    { Ctx.reset with xfer := some ⟨0x40#64, 0, true, none⟩ }.after = none ∧ Ctx.reset.edges = [] :=
  ⟨by decide +kernel, by decide +kernel, some_ok (by decide +kernel), ⟨ok_of (by decide +kernel), ok_of (by decide +kernel)⟩,
    ⟨ok_of (by decide +kernel), ok_of (by decide +kernel)⟩, rfl, rfl⟩

def votes : State := { base with ops := [flying 3 1 (.pset 2#5 0#1)] }

theorem witness_VotesAndStatus : (2#5).toNat < 8 ∧ (∃ o ∈ votes.ops, o.ctx = votes.cur ∧ o.engine = 1 ∧ predWritten o.instr = some 2#5) ∧
    ¬(∃ o ∈ votes.ops, o.ctx = votes.cur ∧ o.engine = 1 ∧ predWritten o.instr = some 3#5) ∧ (5#5).toNat < 6 ∧
    (fld 0x87482002#32 22 6 = 0x1D#6 ∧ fld 0x87482002#32 0 7 = 2#7 ∧ fld 0x87482002#32 7 5 = 0#5 ∧ (fld 0x87482002#32 12 5).toNat < 6) := by
  refine ⟨by decide, ⟨flying 3 1 (.pset 2#5 0#1), by simp [votes], rfl, rfl, rfl⟩, ?_, by decide, by decide⟩
  rintro ⟨o, ho, -, -, h⟩
  simp only [votes, List.mem_singleton] at ho
  subst ho
  exact absurd h (by decide)

/-- Level 2 active with a body of one bundle at 0. -/
def loopS (inh : Bool) (init : BitVec 32) : State := base.modMe (fun x =>
  { x.modLoop 2 (fun p => { p with active := inh, init := init }) with inh := inh })

theorem witness_Loops : (5#3).toNat < 6 ∧ (∀ l, l < 6 → (base.me.loop l).active = false) ∧
    (∃ a, base.afterBundles base.cur 1 base.me.pc = .ok a) ∧ ((loopS false 3).me.loop 2).init ≠ 0#32 ∧
    ((loopS true 0).me.loop 2).active = true ∧ (loopS true 0).me.inh = true ∧
    (∃ a, (loopS true 0).afterBundles 0 (((loopS true 0).me.loop 2).len.toNat + 1) ((loopS true 0).me.loop 2).start = .ok a) ∧
    (∃ a, (base.afterBundles base.cur ((0#8).toNat + 1) 0#64) = .ok a) ∧
    (∀ e ∈ [LoopEdge.advance 2, .finish 2], let x := { base.me with edges := [e] }
      x.owed = 0 ∧ x.xfer = none ∧ x.after = none ∧ x.preempt = .none ∧ x.edges = [e]) :=
  ⟨by decide, by decide +kernel, some_ok (by decide +kernel), by decide +kernel, by decide +kernel, by decide +kernel,
    some_ok (by decide +kernel), some_ok (by decide +kernel), by decide +kernel⟩

/-- The second bundle after a BRL lies on an unmapped page; the delay bundle after it is a NOP. -/
def edgeS : State :=
  let s := base.modMe (fun x => { x with pc := 0xFFFFFFFC })
  { s with mem := memWrite s.mem (bootCode + 0xFFFFFFFC) 4 0x87400000 }
/-- Eight NOPs from 0. -/
def nopsS : State :=
  { base with mem := (List.range 8).foldl (fun m k => memWrite m (bootCode + 4 * k) 4 0x87C00000) base.mem }
/-- Level 0 active with a body of four bundles from 0, at its second bundle; level 2 idle. -/
def nestS (init : BitVec 32) : State := nopsS.modMe (fun x =>
  { (x.modLoop 0 (fun p => { p with active := true, init := 5, len := 3 })).modLoop 2 (fun p => { p with init := init }) with pc := 4 })
/-- Levels 0 and 2 active, with bodies that end together at 16; level 0 has iterations left or has none. -/
def exitS (n : BitVec 32) : State := nopsS.modMe (fun x =>
  (x.modLoop 0 (fun p => { p with active := true, init := n, len := 3 })).modLoop 2 (fun p =>
    { p with active := true, init := 9, start := 8, len := 1 }))
def nopP : Parsed := ⟨[(.nop, true)], 0, none, 4, []⟩
def linkX : Ctx := { Ctx.reset with xfer := some ⟨0x40#64, 1, true, some 5#5⟩ }
def errs {α : Type} (c : Chk α) : Bool := !okSome c
theorem err_of {α : Type} {c : Chk α} (h : errs c = true) : ∃ e, c = .error e := by
  cases c with
  | ok b => simp [errs, okSome] at h
  | error e => exact ⟨e, rfl⟩

theorem witness_LinksAndNests :
    (∃ e, edgeS.afterBundles edgeS.cur ((1#2).toNat + 1) edgeS.me.pc = .error e) ∧
    (linkX.xfer = some ⟨0x40#64, 1, true, some 5#5⟩ ∧ ¬(5#5 ∈ nopP.on.flatMap scalarWrites)) ∧
    ((nestS 3).placeIn 0 0 (nestS 3).me.pc = some 1 ∧ ((nestS 3).me.loop 0).active = true ∧ 1 + ((1#8).toNat + 1) < 3 + 1 ∧
      3 + 1 ≤ 1 + ((2#8).toNat + 1) ∧ (∀ j, j < 6 → 2 ≤ j → ((nestS 3).me.loop j).active = false) ∧
      isOk ((nestS 3).afterBundles 0 1 (nestS 3).me.pc) 8 = true ∧ ((nestS 0).me.loop 2).init = 0#32 ∧
      isOk ((nestS 0).afterBundles 0 ((1#8).toNat + 1) 8) 16 = true) ∧
    (∀ s ∈ [exitS 1, exitS 5], (s.me.loop 2).active = true ∧ isOk (s.afterBundles 0 2 8) 16 = true ∧
      (s.me.loop 0).active = true ∧ isOk (s.afterBundles 0 4 0) 16 = true) ∧
    (let x := { base.me with edges := [.finish 2, .goto 16#64] }; x.owed = 0 ∧ x.xfer = none ∧ x.edges = [.finish 2, .goto 16#64]) := by
  refine ⟨err_of (by decide +kernel), by decide +kernel, by decide +kernel, by decide +kernel, by decide +kernel⟩

/-- A collective in flight. -/
def going : Coll := ⟨3, 0, 1, 0, [], Ctx.reset.eng.copy, none, [0], 0, 0, [], [], [], [], none, none, false, 0, false, [], [], [], 0⟩
def userS : State := base.modMe (fun x => { x with mode := .user })
def withHandler : State := { base with mem := memWrite base.mem (Config.polderBase + 32) 8 0x400 }
def handling : State := withHandler.modMe (fun x => { x with inh := true })

theorem witness_SystemAndBreakWords : base.me.mode = .supervisor ∧ (5#12 : BitVec 12) ≠ 0#12 ∧ (∀ f ∈ base.me.faults, f.engine ≠ 5) ∧
    (∃ o ∈ { base with colls := [going] }.colls, o.ctx = base.cur ∧ o.done = false) ∧
    (∀ o ∈ base.colls, o.ctx = base.cur → o.done = true) ∧ base.me.inh = false ∧ base.me.ending = .none :=
  ⟨by decide +kernel, by decide, by decide +kernel, ⟨going, by simp, by decide +kernel, rfl⟩, by decide +kernel, by decide +kernel,
    by decide +kernel⟩

theorem witness_PrivilegedWords : userS.me.mode = .user ∧ csrOk 0x120 = true ∧ csrSupervisor 0x120 = true ∧
    base.me.mode = .supervisor ∧ 4096 ≤ ((setS base 3 0x1000).sr 3#5).toNat ∧ (base.sr 3#5).toNat < 4096 ∧ base.loads = [] ∧
    base.stores = [] ∧ base.ops = [] ∧ (∀ o ∈ base.colls, o.done = true) ∧
    ¬({ base with stores := [⟨1, 0, 0x100, 0, 8, 0, none, 0, [], none, 0⟩] }.loads = [] ∧
      { base with stores := [⟨1, 0, 0x100, 0, 8, 0, none, 0, [], none, 0⟩] }.stores = []) := by decide +kernel

theorem witness_TrapsTaken : cAlign ≠ cRecompute ∧ cAlign ≠ cBreak ∧ withHandler.handlerOf 0 ≠ 0#64 ∧ (withHandler.ctx 0).inh = false ∧
    (handling.ctx 0).inh = true ∧ base.launchOf 0 = some bootLaunch ∧ bootLaunch.consumer = none ∧ base.handlerOf 0 = 0#64 := by
  decide +kernel

theorem witness_TrapReturn : handling.me.mode = .supervisor ∧ handling.me.inh = true ∧ base.me.mode = .supervisor ∧
    base.me.inh = false ∧ (let x := { Ctx.reset with xfer := some ⟨0x40#64, 3, true, none⟩ }
      x.inh = false ∧ x.held = none ∧ x.killPoint = false ∧ x.blocked = false ∧ x.waitFrom = none ∧ x.bypass = [] ∧
      x.xfer = some ⟨0x40#64, 3, true, none⟩) := by decide +kernel

/-- An access under way that a TLBI names: a store of the page at 0x100 by a context of address space 0. -/
def underwayS : State := { setS base 3 0x100 with stores := [⟨1, 0, 0x100, 0, 8, 0, none, 0, [], none, 0⟩] }
theorem witness_TranslationInvalidate :
    (∃ w ∈ underwayS.stores, underwayS.asidOf w.ctx = underwayS.asidOf underwayS.cur ∧
      w.addr.toNat / 2 ^ 32 = (underwayS.sr 3#5).toNat / 2 ^ 32) ∧
    ((underwayS.walk (underwayS.asidOf underwayS.cur) (underwayS.sr 3#5)).map (·.shift) = some 32 ∧
      underwayS.asidOf 0 ≠ (0x100#64 : Word).toNat ∧ underwayS.stores ≠ []) := by decide +kernel

/-- The boot launch runs from an entry of a queue that notifies; a launch of another domain runs beside it. -/
def domainS : State :=
  { base with
    launches := [{ bootLaunch with queue := some (0, 0x200000040) }, { bootLaunch with id := 9, fdom := 3 }]
    queues := [(0, { Queue.reset with ien := true, en := true })], saved := [⟨0, 1, [], []⟩] }
theorem witness_DomainStop : (domainS.launches.map (·.id)).Nodup ∧ (domainS.ctxs.map (·.1)).Nodup ∧
    (∀ l ∈ domainS.launches, l.id = 0 → l.fdom = 0 ∧ l.failed = false ∧ ((domainS.ctx 0).task.map (·.launch)) = some l.id ∧
      l.queue = some (0, 0x200000040)) ∧ (∃ l ∈ domainS.launches, l.fdom ≠ 0) ∧ (domainS.queue 0).ien = true ∧
    (∀ g ∈ domainS.saved, g.launch = 0 ∧ ∀ x ∈ g.ctxs, x.copies = []) := by decide +kernel

/-- A load of context 0 into register 6. -/
def loadOf (k : LoadKind) (bad : Bool) : PendLoad := ⟨7, 0, .scalar, 6#5, k, 0x108, 0, bad, none, 0⟩
def loadS (l : PendLoad) : State := State.modCtx { farS with loads := [l] } 0 (fun x => x.claim .scalar 6#5)

theorem witness_LoadsReturn :
    (∀ l ∈ [loadOf (.mem (bootCode + 0x108) 4 true) false, loadOf (.value 5) false, loadOf (.handle 5 (bootCode + 0x100)) false,
        loadOf (.atomic 0 (bootCode + 0x108) 8 5 0) false],
      (loadS l).loads.find? (fun k => k.id == l.id) = some l ∧ (loadS l).mayReturn l = true ∧ (loadS l).loadError l = false ∧
      l.kind ≠ .arrival ∧ l.reg ≠ 0#5) ∧
    (let l := loadOf (.mem (bootCode + 0x108) 4 true) true;
      (loadS l).loads.find? (fun k => k.id == l.id) = some l ∧ (loadS l).mayReturn l = true ∧ (loadS l).loadError l = true ∧
      ((loadS l).ctx 0).busy .scalar 6#5 = true) := by decide +kernel

def storeOf : PendStore := ⟨3, 0, 0x108, bootCode + 0x108, 8, 77, none, 0, [], none, 0⟩

theorem witness_ScalarStores : nearS.nearFree (nearS.sr 4#5 + ((0#10).signExtend 64 <<< 5)) 32 ∧
    farS.farFree .write false (farS.sr 4#5 + ((1#10).signExtend 64 <<< 5)) 32 (far 0x120) ∧ farS.checks (far 0x120).leaf = false ∧
    ∀ w ∈ [storeOf, { storeOf with level := 2 }, { storeOf with level := 3 }],
      { base with stores := [w] }.stores.find? (fun v => v.id == w.id) = some w ∧ { base with stores := [w] }.mayPerform w = true :=
  ⟨nearFree_of (by decide +kernel), farFree_of (by decide +kernel), by decide +kernel, by decide +kernel⟩

def oddS : State := setS base 4 (near 1)
theorem witness_MisalignedAccessTraps : (oddS.sr 4#5 + ((0#10).signExtend 64 <<< 1)).toNat % 2 ^ 1 ≠ 0 ∧ (oddS.sr 4#5).toNat % 4 ≠ 0 := by
  decide +kernel

theorem witness_Atomics : nearS.nearFree (nearS.sr 4#5) 8 ∧ nearS.poisoned (spadLoc 0 (nearS.sr 4#5).toNat) 8 = false ∧
    farS.farFree .write true (farS.sr 4#5) 8 (far 0x100) ∧ (far 0x100).loc / 2 ^ 50 ≠ 2 ∧ farS.checks (far 0x100).leaf = false :=
  ⟨nearFree_of (by decide +kernel), by decide +kernel, farFree_of (by decide +kernel), by decide +kernel, by decide +kernel⟩

/-- A tensor table of three records at 0x1000, entry 2 named by register 5. -/
def tensorS : State :=
  let s := setS (setS base 4 0x200) 5 2
  { s with mem := memWrite (memWrite s.mem (Config.polderBase + 50) 2 3) (Config.polderBase + 64) 8 0x1000 }
/-- Handles in scratchpad at 64 (TREC 0) and 96 (TREC 2), and the record dropped. -/
def droppedS : State :=
  let s := setS tensorS 4 (near 64)
  { s with mem := memWrite (memWrite s.mem (spadLoc 0 (2 ^ 63 + 96)) 32 (2 * 2 ^ 216)) (bootCode + 0x1080 + 48) 1 1 }

theorem witness_HandleLoadAndDrop :
    (droppedS.me.boundBy 6#5 = none ∧ droppedS.nearFree (droppedS.sr 4#5 + ((1#10).signExtend 64 <<< 5)) 32 ∧
      droppedS.poisoned (spadLoc 0 (2 ^ 63 + 96)) 32 = false ∧
      droppedS.olderLoad 0 droppedS.seq (spadLoc 0 (2 ^ 63 + 96)) 32 = false ∧
      (let raw := BitVec.ofNat 256 (droppedS.view 0 droppedS.seq (spadLoc 0 (2 ^ 63 + 96)) 32);
        (∃ r, droppedS.hldValue raw = .ok r) ∧ hTrec raw ≠ 0 ∧ ∃ r, droppedS.recordAt 0 (droppedS.tensorAddr 0 (hTrec raw)) = .ok r)) ∧
    (farS.me.boundBy 6#5 = none ∧ farS.farFree .read false (farS.sr 4#5 + ((1#10).signExtend 64 <<< 5)) 32 (far 0x120) ∧
      farS.olderLoad 0 farS.seq (far 0x120).loc 32 = false ∧
      (∃ v, farS.hldValue (BitVec.ofNat 256 (farS.view 0 farS.seq (far 0x120).loc 32)) = .ok (v, none))) ∧
    (isLocal (tensorS.sr 4#5) = false ∧ (tensorS.sr 4#5).toNat % 64 = 0 ∧ 1 ≤ (tensorS.sr 5#5).toNat ∧
      (tensorS.sr 5#5).toNat ≤ tensorS.effField 8 (tensorS.polderOf 0) 50 2 ∧
      tensorS.globalAt (tensorS.tableAgent 0) .write (tensorS.tensorAddr 0 (tensorS.sr 5#5).toNat) = .ok (far 0x1080) ∧
      tensorS.raceTrap 0 { far 0x1080 with loc := (far 0x1080).loc + 40 } (tensorS.tensorAddr 0 (tensorS.sr 5#5).toNat + 40#64) true
        false = .ok ()) :=
  ⟨⟨by decide +kernel, nearFree_of (by decide +kernel), by decide +kernel, by decide +kernel, some_ok (by decide +kernel),
      by decide +kernel, some_ok (by decide +kernel)⟩,
    ⟨by decide +kernel, farFree_of (by decide +kernel), by decide +kernel, ⟨_, ok_of (a := (0, none)) (by decide +kernel)⟩⟩,
    ⟨by decide +kernel, by decide +kernel, by decide +kernel, by decide +kernel, ok_of (by decide +kernel),
      ok_of (by decide +kernel)⟩⟩

theorem witness_ControlRegisters : csrOk 0x420 = true ∧ csrOk 0x003 = false ∧ base.me.mode = .supervisor ∧ userS.me.mode = .user := by decide

def namingS (a : Nat) : State := setS base 4 (BitVec.ofNat 64 a)
/-- The one core of a part of one cube with one mapped core is under test; a launch above the test's priority waits. -/
def testedS : State :=
  { base with
    part := { base.part with cubes := 1 }, ctxs := [],
    cubes := [(0, { Cube.reset with
      cmap := (List.range 95).map (fun k => (k + 1, none)), fieldTest := some ⟨0, 0#8, 1, some 0⟩ })],
    launches := [{ bootLaunch with id := 4, prio := 2, nextGroup := 0, begun := 2, addrs := [0x100000000000#64] }], waiting := [4], time := 200000 }
def drainS : State := { base with cubes := [(0, { Cube.reset with fieldTest := some ⟨5, 5#8, 1, none⟩ })] }
def persistS : State := { base with rontal := { base.rontal with persist := [(0, 0x0503#16)] } }

theorem witness_FieldTestsAndCoreMap :
    (((namingS 5).sr 4#5).toNat = 5 ∧ (namingS 5).mapped 0 5 = some 5 ∧ ((namingS 5).cube 0).withdrawn = false ∧
      ((namingS 5).cube 0).fieldTest = none ∧ 5 ≠ coreOf (namingS 5).cur) ∧
    ((namingS 0).mapped 0 0 = some (coreOf (namingS 0).cur)) ∧ 256 ≤ ((namingS 300).sr 4#5).toNat ∧
    ((drainS.cube 0).fieldTest = some ⟨5, 5#8, 1, none⟩ ∧ drainS.emptyCore 5 = true) ∧
    ((testedS.cube 0).fieldTest = some ⟨0, 0#8, 1, some 0⟩ ∧ 0 + 200000 ≤ testedS.time ∧
      testedS.displaces ⟨0, 0#8, 1, some 0⟩ = true) ∧
    (((namingS 0x8503).sr 4#5).toNat = 0x8503 ∧ ((namingS 0x0303).sr 4#5).toNat = 0x303 ∧ (namingS 0x0303).heldElsewhere 0 3 3 = false) ∧
    persistS.rontal.persist = (0, 0x0503#16) :: [] := by decide +kernel

/-- A layout table at 0x3000 whose entry 1 describes tiles of 4 by 4. -/
def layoutS : State :=
  { setS (setH base 4 (plain 0x2000 0 8 8 32 ||| (1#256 <<< 208))) 5 0x10002 with
    mem := memWrite (memWrite base.mem (Config.polderBase + 56) 8 0x3000) (bootCode + 0x3040) 16
      (1 + 4 * 2 ^ 32 + 4 * 2 ^ 48 + 64 * 2 ^ 64 + 128 * 2 ^ 96) }
def theLayout : Layout := ⟨4, 4, 64, 128, false⟩
def layoutRec : BitVec 512 := BitVec.ofNat 512 (1 + 4 * 2 ^ 32 + 4 * 2 ^ 48 + 64 * 2 ^ 64 + 128 * 2 ^ 96)
def layoutGot : Chk (Option (Layout × Nat × BitVec 512)) := layoutS.layoutFor 0 31#5 (layoutS.hr 4#5)
def boundS : State := base.modMe (fun x => { x with binds := x.binds.set 1 ⟨0, 0, 0, 6#5, true⟩ })

theorem witness_HandlesAndAddresses :
    base.me.boundBy 6#5 = none ∧ boundS.me.boundBy 6#5 ≠ none ∧ (0x12#12).toNat ≤ 0x12 ∧ (0x23#12).toNat ≤ 0x23 ∧
    ((setS base 4 1).sr 4#5).toNat / 2 ^ 61 = 0 ∧ ((setS base 4 (1#64 <<< 61)).sr 4#5).toNat / 2 ^ 61 ≠ 0 ∧
    hLrec (0 : Handle) = 0 ∧ hLrec (layoutS.hr 4#5) ≠ 0 ∧
    (∀ k, k < 4 → (layoutS.sr 5#5).toNat / 2 ^ (16 * k) % 2 ^ 16 < hExt (layoutS.hr 4#5) k) ∧
    layoutGot = .ok (some (theLayout, (far 0x3040).loc, layoutRec)) ∧
    fmtBits (hFmt (0 : Handle)) = some 32 ∧ ¬(∀ k, k < 4 → (layoutS.sr 5#5).toNat / 2 ^ (16 * k) % 2 ^ 16 < hExt (0 : Handle) k) :=
  ⟨by decide +kernel, by decide +kernel, by decide, by decide, by decide +kernel, by decide +kernel, by decide +kernel,
    by decide +kernel, by decide +kernel, ok_of (by decide +kernel), by decide +kernel, by decide +kernel⟩

/-- Physical core 5 stays under logical number 5 of the map. -/
theorem witness_CoreHeldElsewhere : (namingS 0x0503).me.mode = .supervisor ∧ ((namingS 0x0503).sr 4#5).toNat / 2 ^ 15 % 2 = 0 ∧
    ((namingS 0x0503).sr 4#5).toNat / 2 ^ 8 % 128 = 5 ∧ (5 ≤ 95 ∧ 5 ≠ ((namingS 0x0503).sr 4#5).toNat % 128) ∧
    (namingS 0x0503).mapped 0 5 = some 5 ∧ (∀ m, m ≤ 95 → m ≠ 3 → (namingS 0x0303).mapped 0 m ≠ some 3) := by decide +kernel

/-- A ring of 3 slots of 4 by 2 elements at near 128, in h6, and a loaded schedule of one entry that fills it. -/
def ringH (kind : Nat) : Handle := plain (near 128) 0 4 2 16 + BitVec.ofNat 256 (kind * 2 ^ 204 + 3 * 2 ^ 232 + 64 * 2 ^ 176)
def entry0 (next : Nat) : SchedEntry := ⟨plain 0x2000 0 4 2 16, 0x20#64, 5#32, 0#16, 0#64, next⟩
def schedS (next : Nat) : State := (setH base 6 (ringH 1)).modMe (fun x =>
  { x with eng := { x.eng with copy := { x.eng.copy with sched := [entry0 next] } } })
/-- The same, bound to the entry. -/
def streamS (next : Nat) : State := (setH (schedS next) 6 (ringH 2)).modMe (fun x =>
  { x with binds := x.binds.set 1 ⟨0#32, 0#32, 0#16, 6#5, true⟩ })
def iterationArgs0 : Chk (List Arg × Nat) := (streamS 0).iterationArgs 0 (entry0 0) ⟨0#32, 0#32, 0#16, 6#5, true⟩
/-- The stream's iteration 0 in flight. -/
def iterating : State :=
  match execScheduleIterationStart 0 0 (streamS 0) with
  | .next t => t
  | _ => base
def iteration0 : Op := (iterating.ops.head?).getD (flying 0 0 .nop)

/-- A module with the fabric and one without, and a context with a fault of a collective. -/
def collFault : EngFault := ⟨5, cMemberSilent, 0#8, 7#32, 0#64, none⟩
def faultyS (f : EngFault) : State := base.modMe (fun x => { x with faults := [f] })

theorem witness_EngineRegisters : engineReg 0 31 = true ∧ engineReg 6 0 = false ∧ engineReg 4 8 = true ∧ base.part.fabric = true ∧
    { base with part := { base.part with fabric := false } }.part.fabric = false ∧ (∀ f ∈ base.me.faults, f.engine ≠ 5) ∧
    (faultyS collFault).me.faults.find? (fun f => f.engine == 5) = some collFault := by decide

/-- The context's store has reached a scope and no wider. -/
def storingS (l : Nat) : State := { base with stores := [{ storeOf with level := l }] }

theorem witness_FencesAndDrains :
    ((∀ l ∈ base.loads, l.ctx ≠ base.cur) ∧ (∀ w ∈ base.stores, w.ctx ≠ base.cur) ∧ (∀ o ∈ base.ops, o.ctx ≠ base.cur) ∧
      ∀ o ∈ base.colls, o.ctx ≠ base.cur) ∧
    ((∃ l ∈ { base with loads := [loadOf (.value 1) false] }.loads, l.ctx = base.cur) ∧
      (∃ w ∈ (storingS 1).stores, w.ctx = (storingS 1).cur ∧ ¬(2 ≤ w.level)) ∧ (∀ w ∈ (storingS 1).stores, 1 ≤ w.level) ∧
      ∃ o ∈ votes.ops, o.ctx = votes.cur ∧ o.entry = none ∧ o.exposed = false) ∧
    (let waited := fun (f : EngFault) => f.engine == 5 && !(base.me.inh && f.cause == cMemberSilent)
     base.me.faults.find? waited = none ∧ (faultyS collFault).me.faults.find? waited = some collFault) := by
  refine ⟨by decide +kernel, ⟨⟨_, List.mem_singleton_self _, by decide +kernel⟩, ⟨_, List.mem_singleton_self _, by decide +kernel⟩,
    by decide +kernel, ⟨_, List.mem_singleton_self _, by decide +kernel⟩⟩, by decide +kernel⟩

/-- What SBIND takes as ready: the ring's form, layout and bytes. -/
def ringReady (s : State) (loc : Nat) : Bool :=
  let h := s.hr 6#5
  decide (handleOk h = true ∧ hKind h = kRing ∧ isLocal (hBase h) = true ∧ hW h = false ∧ hD h = false ∧ hExt h 3 = 1 ∧
    (hBase h).toNat % 64 = 0) && isOk (s.layoutFor s.cur eCopy h) none &&
    isOk (s.localAt s.cur (coreOf s.cur) (hBase h) (ringSpan h none)) loc
def ring0 : Nat := spadLoc 0 (near 128).toNat
/-- A vector operation of another context holds the ring's control word. -/
def ringBusyS : State := { schedS 2 with ops := [{ flying 3 1 (.pset 2#5 0#1) with ctx := 1, ranges := [(ring0, 16)] }] }

theorem witness_StreamBindings :
    ((streamS 0).me.boundBy 6#5 = some 1 ∧ 0 ≤ seqDiff 1#32 ((streamS 0).me.binding 1).headSeq ∧
      seqDiff 0xFFFFFFFF#32 ((streamS 0).me.binding 1).headSeq < 0 ∧ (schedS 0).me.boundBy 6#5 = none) ∧
    ((schedS 0).sr 5#5 ≠ 1#64 <<< 63 ∧ hKind (base.hr 6#5) ≠ kRing) ∧
    (∀ s ∈ [schedS 2, ringBusyS, setS (schedS 2) 5 1], ringReady s ring0 = true ∧ (s.sr 5#5).toNat < 64) ∧
    ¬((setS (schedS 2) 5 1).sr 5#5).toNat < (setS (schedS 2) 5 1).me.eng.copy.sched.length ∧
    (setS (schedS 2) 5 1).me.eng.copy.sched[1]? = none ∧
    (∀ s ∈ [schedS 2, ringBusyS], let h := s.hr 6#5
      s.me.eng.copy.sched[(s.sr 5#5).toNat]? = some (entry0 2) ∧ (s.sr 5#5).toNat < s.me.eng.copy.sched.length ∧
      (s.me.binding 1).bound = false ∧ (∀ m, m < 8 → (s.me.binding m).bound = true → (s.me.binding m).sched.toNat ≠ 0) ∧
      hFmt h = hFmt (entry0 2).pat ∧ hExt (entry0 2).pat 3 = 1 ∧ ∀ k, k < 3 → hExt h k = hExt (entry0 2).pat k) ∧
    (schedS 2).rangeBusy 0 (some 4) ring0 16 = false ∧ ringBusyS.rangeBusy 0 (some 4) ring0 16 = true ∧
    ((setS (streamS 0) 5 (1#64 <<< 63)).sr 5#5 = 1#64 <<< 63 ∧ ((streamS 0).me.binding 1).bound = true ∧
      ((streamS 0).me.binding 2).bound = false ∧ 8 ≤ (9#5).toNat ∧
      (streamS 0).iterations (streamS 0).cur ((streamS 0).me.binding 1).sched.toNat = [] ∧
      ∀ m, m < 8 → m ≠ 1 → ((streamS 0).me.binding m).bound = false) := by decide +kernel

/-- A schedule of one entry at 0x1000, one whose count is 0, and one in scratchpad. -/
def tableOfOne : State :=
  { setS base 4 0x1000 with mem := memWrite base.mem (bootCode + 0x1000) 1 1 }
def nearTable : State :=
  { setS base 4 (near 0x1000) with mem := memWrite base.mem (spadLoc 0 (near 0x1000).toNat) 1 1 }
def haltedS : State := (setS base 4 0).modMe (fun x => { x with eng := { x.eng with copy := { x.eng.copy with halt := true } } })

/-- A stream of rows of eight elements, with a gauge at near 0x400 or none, and its iteration 0 in flight. -/
def rowEntry (gauge : Word) : SchedEntry := ⟨plain (near 0x800) 0 8 1 32, 0x20#64, 5#32, 0#16, gauge, 0⟩
def rowBinding : Binding := ⟨0#32, 0#32, 0#16, 6#5, true⟩
def rowStream (gauge : Word) : State :=
  let s := (setH base 6 (plain (near 128) 0 8 1 32 + BitVec.ofNat 256 (2 * 2 ^ 204 + 3 * 2 ^ 232 + 64 * 2 ^ 176))).modMe (fun x =>
    { x with binds := x.binds.set 1 rowBinding
             eng := { x.eng with copy := { x.eng.copy with sched := [rowEntry gauge] } } })
  { s with mem := memWrite s.mem (spadLoc 0 (near 0x400).toNat) 16 (2 ^ 127 + 32) }
def rowArgs (gauge : Word) : Chk (List Arg × Nat) := (rowStream gauge).iterationArgs 0 (rowEntry gauge) rowBinding
def rowMoving (gauge : Word) : State := event (execScheduleIterationStart 0 0 (rowStream gauge)) base
def rowOp (gauge : Word) : Op := lastOp (rowMoving gauge)

theorem witness_Schedules_words :
    ((tableOfOne.sr 4#5).toNat % 64 = 0 ∧ (∀ k, k < 2 → isLocal (tableOfOne.sr 4#5 + BitVec.ofNat 64 (64 * k)) = false ∧
        isOk (tableOfOne.globalAt (tableOfOne.agentOf 0) .read (tableOfOne.sr 4#5 + BitVec.ofNat 64 (64 * k))) (far (0x1000 + 64 * k)) = true ∧
        tableOfOne.poisoned (far (0x1000 + 64 * k)).loc 64 = false) ∧
      tableOfOne.view 0 tableOfOne.seq (far 0x1000).loc 64 % 2 ^ 32 = 1 ∧
      (∀ m, m < 8 → (tableOfOne.me.binding m).bound = false) ∧ isOk (tableOfOne.schedReady (tableOfOne.sr 4#5) 1) () = true) ∧
    ((∀ k, k < 2 → isLocal (nearTable.sr 4#5 + BitVec.ofNat 64 (64 * k)) = true ∧
        isOk (nearTable.localAt 0 0 (nearTable.sr 4#5 + BitVec.ofNat 64 (64 * k)) 64) (spadLoc 0 (near (0x1000 + 64 * k)).toNat) = true ∧
        nearTable.poisoned (spadLoc 0 (near (0x1000 + 64 * k)).toNat) 64 = false) ∧
      memRead nearTable.mem (spadLoc 0 (near 0x1000).toNat) 64 % 2 ^ 32 = 1 ∧ isOk (nearTable.schedReady (nearTable.sr 4#5) 1) () = true) ∧
    ((setS base 4 0x1000).view 0 base.seq (far 0x1000).loc 64 % 2 ^ 32 = 0 ∧
      isOk ((setS base 4 0x1000).globalAt (base.agentOf 0) .read ((setS base 4 0x1000).sr 4#5)) (far 0x1000) = true) ∧
    ((setS base 4 1).sr 4#5).toNat % 64 ≠ 0 ∧
    (haltedS.me.eng.copy.halt = true ∧ (haltedS.sr 4#5).toNat % 64 = haltedS.me.eng.copy.hentry.toNat) ∧
    base.me.eng.copy.halt = false := by decide +kernel

theorem witness_Schedules : ∀ gauge ∈ [0#64, near 0x400],
    (let s := rowStream gauge; let e := rowEntry gauge; let h := (s.ctx 0).hreg rowBinding.hreg
      (s.ctx 0).eng.copy.sched[0]? = some e ∧ (s.ctx 0).fedBy 0 = some rowBinding ∧ (s.ctx 0).task ≠ none ∧
      (s.ctx 0).eng.copy.halt = false ∧ e.stage.toNat ≤ (s.ctx 0).eng.copy.stage.toNat ∧ e.next < e.iters.toNat ∧
      seqDiff rowBinding.fillSeq rowBinding.headSeq < hDepth h ∧ seqDiff (BitVec.ofNat 32 e.next) rowBinding.headSeq < hDepth h ∧
      okWith (rowArgs gauge) (fun r => (r.1.flatMap (·.ranges)).all (fun x => !s.rangeHeld 0 (some 4) x.1 x.2) &&
        decide (s.rangesUsed 0 + (r.1.flatMap (·.ranges)).length ≤ 64)) = true) ∧
    (let s := rowMoving gauge; let o := rowOp gauge
      s.ops.find? (fun p => p.id == o.id && p.engine == 4 && p.entry.isSome) = some o ∧ s.copyBehind o = false ∧
      (∀ p ∈ s.iterations o.ctx (o.entry.getD 0), o.iter ≤ p.iter) ∧ s.badSource o = none ∧ s.feeds o = some 1 ∧
      o.slot = some (ring0, 0#32) ∧ o.data = none ∧ rowOk (o.arg 1) 8 4 = true ∧ rowOk (o.destAt o.core) 8 4 = true ∧
      ring0 + 16 ≤ spadLoc (o.destAt o.core).core (o.destAt o.core).base.toNat ∧
      o.aux = (if gauge = 0#64 then 0#64 else 1#64)) ∧
    (let s := rowMoving (near 0x400); let o := rowOp (near 0x400); let g := spadLoc o.core o.val.toNat
     let at_ := spadLoc (o.destAt o.core).core (o.destAt o.core).base.toNat
     ((s.gaugeAt g).count 32).2 = false ∧ overlaps g 16 at_ 32 = false ∧ overlaps g 16 (ring0 + 4) 4 = false) := by
  intro g hg
  simp only [List.mem_cons, List.not_mem_nil, or_false] at hg
  rcases hg with rfl | rfl <;> decide +kernel

/-- Rows of n elements of a format: h4 at near 0x400, h5 at 0x800, h6 at 0xC00, and 4-byte rows in h7 and h8. -/
def rowsS (fmt n : Nat) : State :=
  let q := BitVec.ofNat 256 (if fmt = 4 ∨ fmt = 5 then 2 ^ 244 + 8 * 2 ^ 248 else 0)
  setH (setH (setH (setH (setH base 4 (plain (near 0x400) fmt n 1 0 ||| q)) 5 (plain (near 0x800) fmt n 1 0 ||| q)) 6
    (plain (near 0xC00) fmt n 1 0 ||| q)) 7 (plain (near 0x1000) 8 n 1 0)) 8 (plain (near 0x1400) 8 n 1 0)
theorem operand_of {s : State} {eng : Nat} {r : BitVec 5} {fmt e0 e1 : Nat}
    (h : (handleOk (s.hr r) && hKind (s.hr r) == kPlain && hFmt (s.hr r) == fmt && hLrec (s.hr r) == 0 && !hD (s.hr r) &&
      !hW (s.hr r) && isLocal (hBase (s.hr r)) && handleAligned (s.hr r) && decide (extents (s.hr r) = (e0, e1, 1, 1)) &&
      decide (1 ≤ e0) && decide (1 ≤ e1) && isOk (s.localAt s.cur (coreOf s.cur) (hBase (s.hr r)) (spanOf (s.hr r) none))
        (spadLoc (coreOf s.cur) (hBase (s.hr r)).toNat) &&
      !s.rangeBusy (coreOf s.cur) (some eng) (spadLoc (coreOf s.cur) (hBase (s.hr r)).toNat) (spanOf (s.hr r) none)) = true) :
    s.operand eng r fmt e0 e1 := by
  simp only [Bool.and_eq_true, beq_iff_eq, Bool.not_eq_true', decide_eq_true_eq] at h
  obtain ⟨⟨⟨⟨⟨⟨⟨⟨⟨⟨⟨⟨a, b⟩, c⟩, d⟩, e⟩, f⟩, g⟩, i⟩, j⟩, k⟩, l⟩, m⟩, n⟩ := h
  exact ⟨a, b, c, d, e, f, g, i, j, k, l, ok_of m, n⟩

theorem witness_VectorWordsIssue : bitsOf (rowsS 0 8).me.eng.vcfg.toNat 5 4 = 0 ∧ (rowsS 0 8).rangesUsed (coreOf (rowsS 0 8).cur) ≤ 60 ∧
    (∀ r ∈ [4#5, 5#5, 6#5], (rowsS 0 8).operand 1 r 0 8 1) ∧ (rowsS 0 8).operand 1 7#5 8 8 1 ∧ fpMatch 0#2 0 = true ∧
    ((rowsS 8 8).operand 1 4#5 8 8 1 ∧ (rowsS 8 8).operand 1 5#5 8 8 1 ∧ (rowsS 8 8).operand 1 6#5 8 8 1 ∧ intMatch 0#2 8 = true) ∧
    converts 0 0 = true ∧
    (let s := setH (rowsS 4 8) 5 (plain (near 0x800) 0 8 1 0);
      s.operand 1 5#5 0 8 1 ∧ s.operand 1 4#5 4 8 1 ∧ s.operand 1 (hScale (s.hr 4#5)) 8 8 1) := by
  refine ⟨by decide +kernel, by decide +kernel, ?_, operand_of (by decide +kernel), by decide,
    ⟨operand_of (by decide +kernel), operand_of (by decide +kernel), operand_of (by decide +kernel), by decide⟩, by decide,
    operand_of (by decide +kernel), operand_of (by decide +kernel), operand_of (by decide +kernel)⟩
  intro r hr
  simp only [List.mem_cons, List.not_mem_nil, or_false] at hr
  rcases hr with rfl | rfl | rfl <;> exact operand_of (by decide +kernel)

def addS : State := after (.vaddFp 4#5 5#5 6#5 0#2 0#1) (rowsS 0 8)
def notS : State := after (.pnot 2#5 1#5 0#1) base

/-- A compare, a reduction and a scatter of INT32 rows; the second index of the scatter names the same element as the first. -/
def cmpS : State := after (.vcmpLt 2#5 5#5 6#5 3#2 0#1) (rowsS 8 8)
def sumS : State := after (.vrsum 4#5 5#5 3#2 0#1) (rowsS 8 8)
def scatterS : State := after (.vscatter 4#5 5#5 7#5 0#1)
  { rowsS 0 8 with mem := memWrite (rowsS 0 8).mem (spadLoc 0 (near 0x1000).toNat) 8 (3 + 3 * 2 ^ 32) }

theorem witness_VectorOperationsComplete :
    (∀ q ∈ [(addS, Instr.vaddFp 4#5 5#5 6#5 0#2 0#1), (notS, .pnot 2#5 1#5 0#1), (cmpS, .vcmpLt 2#5 5#5 6#5 3#2 0#1),
        (sumS, .vrsum 4#5 5#5 3#2 0#1), (scatterS, .vscatter 4#5 5#5 7#5 0#1)], let s := q.1; let o := lastOp s
      s.ready? 1 o.id = some o ∧ o.pops = [] ∧ o.chainOut = none ∧ s.poison = [] ∧ o.instr = q.2) ∧
    ((lastOp addS).arg 0).isRow 8 4 ∧ predWritten (lastOp addS).instr = none ∧
    (extents ((lastOp cmpS).arg 1).h = (8, 1, 1, 1) ∧ extents ((lastOp cmpS).arg 2).h = (8, 1, 1, 1) ∧ hFmt ((lastOp cmpS).arg 1).h = 8) ∧
    (extents ((lastOp sumS).arg 1).h = (8, 1, 1, 1) ∧ hFmt ((lastOp sumS).arg 1).h = 8 ∧ ((lastOp sumS).arg 0).isRow 8 4) ∧
    (((lastOp scatterS).arg 0).isRow 8 4 ∧ ((lastOp scatterS).arg 1).isRow 8 4 ∧ extents ((lastOp scatterS).arg 2).h = (8, 1, 1, 1) ∧
      scatterS.element ((lastOp scatterS).arg 2) ⟨1, 0, 0, 0⟩ = 3 ∧ ∀ j, j < 8 → 1 < j →
        scatterS.element ((lastOp scatterS).arg 2) ⟨j, 0, 0, 0⟩ ≠ 3) :=
  ⟨by decide +kernel, isRow_of (by decide +kernel), by decide +kernel, by decide +kernel,
    ⟨by decide +kernel, by decide +kernel, isRow_of (by decide +kernel)⟩, isRow_of (by decide +kernel), isRow_of (by decide +kernel),
    by decide +kernel⟩

def intS : State := after (.vaddInt 4#5 5#5 6#5 0#2 0#1) (rowsS 8 8)
theorem witness_IntegerLanes : (let o := lastOp intS;
    (hFmt (o.arg 0).h, 32) ∈ [(8, 32), (7, 16), (6, 8)] ∧
      intS.element (o.arg 1) (bcast (o.arg 1).h (o.arg 0).h ⟨0, 0, 0, 0⟩) < 2 ^ 32 ∧
      intS.element (o.arg 2) (bcast (o.arg 2).h (o.arg 0).h ⟨0, 0, 0, 0⟩) < 2 ^ 32) := by decide +kernel

/-- FP32 rows whose first elements are z in the destination, x and y. -/
def floatS (x y z : Nat) : State :=
  let s := rowsS 0 8
  after (.vfma 4#5 5#5 6#5 0#2 0#1) { s with
    mem := memWrite (memWrite (memWrite s.mem (spadLoc 0 (near 0x800).toNat) 4 x) (spadLoc 0 (near 0xC00).toNat) 4 y) (spadLoc 0 (near 0x400).toNat) 4 z }
/-- Conversions of a row: from INT32, and to INT32. -/
def fromInt : State := after (.vcvt 4#5 7#5 0#2 0#1) (rowsS 0 8)
def toInt : State := after (.vcvt 7#5 5#5 0#2 0#1) (rowsS 0 8)
/-- A row of INT8 codes with the record given becomes FP32. -/
def codesS (rec : Nat) : State :=
  let s := setH (rowsS 4 8) 5 (plain (near 0x800) 0 8 1 0)
  after (.vdq 5#5 4#5 0#1) { s with mem := memWrite s.mem (spadLoc 0 (near 0x1400).toNat) 4 rec }

theorem witness_FloatLanes :
    (∀ x ∈ [0x7FC00000, 0x7F800000, 0xFF800000, 0x3F800000, 0xBF800000, 0x80000000, 0x43000000, 0xC3180000, 0x3F000000, 0x3FB504F3, 1],
      ∀ y ∈ [0x7FC00000, 0xFF800000, 0x40000000, 0], ∀ z ∈ [0x7FC00000, 0x7F800000, 0x3F800000],
      let s := floatS x y z; let o := lastOp s
      ffmtOf (hFmt (o.arg 0).h) = some fp32 ∧ s.element (o.arg 1) (bcast (o.arg 1).h (o.arg 0).h ⟨0, 0, 0, 0⟩) = x ∧
        s.element (o.arg 2) (bcast (o.arg 2).h (o.arg 0).h ⟨0, 0, 0, 0⟩) = y ∧ s.element (o.arg 0) ⟨0, 0, 0, 0⟩ = z) ∧
    (fp32.value 0x7FC00000 = .nan ∧ fp32.value 0x7F800000 = .inf false ∧ fp32.value 0xFF800000 = .inf true ∧
      (fp32.value 0x3F800000).isFin = true ∧ (fp32.value 0x80000000).isFin = true) ∧
    (hFmt ((lastOp fromInt).arg 1).h = 8 ∧ ffmtOf (hFmt ((lastOp fromInt).arg 0).h) = some fp32 ∧
      hFmt ((lastOp toInt).arg 0).h = 8 ∧ ffmtOf (hFmt ((lastOp toInt).arg 1).h) = some fp32 ∧
      ffmtOf (hFmt ((lastOp (floatS 0 0 0)).arg 1).h) = some fp32) ∧
    (∀ r ∈ [0x7E00, 0x7C00, 0x3C00], let s := codesS r; let o := lastOp s
      hFmt (o.arg 1).h = 4 ∧ s.element (o.arg 5) ⟨0, 0, 0, 0⟩ % 2 ^ 16 = r) ∧
    (fp16.value 0x7E00 = .nan ∧ fp16.value 0x7C00 = .inf false ∧ (fp16.value 0x3C00).isFin = true) := by decide +kernel

theorem witness_Quantise :
    (.nan ∈ [0x7FC00000, 0x3F800000].map fp32.value) ∧
    (let xs := [0x3F800000, 0xBF800000].map fp32.value; let lo := Sys2Proof.Machine.Num.fin true 8388608 8388608
      let hi := Sys2Proof.Machine.Num.fin false 8388608 8388608
      (∀ v ∈ xs, v = lo ∨ v = hi) ∧ lo ∈ xs ∧ hi ∈ xs ∧ ¬lo.below lo ∧ ¬hi.below lo ∧ ¬hi.below hi ∧ ¬hi.below lo) ∧
    roundsTo 3 2 2 ∧ roundsBy .rne 3 2 2 ∧ roundsBy .rz 3 2 1 ∧ roundsBy .ru 3 2 2 ∧ roundsBy .rd 3 2 1 := by
  refine ⟨by decide +kernel, ?_, ?_⟩
  · simp only [Sys2Proof.Machine.Num.below, signed]
    decide +kernel
  · simp only [roundsTo, roundsBy]
    decide

/-- A compare and a reduction of FP32 rows, and a row quantised to INT8. -/
def cmpF : State := after (.vcmpLt 2#5 5#5 6#5 0#2 0#1) (rowsS 0 8)
def sumF : State := after (.vrsum 4#5 5#5 0#2 0#1) (rowsS 0 8)
def quantS : State := after (.vqnt 4#5 5#5 0#1) (setH (rowsS 4 8) 5 (plain (near 0x800) 0 8 1 0))

theorem witness_VectorFloatsComplete :
    (∀ q ∈ [(cmpF, Instr.vcmpLt 2#5 5#5 6#5 0#2 0#1), (sumF, .vrsum 4#5 5#5 0#2 0#1), (quantS, .vqnt 4#5 5#5 0#1)],
      let s := q.1; let o := lastOp s
      s.ready? 1 o.id = some o ∧ o.pops = [] ∧ o.chainOut = none ∧ s.poison = [] ∧ o.instr = q.2) ∧
    (extents ((lastOp cmpF).arg 1).h = (8, 1, 1, 1) ∧ extents ((lastOp cmpF).arg 2).h = (8, 1, 1, 1)) ∧
    (extents ((lastOp sumF).arg 1).h = (8, 1, 1, 1) ∧ rowOk ((lastOp sumF).arg 0) 8 4 = true) ∧
    (let o := lastOp quantS; rowOk (o.arg 0) 8 1 = true ∧ hFmt (o.arg 0).h = 4 ∧ ffmtOf (hFmt (o.arg 1).h) = some fp32 ∧
      rowOk (o.arg 4) 8 4 = true ∧ spadLoc (o.arg 0).core (o.arg 0).base.toNat + 8 ≤ spadLoc (o.arg 4).core (o.arg 4).base.toNat) := by
  decide +kernel

/-- Addresses of the faces A and B, layer 0, and of the accumulator tiles. -/
def faceA (o : Nat) : Word := near (2 ^ 28 + o)
def faceB (o : Nat) : Word := near (2 ^ 29 + o)
def tile (n : Nat) : Word := near (0x1C0000 + 4096 * n)
/-- A product of 2 by 2 by 4 over layers 0 and 1 in FP32: C in h4, A in h5, B in h6, a row pair for CRD in h7. -/
def cubeS (mode acc : Word) : State :=
  (setH (setH (setH (setH base 4 (plain (tile 1) 0 2 2 128)) 5 (plain (faceA 0) 0 2 2 64)) 6 (plain (faceB 0) 0 2 2 64)) 7
    (plain (near 0x400) 0 2 2 8)).modMe (fun x => { x with eng := { x.eng with cube := { x.eng.cube with
      shape := 2 + 2 * 2 ^ 8 + 4 * 2 ^ 16, lmask := 3, mode := mode, acc := acc, fmt := Vector.replicate 16 0 } } })
def cmmWord : CubeWord := ⟨.cmm 4#5 5#5 6#5, some 4#5, some 5#5, 6#5, false⟩
def checkOf (s : State) (w : CubeWord) : Chk (List Arg × Word) := s.cubeCheck w
/-- An operation of the transpose engine holds the accumulator tile. -/
def heldTile : State := { cubeS 0 0 with issue := 4, seq := 4, ops := [{ flying 3 2 (.xtr 0#5 0#5) with ranges := [(spadLoc 0 (tile 1).toNat, 4096)] }] }

/-- The last operation of the core's column used another format pair. -/
def pairS (v : Nat) : State := (setS (cubeS 0 0) 3 (BitVec.ofNat 64 v)).modCore 0 (fun k => { k with pair := some (1#4, 1#4, 0#2) })

theorem witness_CubeWords : (∃ r, (cubeS 0 0).cubeCheck cmmWord = .ok r) ∧ (∃ r, (cubeS 1 0).cubeCheck cmmWord = .ok r) ∧
    (∃ u, base.cubeCheck cmmWord = .error (.trap u)) ∧ heldTile.cubeCheck cmmWord = .error .wait ∧
    (∃ x, (cubeS 0 0).accArg 0 ((cubeS 0 0).hr 4#5) = .ok x ∧ okSome ((cubeS 0 0).canIssue 0 [x]) = true) ∧
    hD ((cubeS 0 0).hr 4#5) = false ∧ accFree ((cubeS 0 0).hr 4#5) = true ∧
    (∃ x, (cubeS 0 0).accArg 1 ((cubeS 0 0).hr 4#5) = .ok x ∧ okSome ((cubeS 0 0).canIssue 0 [x]) = true) ∧
    extents ((cubeS 0 0).hr 4#5) = (2, 2, 1, 1) ∧ (cubeS 0 0).operand 0 7#5 0 2 2 ∧ (cubeS 0 0).rangesUsed 0 ≤ 61 ∧
    accFree (setH (cubeS 0 0) 4 (plain (tile 1) 0 33 2 128) |>.hr 4#5) = false ∧
    (∃ x, (setH (cubeS 0 0) 4 (plain (tile 1) 0 33 2 128)).accArg 0 ((setH (cubeS 0 0) 4 (plain (tile 1) 0 33 2 128)).hr 4#5) = .ok x) ∧
    (cubeS 0 0).lastPair 0 = none ∧ 128 ≤ ((pairS 0x82).sr 3#5 &&& 0xFF#64).toNat ∧
    ((pairS 2).lastPair 0 = some (1#4, 1#4, 0#2) ∧ ((pairS 2).sr 3#5 &&& 0xFF#64).toNat = 2 ∧
      (1#4, 1#4, 0#2) ≠ entryPair ((pairS 2).me.eng.cube.fmt.toList.getD 2 0)) :=
  ⟨some_ok (by decide +kernel), some_ok (by decide +kernel), verdict_trap (by decide +kernel), verdict_wait (by decide +kernel),
    ok_with (by decide +kernel), by decide +kernel, by decide +kernel, ok_with (by decide +kernel), by decide +kernel,
    operand_of (by decide +kernel), by decide +kernel, by decide +kernel, some_ok (by decide +kernel), by decide +kernel,
    by decide +kernel, by decide +kernel⟩

def cmmS : State := after (.cmm 4#5 5#5 6#5) (cubeS 0 1)
def cmmRuns : State := event (execCubeOperationStart (lastOp cmmS).id cmmS) cmmS
def zeroS : State := after (.czero 4#5) (cubeS 0 1)
def zeroRuns : State := event (execCubeOperationStart (lastOp zeroS).id zeroS) zeroS
def drainsS : State := after .edrain base
def loadS0 : State := after (.cldb 6#5 1#1) (cubeS 1 0)
def loadRuns : State := event (execCubeOperationStart (lastOp loadS0).id loadS0) loadS0
def readS : State := after (.crd 7#5 4#5) (cubeS 0 0)
def readRuns : State := event (execCubeOperationStart (lastOp readS).id readS) readS

theorem witness_CubeOperations :
    (cmmS.ready? 0 (lastOp cmmS).id = some (lastOp cmmS) ∧ (lastOp cmmS).pops = [] ∧ cmmS.poison = [] ∧
      (cmmS.column (lastOp cmmS).core).noFold = false ∧ (lastOp cmmS).started = false ∧ (lastOp cmmS).isDrain = false ∧
      cmmS.arrayOpen (lastOp cmmS).core = true ∧ cmmS.admits (lastOp cmmS) = true) ∧
    (cmmRuns.ready? 0 (lastOp cmmRuns).id = some (lastOp cmmRuns) ∧ (lastOp cmmRuns).started = true ∧
      (lastOp cmmRuns).instr = .cmm 4#5 5#5 6#5 ∧ isLocal ((lastOp cmmRuns).arg 0).base = true ∧
      ((lastOp cmmRuns).arg 0).base.toNat % 2 ^ 30 + 4096 * 64 ≤ 2 ^ 30 ∧ (lastOp cmmRuns).regs.cube.n ≤ 32 ∧
      (lastOp cmmRuns).regs.cube.m ≤ 32 ∧ entryA (lastOp cmmRuns).val ≠ 3) ∧
    (zeroRuns.ready? 0 (lastOp zeroRuns).id = some (lastOp zeroRuns) ∧ (lastOp zeroRuns).started = true ∧
      (lastOp zeroRuns).instr = .czero 4#5 ∧ hExt ((lastOp zeroRuns).arg 0).h 0 ≤ 32 ∧
      hExt ((lastOp zeroRuns).arg 0).h 1 ≤ 32 ∧ hExt ((lastOp zeroRuns).arg 0).h 2 ≤ 64) ∧
    (drainsS.ready? 0 (lastOp drainsS).id = some (lastOp drainsS) ∧ (lastOp drainsS).instr = .edrain) ∧
    (∀ s ∈ [cmmS, cmmRuns, zeroRuns, drainsS, loadRuns, readRuns], (lastOp s).pops = [] ∧ s.poison = [] ∧
      (s.column (lastOp s).core).noFold = false ∧ (lastOp s).broken = false ∧ s.arrayOpen (lastOp s).core = true) ∧
    (loadRuns.ready? 0 (lastOp loadRuns).id = some (lastOp loadRuns) ∧ (lastOp loadRuns).started = true ∧
      (lastOp loadRuns).instr = .cldb 6#5 1#1 ∧ (lastOp loadRuns).aux = 1#64) ∧
    (let o := lastOp readRuns; let d := o.arg 0
      readRuns.ready? 0 o.id = some o ∧ o.started = true ∧ o.instr = .crd 7#5 4#5 ∧ hFmt d.h = 0 ∧ extents (o.arg 1).h = (2, 2, 1, 1) ∧
      fmtBits (hFmt d.h) = some (8 * 4) ∧ extents d.h = (2, 2, 1, 1) ∧ d.lay = none ∧ isLocal d.base = true ∧
      2 * 4 ≤ hStride d.h 1 ∧ d.base.toNat % 2 ^ 30 + 2 * hStride d.h 1 ≤ 2 ^ 30) := by decide +kernel

/-- A tile of 4 by 2 elements, or pairs, in h6, its transpose's place in h5, and its copy's in h4. -/
def tilesF (fmt : Nat) : State :=
  let w := if fmt = 3 then 2 else 1
  setH (setH (setH base 4 (plain (near 0x400) fmt (4 * w) 2 16 ||| (1#256 <<< 243))) 5 (plain (near 0x800) fmt (2 * w) 4 8)) 6
    (plain (near 0xC00) fmt (4 * w) 2 16)
def tilesS : State := tilesF 0
def withCfg (s : State) (t u : Word) : State := s.modMe (fun x => { x with eng := { x.eng with tcfg := t, ucfg := u } })
/-- An entry of the context's own in a chain queue, and a queue that is full. -/
def chained : ChainEntry := ⟨50, 0, 0#4, (4, 2, 1, 1), [], false, false, false⟩
def queued (s : State) (q n : Nat) : State := s.modQueue 0 q (fun _ => List.replicate n chained)
/-- The copies of a paired store in package memory. -/
def farPair : State := setH (setH tilesS 4 (plain 0x2000 0 4 2 16 ||| (1#256 <<< 243))) 5 (plain 0x3000 0 2 4 8)
def farArg (role : Nat) (r : BitVec 5) : Chk Arg :=
  farPair.anyArgBy eUpdate role (farPair.pairByte (hW (farPair.hr r))) (coreOf farPair.cur) (farPair.hr r)
/-- The leaf table of the boot space with a weight leaf first: its versions, and the polder's current one. -/
def weightOf (v0 v1 cur : Nat) : State :=
  let s := setS (setS base 4 0x1000) 5 9
  { s with mem := memWrite (memWrite s.mem bootTable 1 (2 ^ 0 + 2 ^ 1 + 2 ^ 2 + 2 ^ 3 + 2 ^ 4 + 2 ^ 5)) (bootTable + 28) 4 (v0 + 2 ^ 16 * v1) |>
      fun m => memWrite (memWrite m (Config.polderBase + 2) 2 2) (Config.polderBase + 12) 2 cur }
def weightS : State := weightOf 7 0 2
def leafOf (s : State) : Leaf := (s.walk 0 0x1000).getD ⟨0, 0, 0⟩

theorem witness_TransposeUnit_words :
    (∀ s ∈ [tilesF 0, tilesF 3], s.rangesUsed (coreOf s.cur) ≤ 60 ∧ s.me.eng.tcfg.toNat % 4 ≠ 1 ∧ s.me.eng.tcfg.getLsbD 4 = false ∧
      s.me.eng.ucfg.toNat % 4 = 0 ∧ hP (s.hr 4#5) = true) ∧
    ((tilesF 0).operand 2 5#5 0 2 4 ∧ (tilesF 0).operand 2 6#5 0 4 2 ∧ (tilesF 3).operand 2 5#5 3 4 4 ∧ (tilesF 3).operand 2 6#5 3 8 2) ∧
    ((tilesF 0).operand 3 4#5 0 4 2 ∧ (tilesF 0).operand 3 5#5 0 2 4 ∧ (tilesF 0).operand 3 6#5 0 4 2) ∧
    (∀ s ∈ [withCfg tilesS 16 0, queued (withCfg tilesS 16 0) 2 8], s.me.eng.tcfg.toNat % 4 ≠ 1 ∧ s.me.eng.tcfg.getLsbD 4 = true ∧
      descOk (s.hr 5#5) = true ∧ hQ (s.hr 5#5) = false ∧ hFmt (s.hr 5#5) = 0 ∧ extents (s.hr 5#5) = (2, 4, 1, 1)) ∧
    (withCfg tilesS 16 0).operand 2 6#5 0 4 2 ∧ (withCfg tilesS 16 0).queueRoom 2 = true ∧
    (queued (withCfg tilesS 16 0) 2 8).queueRoom 2 = false ∧
    ((withCfg tilesS 1 0).me.eng.tcfg.toNat % 4 = 1 ∧ (withCfg tilesS 1 0).operand 2 5#5 0 2 4 ∧ (withCfg tilesS 1 0).chainHead 0 = none ∧
      (queued (withCfg tilesS 1 0) 0 1).chainHead 0 = some chained ∧ descOk (tilesS.hr 6#5) = true ∧ hQ (tilesS.hr 6#5) = false) ∧
    (∀ q ∈ [1, 2], (queued (withCfg tilesS 0 (BitVec.ofNat 64 q)) q 1).me.eng.ucfg.toNat % 4 = q ∧
      (withCfg tilesS 0 (BitVec.ofNat 64 q)).chainHead q = none ∧
      (queued (withCfg tilesS 0 (BitVec.ofNat 64 q)) q 1).chainHead q = some chained) ∧
    (farPair.operand 3 6#5 0 4 2 ∧ isLocal (hBase (farPair.hr 4#5)) = false ∧ isLocal (hBase (farPair.hr 5#5)) = false ∧
      pairForm (farPair.hr 4#5) = true ∧ pairForm (farPair.hr 5#5) = true ∧ transposable (farPair.hr 5#5) (farPair.hr 6#5) = true ∧
      okSome (farArg 0 4#5) = true ∧ okSome (farArg 3 5#5) = true) ∧
    (∀ s ∈ [weightS, weightOf 2 7 2], isLocal (s.sr 4#5) = false ∧ s.walk (s.agentOf 0).asid (s.sr 4#5) = some (leafOf s) ∧
      (leafOf s).weight = true ∧ (s.sr 5#5).toNat < 2 ^ 16 ∧ (s.sr 5#5).toNat ≠ s.currentVer (s.agentOf 0).polder ∧
      s.permits (s.agentOf 0) .pair (leafOf s) = true) ∧
    (let l := leafOf weightS; l.ver0 ≠ 2 ∧ (weightOf 7 2 2).walk 0 0x1000 = some (leafOf (weightOf 7 2 2)) ∧ (leafOf (weightOf 7 2 2)).ver1 = 2 ∧
      (∀ x ∈ (weightOf 7 2 2).launches, x.version.toNat ≠ 7)) ∧
    ((leafOf (weightOf 2 7 2)).ver0 = (weightOf 2 7 2).currentVer ((weightOf 2 7 2).agentOf 0).polder ∧
      (∀ x ∈ (weightOf 2 7 2).launches, x.version.toNat ≠ (leafOf (weightOf 2 7 2)).ver1) ∧
      ∃ x ∈ (weightOf 2 0 2).launches, x.version.toNat = (leafOf (weightOf 2 0 2)).ver1) := by
  refine ⟨by decide +kernel, ⟨operand_of (by decide +kernel), operand_of (by decide +kernel), operand_of (by decide +kernel),
      operand_of (by decide +kernel)⟩, ⟨operand_of (by decide +kernel), operand_of (by decide +kernel), operand_of (by decide +kernel)⟩,
    by decide +kernel, operand_of (by decide +kernel), by decide +kernel, by decide +kernel,
    ⟨by decide +kernel, operand_of (by decide +kernel), by decide +kernel⟩, by decide +kernel,
    ⟨operand_of (by decide +kernel), by decide +kernel⟩, by decide +kernel, by decide +kernel, by decide +kernel⟩

def xtrOf (fmt : Nat) : State := after (.xtr 5#5 6#5) (tilesF fmt)
def xtrcS : State := after (.xtrc 5#5 6#5) tilesS
def upstOf (fmt : Nat) : State := after (.upst 4#5 6#5) (tilesF fmt)
/-- The operand is a plain tile. -/
def tileOk (o : Opnd) (e0 e1 b : Nat) : Bool :=
  fmtBits (hFmt o.h) == some (8 * b) && decide (extents o.h = (e0, e1, 1, 1)) && decide (1 ≤ e0) &&
  decide (1 ≤ e1) && decide (o.lay = none) && isLocal o.base && decide (e0 * b ≤ hStride o.h 1) &&
  decide (o.base.toNat % 2 ^ 30 + e1 * hStride o.h 1 ≤ 2 ^ 30)

theorem isTile_of {o : Opnd} {e0 e1 b : Nat} (h : tileOk o e0 e1 b = true) : o.isTile e0 e1 b := by
  simp only [tileOk, Bool.and_eq_true, beq_iff_eq, decide_eq_true_eq] at h
  obtain ⟨⟨⟨⟨⟨⟨⟨a, c⟩, d⟩, e⟩, f⟩, g⟩, i⟩, j⟩ := h
  exact ⟨a, c, d, e, f, g, i, j⟩

theorem witness_TransposeUnit :
    (∀ q ∈ [(xtrOf 0, Instr.xtr 5#5 6#5), (xtrOf 3, .xtr 5#5 6#5), (xtrcS, .xtrc 5#5 6#5)], let s := q.1; let o := lastOp s
      o.instr = q.2 ∧ s.ready? 2 o.id = some o ∧ o.pops = [] ∧ s.poison = [] ∧ o.chainIn = none ∧ o.chainOut = none) ∧
    (((lastOp (xtrOf 0)).arg 1).isTile 4 2 4 ∧ ((lastOp (xtrOf 0)).arg 0).isTile 2 4 4) ∧
    (((lastOp (xtrOf 3)).arg 1).isTile 8 2 2 ∧ ((lastOp (xtrOf 3)).arg 0).isTile 4 4 2 ∧ hFmt ((lastOp (xtrOf 3)).arg 1).h = 3) ∧
    (((lastOp xtrcS).arg 1).isTile 4 2 4 ∧ ((lastOp xtrcS).arg 0).isTile 2 4 4) ∧
    (∀ s ∈ [upstOf 0, upstOf 3], let o := lastOp s
      o.instr = .upst 4#5 6#5 ∧ s.ready? 3 o.id = some o ∧ o.pops = [] ∧ s.poison = [] ∧ o.chainIn = none ∧ o.chainOut = none ∧
      overlaps ((o.arg 0).tileBytes 2).1 ((o.arg 0).tileBytes 2).2 ((o.arg 3).tileBytes 4).1 ((o.arg 3).tileBytes 4).2 = false) ∧
    ((lastOp (upstOf 0)).arg 1).isTile 4 2 4 ∧ ((lastOp (upstOf 0)).arg 0).isTile 4 2 4 ∧ ((lastOp (upstOf 0)).arg 3).isTile 2 4 4 ∧
    ((lastOp (upstOf 3)).arg 1).isTile 8 2 2 ∧ ((lastOp (upstOf 3)).arg 0).isTile 8 2 2 ∧ ((lastOp (upstOf 3)).arg 3).isTile 4 4 2 :=
  ⟨by decide +kernel, ⟨isTile_of (by decide +kernel), isTile_of (by decide +kernel)⟩,
    ⟨isTile_of (by decide +kernel), isTile_of (by decide +kernel), by decide +kernel⟩,
    ⟨isTile_of (by decide +kernel), isTile_of (by decide +kernel)⟩, by decide +kernel,
    isTile_of (by decide +kernel), isTile_of (by decide +kernel), isTile_of (by decide +kernel),
    isTile_of (by decide +kernel), isTile_of (by decide +kernel), isTile_of (by decide +kernel)⟩

/-- A row of 4 elements at near 0x800 to be copied to near 0x400; the copies of this context count no gauge. -/
def copyS (cfg : Word) : State :=
  (setH (setH base 4 (plain (near 0x400) 0 4 1 16)) 5 (plain (near 0x800) 0 4 1 16)).modMe (fun x =>
    { x with eng := { x.eng with copy := { x.eng.copy with cfg := cfg } } })
def cpyS : State := after (.cpy 4#5 5#5 0#5) (copyS 0xFF01)
/-- Tasks of one group on the four cores of a cluster. -/
def rotateS : State :=
  { copyS 0xFF01 with
    ctxs := [0, 4, 8, 12].map (fun c => (c, { ((copyS 0xFF01).ctx 0) with task := some ⟨0, c, 0, c / 4⟩ })) }
/-- The source of the copy meets an uncorrectable error. -/
def badCopy : State := { cpyS with poison := [spadLoc 0 (near 0x800).toNat / 64] }
/-- A completion ring of two records at near 0x2000 with one record in it. -/
def ringS (w : BitVec 16) : State := base.modMe (fun x =>
  { x with eng := { x.eng with copy := { x.eng.copy with crbase := near 0x2000, size := 1, widx := w } } })
/-- The destination of the copy is a ring of four slots of 64 bytes at near 128. -/
def ringCopy : State := setH (copyS 0xFF01) 4 (plain (near 128) 0 4 1 16 + BitVec.ofNat 256 (2 ^ 204 + 3 * 2 ^ 232 + 64 * 2 ^ 176))
/-- Another context's vector operation writes the copy's source. -/
def waitCopy : State :=
  { copyS 0xFF01 with ops := [{ flying 70 0 .nop with ctx := 1, ranges := [(spadLoc 0 (near 0x800).toNat, 16)] }] }
/-- A copy to four cores that counts the gauge at near 64, which awaits 64 bytes in core 1. -/
def manyS : State :=
  let s := setH (copyS 0xFFF0) 7 (plain (near 64) 0 0 0 0 ||| BitVec.ofNat 256 (kGauge * 2 ^ 204))
  let m := memWrite s.mem (spadLoc 1 (near 64).toNat) 16 (2 ^ 127 + 64)
  after (.cpym 4#5 5#5 7#5) { s with mem := memWrite m (spadLoc 0 (near 0x800).toNat) 16 0xffeeddccbbaa99887766554433221100 }
/-- A copy that records its completion in the ring of two records at near 0x2000. -/
def recordS : State :=
  after (.cpy 4#5 5#5 0#5) ((copyS 0xFF03).modMe (fun x =>
    { x with eng := { x.eng with copy := { x.eng.copy with crbase := near 0x2000, size := 1 } } }))
/-- A gauge at near 64 in h4 with the 16 bytes given, and a generation in register 5. -/
def gaugeS (n : Nat) (v : Word) : State :=
  let s := setS (setH base 4 (plain (near 64) 0 0 0 0 ||| BitVec.ofNat 256 (kGauge * 2 ^ 204))) 5 v
  { s with mem := memWrite s.mem (spadLoc 0 (near 64).toNat) 16 n }
def lateS : State :=
  State.modCtx { setS (gaugeS (2 ^ 127 + 9) 6) 7 100 with time := 300 } 0 (fun x => { x with waitFrom := some 150, blocked := true })
/-- A context at GWAIT h4, s5, s7, blocked past its timeout. -/
def timeoutS : State :=
  State.modCtx { setS (setS (State.reset.withFetchWord 32 0x8D085382) 5 6) 7 100 with time := 300 } 0
    (fun x => { x with waitFrom := some 150, blocked := true })

theorem witness_Copies :
    ((∃ p, (copyS 0xFF01).copyCheck .one 4#5 5#5 0#5 = .ok p ∧ p.slot.isNone = true) ∧
      (∃ p, (copyS 0xFFF1).copyCheck .many 4#5 5#5 0#5 = .ok p ∧ p.slot.isNone = true) ∧
      (∃ p, rotateS.copyCheck .rotate 4#5 5#5 0#5 = .ok p ∧ p.slot.isNone = true) ∧
      (∃ u, base.copyCheck .one 4#5 5#5 0#5 = .error (.trap u)) ∧ waitCopy.copyCheck .one 4#5 5#5 0#5 = .error .wait ∧
      (∃ p, ringCopy.copyCheck .one 4#5 5#5 0#5 = .ok p ∧ p.slot.isSome = true)) ∧
    ((setS base 3 (1#64 <<< 31)).sr 3#5).getLsbD 31 = true ∧ (base.sr 3#5).getLsbD 31 = false ∧
    base.me.eng.copy.size = 0#4 ∧ ((ringS 0).me.eng.copy.size ≠ 0#4 ∧ (ringS 0).me.eng.copy.widx = (ringS 0).me.eng.copy.ridx) ∧
    ((ringS 1).me.eng.copy.size ≠ 0#4 ∧ (ringS 1).me.eng.copy.widx ≠ (ringS 1).me.eng.copy.ridx) :=
  ⟨⟨ok_with (by decide +kernel), ok_with (by decide +kernel), ok_with (by decide +kernel), verdict_trap (by decide +kernel),
    verdict_wait (by decide +kernel), ok_with (by decide +kernel)⟩, by decide +kernel⟩

theorem witness_CopiesLand :
    (let o := lastOp cpyS;
      cpyS.copy? o.id = some o ∧ cpyS.copyMoves o = true ∧ o.round = 0 ∧ o.pops = [] ∧ o.slot = none ∧ o.data = none ∧
      o.recvs = [0] ∧ cpyS.underTest 0 = false ∧ cpyS.badSource o = none ∧ o.aux = 0#64 ∧ o.entry = none ∧
      o.regs.copy.layerMode = 0 ∧ o.regs.copy.records = false ∧ hKind (o.destAt 0).h = kPlain ∧
      (∀ x ∈ [o.arg 1, o.destAt 0], fmtBits (hFmt x.h) = some (8 * 4) ∧ extents x.h = (4, 1, 1, 1) ∧ x.lay = none ∧
        isLocal x.base = true ∧ x.base.toNat % 2 ^ 30 + 4 * 4 ≤ 2 ^ 30)) ∧
    (let o := lastOp manyS; let g := spadLoc 1 o.val.toNat;
      manyS.copy? o.id = some o ∧ manyS.copyMoves o = true ∧ o.round = 0 ∧ o.pops = [] ∧ o.slot = none ∧ o.data = none ∧
      o.recvs = [0, 1, 2, 3] ∧ manyS.underTest 1 = false ∧ manyS.badSource o = none ∧ o.aux = 1#64 ∧ o.entry = none ∧
      o.regs.copy.layerMode = 0 ∧ o.regs.copy.records = false ∧ hKind (o.destAt 1).h = kPlain ∧
      (∀ x ∈ [o.arg 1, o.destAt 1], rowOk x 4 4 = true) ∧ ((manyS.gaugeAt g).count 16).2 = false ∧
      overlaps g 16 (spadLoc (o.destAt 1).core (o.destAt 1).base.toNat) 16 = false) ∧
    (let o := lastOp recordS; let q := o.regs.copy;
      recordS.copy? o.id = some o ∧ q.records = true ∧ o.aux = 0#64 ∧ o.recvs = [0] ∧ rowOk (o.destAt 0) 4 4 = true ∧ q.size = 1#4 ∧
      isOk (recordS.localAt 0 0 q.crbase 32) (spadLoc 0 0x2000) = true ∧ recordS.poison = [] ∧
      overlaps (spadLoc 0 0x2000) 32 (spadLoc 0 (o.destAt 0).base.toNat) 16 = false) ∧
    (badCopy.copy? (lastOp badCopy).id = some (lastOp badCopy) ∧ badCopy.copyMoves (lastOp badCopy) = true ∧
      badCopy.badSource (lastOp badCopy) = some (near 0x800)) :=
  ⟨by decide +kernel, by decide +kernel, by decide +kernel, by decide +kernel⟩

/-- Every other task of a group of four stands at its barrier. -/
def barS : State :=
  { rotateS with
    ctxs := rotateS.ctxs.map (fun p => (p.1, { p.2 with atBar := true }))
    launches := rotateS.launches.map (fun l => { l with group := 4, tasks := 4 }) }

/-- Another participant has opened the barrier. -/
def barOpenS : State := rotateS.modMe (fun x => { x with barOpen := x.gbars + 1 })
/-- A task of the group has a store that is not yet performed at cluster scope. -/
def barStore : State := { barS with stores := [⟨90, 4, 0x1000, bootCode + 0x1000, 8, 5, none, 0, [], none, 0⟩] }
/-- A task of the group has a copy in flight that writes. -/
def barCopy : State := { barS with ops := [{ lastOp cpyS with ctx := 8 }] }

/-- The two grounds on which GBAR goes on: opened already; all reached, and all written. -/
def barPasses (s : State) : Bool × Bool :=
  let n := s.me.gbars + 1
  let group := s.groupOf s.cur
  let here := fun (d : Nat) => decide (d = s.cur ∨ n ≤ (s.ctx d).gbars ∨ ((s.ctx d).atBar = true ∧ n ≤ (s.ctx d).gbars + 1))
  let written := fun (d : Nat) => s.storesDone d 2 && s.ops.all (fun o => o.ctx != d || o.entry.isSome || o.dests.all (fun x => x.2 == 0))
  (decide (n ≤ s.me.barOpen),
    decide (s.groupSizeOf s.cur ≤ max group.length 1) && (s.cur :: group).all (fun d => here d && written d))

theorem witness_GaugesAndBarriers :
    isOk ((gaugeS (2 ^ 127) 77).ownGauge ((gaugeS (2 ^ 127) 77).hr 4#5) true) (spadLoc 0 (near 64).toNat) = true ∧
    1 ≤ ((gaugeS (2 ^ 127) 77).sr 5#5).toNat ∧ ((gaugeS (2 ^ 127) 77).sr 5#5).toNat < 2 ^ 30 ∧
    (∀ f ∈ (gaugeS 0 0).me.faults, f.engine ≠ 5) ∧
    ((gaugeS (2 ^ 127 + 2 ^ 126) 77).gaugeAt (spadLoc 0 (near 64).toNat)).ovr = true ∧
    (((gaugeS (2 ^ 127) 77).gaugeAt (spadLoc 0 (near 64).toNat)).ovr = false ∧
      seqDiff ((gaugeS (2 ^ 127) 77).gaugeAt (spadLoc 0 (near 64).toNat)).gen 77#32 < 0 ∧
      0 ≤ seqDiff ((gaugeS (2 ^ 127) 0).gaugeAt (spadLoc 0 (near 64).toNat)).gen 0#32) ∧
    (lateS.me.waitFrom = some 150 ∧ lateS.sr 7#5 ≠ 0#64 ∧ 150 + (lateS.sr 7#5).toNat ≤ lateS.time) ∧
    gaugeForm (base.hr 4#5) = false ∧
    (timeoutS.gaugeWait 0 = some (4#5, 6#64, 100#64) ∧ (timeoutS.ctx 0).waitFrom = some 150 ∧ (timeoutS.ctx 0).blocked = true ∧
      150 + 100 ≤ timeoutS.time ∧ (timeoutS.gaugeAt (spadLoc 0 (near 64).toNat)).ovr = false ∧
      seqDiff (timeoutS.gaugeAt (spadLoc 0 (near 64).toNat)).gen 6#32 < 0) ∧
    (let g : Gauge := ⟨true, false, 0, 0#32, 3, 5⟩;
      g.arr < 2 ^ 32 ∧ g.arr + 1 < g.tgt ∧ g.arr + 2 = g.tgt ∧ g.tgt < g.arr + 3) ∧
    (gaugeS (2 ^ 127 + 2 ^ 126) 77).me.waitFrom = none ∧
    barPasses barS = (false, true) ∧ barPasses rotateS = (false, false) ∧ barPasses barOpenS = (true, false) ∧
    barPasses barStore = (false, false) ∧ barPasses barCopy = (false, false) := by decide +kernel

/-- A WACT, WPRE or WREF of layer 1, bank 2, row `row` under REGION 0 in s4; a row of face B, layer 1, in h5. -/
def bankS (row : Nat) (bank : Bank) : State :=
  { setH (setS base 4 (BitVec.ofNat 64 (1 * 2 ^ 25 + 2 * 2 ^ 20 + row * 2 ^ 12))) 5 (plain (near (2 ^ 29 + 2 ^ 25 + 64)) 0 128 1 0) with
    banks := [(bankKey 0 1 2, bank)] }
/-- A context that may use the bank again. -/
def fresh (s : State) : State := s.modMe (fun x => { x with wsAct := [], wsPre := [] })
def wldS : State := after (.wld 5#5 4#5) (fresh (bankS 7 ⟨some (7, 0), 0, 0⟩))
def wldDueS : State := { wldS with ops := wldS.ops.map (fun o => { o with left := 0 }) }
/-- Region 3 of cube 0, one column of 16 rows, both halves tagged; a WST of 4 elements from h4 into it through h5. -/
def regionS (ver1 : Nat) : State :=
  let s := setH (setH base 4 (plain (near 0x400) 0 4 1 16)) 5
    (plain (BitVec.ofNat 64 (3 * 2 ^ 36)) 0 4 1 16 ||| BitVec.ofNat 256 (kWeightStore * 2 ^ 204))
  let c : Cube := { Cube.reset with rga := Cube.reset.rga.set 3 (BitVec.ofNat 64 (16 * 2 ^ 24 + 16 * 2 ^ 16 + ver1 * 2 ^ 48)) }
  { s.modMe (fun x => { x with wsWver := 9 }) with
    cubes := [(0, c)], mem := memWrite (memWrite s.mem (Config.polderBase + 2) 2 2) (Config.polderBase + 10) 1 0
    launches := [{ bootLaunch with begun := 1 }] }
def wstS : State := after (.wst 5#5 4#5) (regionS 4)
def currentS : State := { (regionS 4).modMe (fun x => { x with wsWver := 0 }) with launches := [{ bootLaunch with begun := 0 }] }

def heldS (s : State) (k : Nat) : State := { s with banks := [(bankKey 0 1 2, ⟨some (7, k), 0, 0⟩)] }
/-- The row of a WLD is bad; its destination is busy in another engine. -/
def badRow : State :=
  let s := fresh (bankS 7 ⟨some (7, 0), 0, 0⟩)
  { s with poison := [wsLoc 0 1 2 7 0 / 64] }
def busyFace : State :=
  let s := fresh (bankS 7 ⟨some (7, 0), 0, 0⟩)
  { s with ops := [{ flying 70 0 .nop with ctx := 1, ranges := [(spadLoc 0 (hBase (s.hr 5#5)).toNat + 8, 4)] }] }
/-- WST states that end in each way: a region that is disabled, no right to write, no running version, a half that a running
launch has bound (the running version's and the other), a half whose rows end too soon, no room for ranges. -/
def offS : State := { regionS 4 with cubes := [] }
def strangerS : State := { regionS 4 with mem := base.mem }
def oddVersion : State := { regionS 4 with mem := memWrite (regionS 4).mem (Config.polderBase + 12) 2 5 }
def boundSame : State := (regionS 4).modMe (fun x => { x with wsWver := 0 })
def boundOther : State := regionS 0
def shortHalf : State :=
  let c : Cube := { Cube.reset with rga := Cube.reset.rga.set 3 (BitVec.ofNat 64 (16 * 2 ^ 24 + 255 * 2 ^ 16 + 4 * 2 ^ 48)) }
  { setH (regionS 4) 5 ((regionS 4).hr 5#5 + BitVec.ofNat 256 (2 ^ 22)) with cubes := [(0, c)] }
def crowded (s : State) : State := { s with ops := (List.range 64).map (fun n => { flying (100 + n) 0 .nop with ctx := 1, ranges := [(n, 1)] }) }

theorem witness_WeightStoreWords :
    (isOk ((bankS 7 Bank.reset).wsBank (wsOpnd ((bankS 7 Bank.reset).sr 4#5))) 2 = true ∧
      wsLayout ((bankS 7 Bank.reset).sr 4#5) false = true ∧ isOk ((bankS 7 Bank.reset).wsRow (wsOpnd ((bankS 7 Bank.reset).sr 4#5))) 7 = true ∧
      ((bankS 7 Bank.reset).bank (bankKey 0 1 2)).open_ = none ∧ tblFind (bankS 7 Bank.reset).me.wsPre 18 = none ∧
      (wsOpnd ((bankS 0 Bank.reset).sr 4#5)).region = 0 ∧ (wsOpnd ((bankS 0 Bank.reset).sr 4#5)).row = 0) ∧
    (let s := fresh (bankS 7 ⟨some (7, 0), 0, 0⟩);
      (s.bank (bankKey 0 1 2)).open_ = some (7, s.cur) ∧ wsLayout (s.sr 4#5) true = true ∧ handleOk (s.hr 5#5) = true ∧
      hKind (s.hr 5#5) = kPlain ∧ hD (s.hr 5#5) = false ∧ isLocal (hBase (s.hr 5#5)) = true ∧ areaOf (hBase (s.hr 5#5)) = 2 ∧
      layerOf (hBase (s.hr 5#5)) = 1 ∧ offsetOf (hBase (s.hr 5#5)) % 64 = 0 ∧ offsetOf (hBase (s.hr 5#5)) + 512 ≤ 2 ^ 17 ∧
      handleAligned (s.hr 5#5) = true ∧
      isOk (s.localAt s.cur 0 (hBase (s.hr 5#5)) 512) (spadLoc 0 (hBase (s.hr 5#5)).toNat) = true ∧
      tblFind s.me.wsAct 18 = none) ∧
    (let s := regionS 4; let h := s.hr 5#5; let g := (s.cube 0).wsRegion 3;
      handleOk h = true ∧ hKind h = kWeightStore ∧ hFmt h = 0 ∧ hW h = false ∧ hQ h = false ∧ hD h = false ∧ hLrec h = 0 ∧
      bitsOf h.toNat 63 40 = 0 ∧ bitsOf h.toNat 39 36 = 3 ∧ handleAligned h = true ∧ extents h = (4, 1, 1, 1) ∧
      g.disabled = false ∧ s.writerOf (s.polderOf s.cur) (s.effField 4 g.polder 10 1) = true ∧
      isOk (s.wstHalf g) (1, true) = true ∧ s.wstFits g 1 h none = true ∧ s.rangesUsed 0 < 64) ∧
    (regionS 4).operand 6 4#5 0 4 1 ∧
    currentS.operand 6 4#5 0 4 1 ∧
    (isOk (currentS.wstHalf ((currentS.cube 0).wsRegion 3)) (0, false) = true ∧
      currentS.wstFits ((currentS.cube 0).wsRegion 3) 0 (currentS.hr 5#5) none = true) :=
  ⟨by decide +kernel, by decide +kernel, by decide +kernel, operand_of (by decide +kernel), operand_of (by decide +kernel),
    by decide +kernel⟩

theorem witness_WeightStoreTraps :
    (tblFind ((bankS 7 Bank.reset).modMe (fun x => { x with wsPre := [(18, 2)] })).me.wsPre 18 ≠ none ∧
      ((heldS (bankS 7 Bank.reset) 1).bank (bankKey 0 1 2)).open_ = some (7, 1) ∧
      tblFind (bankS 7 ⟨some (7, 0), 0, 0⟩ |>.modMe (fun x => { x with wsAct := [(18, 6)] })).me.wsAct 18 ≠ none ∧
      busyFace.rangeBusy 0 (some 6) (spadLoc 0 (hBase (busyFace.hr 5#5)).toNat) 512 = true ∧
      badRow.poisoned (wsLoc 0 1 2 7 (wsOpnd (badRow.sr 4#5)).off) 512 = true) ∧
    (offS.cube 0).wsRegion 3 = ⟨0, (0, 0), (0, 0), 0, 0, 0, 0⟩ ∧
    (strangerS.writerOf (strangerS.polderOf 0) (strangerS.effField 4 0 10 1) = false ∧
      strangerS.wstFits ((strangerS.cube 0).wsRegion 3) 0 (strangerS.hr 5#5) none = true) ∧
    ((oddVersion.cube 0).wsRegion 3).halfOf (oddVersion.currentVer 0) = none ∧
    (((boundSame.cube 0).wsRegion 3).tag 0 = boundSame.me.wsWver.toNat ∧ ∃ l ∈ boundSame.launches, 0 < l.begun ∧ l.polder = 0) ∧
    (((boundOther.cube 0).wsRegion 3).tag 0 ≠ boundOther.me.wsWver.toNat ∧
      ∃ l ∈ boundOther.launches, 0 < l.begun ∧ l.version.toNat = ((boundOther.cube 0).wsRegion 3).tag 1) ∧
    (let g := (shortHalf.cube 0).wsRegion 3;
      shortHalf.wstFits g 0 (shortHalf.hr 5#5) none = true ∧ shortHalf.wstFits g 1 (shortHalf.hr 5#5) none = false ∧
      g.halfOf (shortHalf.currentVer 0) = some 0) ∧
    64 ≤ (crowded (regionS 4)).rangesUsed 0 := by decide +kernel

/-- A due WLD whose row was bad, of a context with a completion ring of 2 ^ n records or with none. -/
def badDue (n : BitVec 4) : State :=
  let s := badRow.modMe (fun x => { x with eng := { x.eng with copy := { x.eng.copy with crbase := near 0x2000, size := n } } })
  { after (.wld 5#5 4#5) s with ops := (after (.wld 5#5 4#5) s).ops.map (fun o => { o with left := 0 }), poison := [] }
/-- The layer's banks of a WST's region are gone. -/
def badWst : State := { wstS with columns := [(0, { Column.reset with wsBuses := (List.range 16).map (fun b => (0, b)) })] }

theorem witness_WeightStoreEvents :
    (let o := lastOp wldDueS;
      wldDueS.ops.find? (fun p => p.id == o.id && p.exposed) = some o ∧ o.left = 0 ∧ (wldDueS.ctx o.ctx).inh = false ∧
      wldDueS.rangeHeld o.core none (spadLoc o.core (o.arg 0).base.toNat) 512 = false ∧ o.recvs = [] ∧
      ∃ bytes, o.data = some bytes ∧ bytes.length = 512) ∧
    (let o := lastOp wstS;
      wstS.ops.find? (fun p => p.id == o.id && p.engine == 6 && !p.exposed) = some o ∧ wstS.accessesDone o = true ∧
      (∀ p ∈ wstS.ops, p.engine = 6 → p.exposed = false → p.core = o.core → o.id ≤ p.id) ∧ wstS.poison = [] ∧
      isLocal (o.arg 1).base = true ∧ (wstS.wstPokes o).isSome = true ∧ o.pops = []) ∧
    (let o := lastOp (badDue 1); o.recvs ≠ [] ∧ (badDue 1).rangeHeld o.core none (spadLoc o.core (o.arg 0).base.toNat) 512 = false ∧
      isOk ((badDue 1).dataAt 0 0 ((badDue 1).agentOf 0) .write (near 0x2000) 32) (spadLoc 0 0x2000) = true ∧
      (badDue 1).poisoned (spadLoc 0 0x2000) 32 = false ∧ (lastOp (badDue 0)).regs.copy.size = 0#4) ∧
    badWst.wstPokes (lastOp badWst) = none ∧
    ({ base with time := 100000 }.bankLeft 5 = 0 ∧ 5 / 128 < base.part.cubes * 96 ∧ base.vanished (5 / 128) (5 / 16 % 8) (5 % 16) = false) := by
  refine ⟨⟨by decide +kernel, by decide +kernel, by decide +kernel, by decide +kernel, by decide +kernel, ?_⟩,
    by decide +kernel, by decide +kernel, by decide +kernel, by decide +kernel⟩
  exact ⟨(lastOp wldDueS).data.getD [], by decide +kernel, by decide +kernel⟩

/-- The polder may write region 0, whose version p is published; registers 4 and 5 hold the region and v. -/
def pubS (v p : Word) : State :=
  { setS (setS base 4 0) 5 v with
    mem := memWrite base.mem (Config.polderBase + 2) 2 2, pubs := [(0, p.setWidth 16)] }
/-- A token ring of 3 slots at near 0x200 in h6. -/
def tokenS : State := setH base 6 (plain (near 0x200) 9 32 1 32 + BitVec.ofNat 256 (kRing * 2 ^ 204 + 3 * 2 ^ 232 + 32 * 2 ^ 176))
/-- Its slots are all held; another context's operation holds a byte of it. -/
def fullToken : State := { tokenS with mem := memWrite tokenS.mem (spadLoc 0 (near 0x200).toNat + 8) 4 3 }
def busyToken : State := { tokenS with ops := [{ flying 70 0 .nop with ctx := 1, ranges := [(spadLoc 0 (near 0x200).toNat + 70, 4)] }] }
def tokenClaim : Chk (RingSlot × Option (Layout × Nat × BitVec 512)) := tokenS.claimable 31#5 (tokenS.hr 6#5) 0

theorem witness_Versions :
    (((pubS 5 3).sr 4#5).toNat < 256 ∧ ((pubS 5 3).sr 5#5).toNat < 2 ^ 16 ∧ (pubS 5 3).writerOf ((pubS 5 3).polderOf 0) 0 = true ∧
      (∀ q, (pubS 5 3).published 0 = some q → 0 < verDiff (BitVec.ofNat 16 5) q) ∧ (pubS 5 3).storesDone 0 5 = true ∧
      (pubS 5 3).opsDone 0 = true ∧ { pubS 5 3 with stores := [storeOf] }.storesDone 0 5 = false) ∧
    (isOk (fullToken.claimable 31#5 (fullToken.hr 6#5) 0) (⟨spadLoc 0 (near 0x200).toNat, 3#32, false⟩, none) = true ∧
      busyToken.rangeBusy 0 none (spadLoc 0 (near 0x200).toNat) (ringSpan (tokenS.hr 6#5) none) = true) ∧
    (∃ q, (pubS 3 3).published 0 = some q ∧ verDiff (BitVec.ofNat 16 3) q ≤ 0) ∧
    (((setS (pubS 5 3) 4 3).sr 4#5).toNat < 2 ^ 16 ∧
      ∃ q, (pubS 5 3).published ((pubS 5 3).effField 4 0 10 1) = some q ∧ 0 ≤ verDiff q (BitVec.ofNat 16 3)) ∧
    (tokenRing (tokenS.hr 6#5) = true ∧ hD (tokenS.hr 6#5) = false ∧ isLocal (hBase (tokenS.hr 6#5)) = true ∧
      isOk tokenClaim (⟨spadLoc 0 (near 0x200).toNat, 0#32, true⟩, none) = true ∧
      tokenS.rangeBusy 0 none (spadLoc 0 (hBase (tokenS.hr 6#5)).toNat) (ringSpan (tokenS.hr 6#5) none) = false ∧
      (hBase (tokenS.hr 6#5)).toNat % 2 ^ 30 + 64 + hDepth (tokenS.hr 6#5) * hStride (tokenS.hr 6#5) 3 + 32 ≤ 2 ^ 30) := by
  refine ⟨⟨by decide +kernel, by decide +kernel, by decide +kernel, ?_, by decide +kernel, by decide +kernel, by decide +kernel⟩,
    by decide +kernel, ⟨3, by decide +kernel, by decide⟩, ⟨by decide +kernel, 3, by decide +kernel, by decide⟩, by decide +kernel⟩
  intro q hq
  have : q = 3 := by
    have h : (pubS 5 3).published 0 = some 3 := by decide +kernel
    rw [h] at hq
    exact (Option.some.inj hq).symm
  subst this
  decide

theorem no_bus_run {s : State} (h : ∀ p ∈ s.cubes, p.2.busRun = none) (q : Nat) : (s.cube q).busRun = none := by
  rw [State.cube, tblGet]
  revert h
  generalize s.cubes = t
  intro h
  induction t with
  | nil => rfl
  | cons p r ih =>
    by_cases e : p.1 = q
    · simpa [tblFind, e] using h p (by simp)
    · simpa [tblFind, e] using ih (fun p' hp => h p' (by simp [hp]))

/-- A WST that meets a vanished bank, and no bus test that runs; a token ring whose place another engine holds. -/
theorem witness_WeightStoreMeetsErrors : (∀ q, (wstS.cube q).busRun = none) ∧
    (let o := lastOp badWst;
      badWst.ops.find? (fun p => p.id == o.id && p.engine == 6 && !p.exposed) = some o ∧ badWst.accessesDone o = true ∧
      (∀ p ∈ badWst.ops, p.engine = 6 → p.exposed = false → p.core = o.core → o.id ≤ p.id) ∧ badWst.poison = [] ∧
      isLocal (o.arg 1).base = true ∧ o.pops = []) ∧
    (busyToken.rangeBusy 0 none (spadLoc 0 (near 0x200).toNat) 64 = true ∨
      busyToken.rangeBusy 0 none (spadLoc 0 (slotBase (busyToken.hr 6#5) 0#32).toNat) (spanOf (busyToken.hr 6#5) none) = true) ∧
    isOk (busyToken.claimable 31#5 (busyToken.hr 6#5) 0) (⟨spadLoc 0 (near 0x200).toNat, 0#32, true⟩, none) = true :=
  ⟨no_bus_run (by decide +kernel), by decide +kernel,
    by decide +kernel, by decide +kernel⟩

/-- The number of a join record: N = 2, Q = 1, the state given, ARRN and ENR given, STAGE 0x5000, a target of 2 elements. -/
def joinRec (state arrn enr : Nat) : Nat :=
  2 + 1 * 2 ^ 16 + state * 2 ^ 40 + arrn * 2 ^ 48 + 0x6000 * 2 ^ 128 + 0x7000 * 2 ^ 192 + 0x5000 * 2 ^ 256 +
    (plain 0x8000 0 2 1 0).toNat * 2 ^ 384 + enr * 2 ^ 896
/-- A join record at 0x4000 that h4 names, and a contribution in h5. -/
def joinS (state arrn enr : Nat) : State :=
  { setH (setH base 4 (BitVec.ofNat 256 (0x4000 + kJoin * 2 ^ 204))) 5 (plain (near 0x400) 0 2 1 0) with
    mem := memWrite base.mem (bootCode + 0x4000) 192 (joinRec state arrn enr) }
def joinLines : List Nat := [bootCode + 0x4000, bootCode + 0x4040, bootCode + 0x4080]
/-- This context is contributor 0 of the open join. -/
def openS (state : Nat) : State := (joinS state 0 1).modMe (fun x => { x with join := some ⟨0x4000, joinLines, 0, false, none, none⟩ })
def theJoin : OpenJoin := ⟨0x4000, joinLines, 0, false, none, none⟩
def jaccS : State := after (.jacc 4#5 5#5) (openS 1)
/-- The join wants both of its contributors, or all of it has arrived; the address h4 names is bound to a region with a store not
yet performed; the contribution's bytes are busy in another engine. -/
def quorumS : State := { openS 1 with mem := memWrite (openS 1).mem (bootCode + 0x4002) 2 2 }
def coverS : State :=
  let m := memWrite (memWrite (openS 1).mem (Config.polderBase + 40) 8 0x1000) (Config.polderBase + 48) 2 1
  { openS 1 with mem := memWrite m (bootCode + 0x1020) 32 (BindEntry.mk 0x4000 0x10F 0x100 0).bits, stores := [storeOf] }
def busyJacc : State :=
  { openS 1 with ops := [{ flying 70 0 .nop with ctx := 1, ranges := [(spadLoc 0 (near 0x400).toNat, 8)] }] }
def arrivedS : State := (openS 1).modMe (fun x => { x with join := some { theJoin with arrived := true } })
/-- A JARR waits for the last contribution, and the record has been released meanwhile. -/
def lateJarr : State :=
  let s := after (.jarr 6#5 4#5) jaccS
  { s with mem := memWrite s.mem (bootCode + 0x4005) 1 3 }
/-- A straggler whose kill is due for each reason. -/
def killS (f : Ctx → Ctx) : State := (openS 3).modMe (fun x => f { x with join := some { theJoin with kill := some 0 } })
def killAll : List State :=
  [killS (fun x => { x with asleep := true }), killS (fun x => { x with killPoint := true }), killS (fun x => { x with safe := some 1 }),
    { killS id with time := 20000 }, killS (fun x => { x with rowsOwed := [(0, 0)] }), killS (fun x => { x with blocked := true })]

theorem witness_Joining :
    (∀ s ∈ [joinS 0 0 0, joinS 1 0 0, joinS 1 0 1, joinS 2 0 0, joinS 3 0 0], isOk (joinHandle (s.hr 4#5)) 0x4000 = true ∧
      isOk (s.joinLines (s.agentOf s.cur) 0x4000) joinLines = true) ∧
    (let r := (joinS 1 0 0).joinAt joinLines;
      (joinS 1 0 0).me.openJoin = none ∧ r.state = 1 ∧ 1 ≤ r.q ∧ r.q ≤ r.n ∧ r.n ≤ 256 ∧ r.rule ≤ 2 ∧ r.first = 0 ∧
      r.enr.getLsbD 0 = false ∧ okSome ((joinS 1 0 0).spanPages ((joinS 1 0 0).agentOf 0) .write (r.slot r.stage 0) r.size) = true) ∧
    ((joinS 0 0 0).joinAt joinLines).state = 0 ∧ ((joinS 1 0 1).joinAt joinLines).enr.getLsbD 0 = true ∧
    (((joinS 2 0 0).joinAt joinLines).state = 2 ∧ ((joinS 3 0 0).joinAt joinLines).state = 3) ∧
    ((openS 3).released ((openS 3).hr 4#5) = true ∧ (openS 1).released ((openS 1).hr 4#5) = false ∧
      (joinS 1 0 0).me.openJoin = none ∧ arrivedS.me.openJoin = some { theJoin with arrived := true }) := by decide +kernel

theorem witness_Contributing :
    (∀ s ∈ [openS 1, busyJacc], isOk (s.joined (s.hr 4#5) true) theJoin = true ∧ extents (s.joinAt joinLines).target = (2, 1, 1, 1) ∧
      okSome (s.spanPages (s.agentOf 0) .write 0x5000 8) = true ∧ handleOk (s.hr 5#5) = true ∧ hKind (s.hr 5#5) = kPlain ∧
      hFmt (s.hr 5#5) = 0 ∧ hD (s.hr 5#5) = false ∧ handleAligned (s.hr 5#5) = true ∧ extents (s.hr 5#5) = (2, 1, 1, 1) ∧
      okWith (s.anyArg 31#5 1 .read 0 (s.hr 5#5)) (fun x => x.ranges == [(spadLoc 0 (near 0x400).toNat, 8)]) = true) ∧
    ((openS 1).rangesUsed 0 < 64 ∧ (openS 1).rangeBusy 0 (some 8) (spadLoc 0 (near 0x400).toNat) 8 = false ∧
      busyJacc.rangeBusy 0 (some 8) (spadLoc 0 (near 0x400).toNat) 8 = true) ∧
    (∀ p ∈ [(openS 1, true, false, 1), (coverS, false, false, 1), (jaccS, true, true, 1), (openS 3, true, false, 3), (quorumS, true, false, 2)],
      let s := p.1
      isOk (s.joined (s.hr 4#5) true) theJoin = true ∧ s.coveredDone s.cur 0x4000 4 = p.2.1 ∧ s.contributing s.cur = p.2.2.1 ∧
      s.collNames joinLines = false ∧ s.saved = []) ∧
    (((openS 3).joinAt joinLines).state = 3 ∧ (quorumS.joinAt joinLines).arrn + 1 ≠ (quorumS.joinAt joinLines).q ∧
      ((openS 1).joinAt joinLines).arrn + 1 = ((openS 1).joinAt joinLines).q ∧
      joinLines.Pairwise (fun x y => x + 64 ≤ y ∨ y + 64 ≤ x)) ∧
    (isOk ((openS 3).joined ((openS 3).hr 4#5) false) theJoin = true ∧ ((openS 1).joinAt joinLines).state ≠ jReleased) ∧
    (∀ s ∈ [jaccS, lateJarr], s.ready? 8 (lastOp s).id = some (lastOp s) ∧ s.poison = [] ∧ isLocal ((lastOp s).arg 1).base = true ∧
      (lastOp s).pops = []) ∧
    ((lateJarr.joinAt joinLines).state = 3 ∧ (lastOp lateJarr).recvs = joinLines ∧ (lateJarr.ctx 0).openJoin = some { theJoin with arrived := true } ∧
      (lateJarr.loads.find? (fun l => l.ctx == 0 && l.kind == .arrival)).isSome = true) := by
  decide +kernel

theorem witness_Releasing :
    ((openS 1).saved = [] ∧ ((openS 1).ctx 0).holdsJoin joinLines 0 = some theJoin ∧ tblFind (openS 1).ctxs 0 ≠ none ∧
      ((openS 1).joinAt joinLines).enr.getLsbD 0 = true ∧ ((openS 1).joinAt joinLines).map.getLsbD 0 = false) ∧
    (let h := ((openS 1).joinAt joinLines).target;
      isLocal (hBase h) = false ∧ hLrec h = 0 ∧ extents h = (2, 1, 1, 1) ∧
      ∀ m, m < 8 → isOk ((openS 1).byteAt ((openS 1).ownAgent 0) .write (hBase h + BitVec.ofNat 64 m)) (bootCode + 0x8000 + m) = true) ∧
    (∀ s ∈ killAll, s.killDue 0 = true ∧ s.me.task ≠ none ∧ s.me.ending = .none ∧ s.me.owed = 0 ∧ s.me.recompute = none ∧ s.ops = []) ∧
    (openS 3).killDue 0 = false := by
  decide +kernel

/-- A collective record for two ranks: one level of one iteration, each rank sends 64 bytes at 0x9000 to the other's near 0x400,
its gauge at near 0x800. -/
def collRec : Nat :=
  2 + 1 * 2 ^ 16 + 1 * 2 ^ 80 + 64 * 2 ^ 128 + 0x9000 * 2 ^ 192 + (near 0x400).toNat * 2 ^ 256 + (near 0x800).toNat * 2 ^ 320 +
    1 * 2 ^ 512
/-- The record at 0xA000, and a group of two modules. -/
def collS : State :=
  { setS base 4 0xA000 with
    mem := memWrite base.mem (bootCode + 0xA000) 256 collRec, fabric := { base.fabric with members := [0, 1] }, seq := 9 }
def collGoing : State := after (.coll 4#5) collS
def coll0 : Coll := collGoing.colls.getLastD going
/-- The other member's transfer has arrived. -/
def collStaged : State :=
  { collGoing with cores := [(0, { Core.reset with staging := [⟨1, 0, coll0.rec_.digest, List.replicate 64 1#8, none⟩] })] }
/-- The collective's one turn is folded and its one transfer sent. -/
def collFolded : State := { collGoing with colls := [{ coll0 with sent := 1, folded := [(0, 1)] }] }
def collDone : State := setS { collGoing with colls := [{ coll0 with done := true }] } 4 1

theorem witness_Collectives :
    ((∃ p, collS.collCheck 4#5 none = .ok p) ∧ (∃ u, base.collCheck 4#5 none = .error (.trap u)) ∧
      ∃ u, base.collCheck 4#5 (some 5#5) = .error (.trap u)) ∧
    ((setS collGoing 4 1).colls.find? (fun o => o.ctx == (setS collGoing 4 1).cur && o.ident == 1#32 && 1#32 != 0#32 &&
        (lastIdents (setS collGoing 4 1).me.eng.collLast).contains 1#32) = some coll0 ∧ coll0.done = false ∧
      collDone.colls.find? (fun o => o.ctx == collDone.cur && o.ident == 1#32 && 1#32 != 0#32 &&
        (lastIdents collDone.me.eng.collLast).contains 1#32) = some { coll0 with done := true } ∧
      (∀ f ∈ collDone.me.faults, f.engine ≠ 5)) ∧
    (collGoing.colls.find? (fun u => u.id == coll0.id) = some coll0 ∧ coll0.sent < coll0.rec_.total ∧
      coll0.rec_.peer coll0.rank coll0.sent = some 1 ∧ 1 ≠ coll0.rank ∧ 1 ∉ coll0.evicted) ∧
    ((⟨4 + 0 * 2 ^ 16 + 2 ^ 40 + 2 ^ 96 * 8 + 2 ^ 512⟩ : CollRec).peer 5 0 = none) ∧
    (collFolded.colls.find? (fun u => u.id == coll0.id) = some { coll0 with sent := 1, folded := [(0, 1)] } ∧
      ({ coll0 with sent := 1, folded := [(0, 1)] } : Coll).rec_.total ≤ 1 ∧
      ∀ turn ∈ coll0.turns, ({ coll0 with sent := 1, folded := [(0, 1)] } : Coll).settled turn = true) ∧
    (base.part.fabric = true ∧ 3 < 96 * base.part.cubes ∧ (base.core 3).staged + 64 ≤ 65536) := by
  refine ⟨⟨some_ok (by decide +kernel), verdict_trap (by decide +kernel), verdict_trap (by decide +kernel)⟩, ?_⟩
  decide +kernel

/-- The same record with another peer rule: to itself, to none; the other member evicted; an older store still pending; a full
staging of core 0; a link lost; a join named. -/
def collWith (rec : Nat) : State := after (.coll 4#5) { collS with mem := memWrite base.mem (bootCode + 0xA000) 256 rec }
def collSelf : State := collWith (collRec - 2 ^ 80)
def collNone : State := collWith (collRec + 2 ^ 40 + 2 ^ 97)
def collEvicted : State := { collGoing with colls := [{ coll0 with evicted := [1] }] }
def collHeld : State := { collGoing with stores := [storeOf] }
def crowd : List Transfer := List.replicate 16 ⟨7, 7, 0, List.replicate 4096 0, none⟩
def full (s : State) : State := { s with cores := [(0, { Core.reset with staging := crowd })] }
def collJS : State :=
  let m := memWrite collS.mem (bootCode + 0x4000) 192 (joinRec 1 0 0)
  after (.collJ 4#5 5#5) (setH { collS with mem := m } 5 (BitVec.ofNat 256 (0x4000 + kJoin * 2 ^ 204)))
def collJ0 : Coll := collJS.colls.getLastD going
/-- The collective that joined has missed its one turn, its member evicted, and sent all. -/
def collJDone : State := { collJS with colls := [{ collJ0 with sent := 1, missed := [(0, 1)], evicted := [1] }] }
def lastColl (s : State) : Coll := s.colls.getLastD going
def sendsTo (s : State) (p : Option Nat) : Bool :=
  let o := lastColl s
  decide (s.colls.find? (fun u => u.id == o.id) = some o) && !o.done && s.collFree o && o.switchAt.isNone && decide (o.sent < o.rec_.total) &&
    decide (o.rec_.peer o.rank o.sent = p)

theorem witness_CollectiveSends :
    collHeld.collFree coll0 = false ∧ sendsTo collGoing (some 1) = true ∧ sendsTo collSelf (some 0) = true ∧
    sendsTo collNone none = true ∧ sendsTo collEvicted (some 1) = true ∧
    (collSelf.core 0).staged = 0 ∧ ((full collSelf).core 0).staged = 65536 ∧ (full collSelf).turnCome 0 ⟨0, 0, 0, List.replicate 64 0, none⟩ = true ∧
    ((full base).core 0).staged + 64 = 65600 ∧ (full base).turnCome 0 ⟨1, 0, 0, List.replicate 64 0, none⟩ = false := by
  decide +kernel

theorem witness_CollectiveEnds :
    (collEvicted.nextTurn (lastColl collEvicted) = some (0, 1) ∧ collEvicted.stagedFor (lastColl collEvicted) (0, 1) = none ∧
      collEvicted.collFree (lastColl collEvicted) = true) ∧
    (collJ0.join.map (·.lines) = some joinLines ∧ collJ0.rec_.total = 1 ∧
      (∀ turn ∈ collJ0.turns, (lastColl collJDone).settled turn = true) ∧ (lastColl collJDone).unacked = []) ∧
    (coll0.sent < coll0.rec_.total ∧ coll0.rec_.fallback = 0#64 ∧ collGoing.part.fabric = true) ∧
    ({ collGoing with fabric := { collGoing.fabric with downLinks := [(0, 1)] } }.reachesAll coll0 coll0.rec_ coll0.needs = true) ∧
    ({ collGoing with fabric := { collGoing.fabric with downLinks := (List.range 16).map (fun p => (p, 1)) } }.reachesAll coll0 coll0.rec_
      coll0.needs = false) ∧
    collGoing.colls = [coll0] := by
  decide +kernel

theorem core_of_one (s : State) (k : Core) : State.core { s with cores := [(0, k)] } 0 = k := rfl

/-- The staged transfer is the next to fold. -/
theorem witness_Collectives_fold : ∃ x, collStaged.nextTurn coll0 = some (0, 1) ∧ collStaged.stagedFor coll0 (0, 1) = some x ∧
    x.digest = coll0.rec_.digest := by
  have h : (collStaged.stagedFor coll0 (0, 1)).isSome = true := by decide +kernel
  obtain ⟨x, hx⟩ := Option.isSome_iff_exists.mp h
  refine ⟨x, by decide +kernel, hx, ?_⟩
  rw [State.stagedFor] at hx
  have m := List.mem_of_find?_eq_some hx
  have e : coreOf coll0.ctx = 0 := by decide +kernel
  rw [e, collStaged, core_of_one] at m
  rw [List.mem_singleton.mp m]

/-- A transfer of another record arrives for the collective's turn; one arrives at a core with no collective. -/
def strange : Transfer := ⟨1, 0, coll0.rec_.digest + 1#32, List.replicate 64 1#8, none⟩
theorem witness_CollectiveArrivals :
    strange.digest ≠ coll0.rec_.digest ∧
    (collGoing.claimant 0 strange = some coll0 ∧ coll0.switchAt = none ∧ collGoing.lands 0 strange = true ∧ (collGoing.core 0).staging = [] ∧ collGoing.fromEvicted 0 strange = false ∧
      1 < collGoing.fabric.members.length) ∧
    (collGoing.lands 3 strange = true ∧ collGoing.claimant 3 strange = none ∧ (collGoing.core 3).staging = []) ∧
    (full collGoing).lands 0 { strange with chunk := 4, data := List.replicate 4096 0#8 } = false ∧
    (collS.fabric.downLinks = [] ∧ (collS.core 0).staging = []) := by
  refine ⟨?_, by decide +kernel⟩
  simp only [strange]
  generalize coll0.rec_.digest = d
  bv_omega

def forecastS : State := State.modCtx { base with time := 5000 } 0 (fun x => { x with forecast := some ⟨1, 0, 0, 2000⟩ })
/-- A cube whose governor is at the calm count given and whose hottest die reads `hot` quarters of a degree. -/
def governS (calm : Nat) (hot : Int) : State :=
  { base with cycles := 5000, cubes := [(0, { Cube.reset with calm := calm, govStep := 3, sensors := [(0, hot)] })] }

theorem witness_PowerAndClocks :
    ((forecastS.ctx 0).forecast = some ⟨1, 0, 0, 2000⟩ ∧ 2000 ≤ forecastS.time ∧ forecastS.fcastAt + 1000 ≤ forecastS.time) ∧
    (((governS 0 430).cube 0).govWindow < (governS 0 430).cycles / 1024 ∧ 420 ≤ ((governS 0 430).cube 0).hottest ∧
      (((governS 0 400).cube 0).hottest < 420 ∧ 4 * ((governS 0 400).cube 0).govTlim.toNat ≤ ((governS 0 400).cube 0).hottest) ∧
      (¬(((governS 15 0).cube 0).govPlim.toNat < 100 ∨ 4 * ((governS 15 0).cube 0).govTlim.toNat ≤ ((governS 15 0).cube 0).hottest ∨
          ((governS 15 0).cube 0).droop = true) ∧ ((governS 15 0).cube 0).calm = 15 ∧ ((governS 3 0).cube 0).calm ≠ 15 ∧
        100 * 100 < 95 * ((governS 15 0).cube 0).govPlim.toNat ∧
        ((governS 15 0).cube 0).hottest + 12 ≤ 4 * ((governS 15 0).cube 0).govTlim.toNat) ∧
      ¬(100 * 1450 < 95 * ((governS 15 0).cube 0).govPlim.toNat)) ∧
    (base.rontal.port.length ≤ 256 ∧ (base.telAt + 1) * 250000 ≤ { base with time := 250000 }.time ∧
      ({ base with time := 1000000, telAt := 4 }.telAggAt + 1) * 1000000 ≤ 1000000 ∧
      4 * ({ base with time := 1000000, telAt := 4 }.telAggAt + 1) ≤ 4) := by decide +kernel

/-- A region a period count of which is near the bound and one that alarms; a cube with two sensors read. -/
def regionOf (n : Nat) (d : Bool) : State := base.modRegion 30 (fun x => { x with periods := n, droop := d })

theorem witness_Regions :
    ((regionOf 1800 false).region 30).droop = false ∧ 100 * 1800 ≤ 102 * ((regionOf 1800 false).ceiling * 100 / 115) ∧
    102 * ((regionOf 1900 false).ceiling * 100 / 115) < 100 * 1900 ∧ 104 * ((regionOf 1900 true).ceiling * 100 / 115) ≤ 100 * 1900 ∧
    100 * 1800 < 104 * ((regionOf 1800 true).ceiling * 100 / 115) ∧ base.part.cubes ≤ 2 ∧ base.telSize = 0#4 ∧
    (base.tasksOf 1 = [] ∧ base.queued = false) := by decide +kernel

def busS (n : Nat) (again : Bool) : State :=
  { base with
    cubes := [(0, { Cube.reset with busRun := some (n, again) })]
    ops := [{ flying 4 0 .nop with started := true }] }
def pendingMap : State := { base with columns := [(4, { Column.reset with wsBuses := [(1, 5)], pend := true })] }
/-- An elevator drained since 1000, and a copy that has lost packets there `n` times, last sent at 2000. -/
def elevatorS (n : Nat) : State :=
  { base with
    time := 19000, cubes := [(0, { Cube.reset with elevators := [(2, (1000, false))] })]
    ops := [flying 3 4 .sadv], retries := [(3, ⟨n, 2000, true⟩)] }

theorem witness_StackMaintenance :
    ({ base with time := 10000000 }.cubeLive 0 = true ∧ (base.cube 0).testEn = true ∧ (base.cube 0).busRun = none ∧
      (base.cube 0).busAt + 1000000 * max 1 (base.cube 0).testPeriod.toNat ≤ 10000000 ∧
      ({ base with time := 10000000 }.nextBus 0 (base.cube 0).busNext).isSome = true ∧ base.time < 1000000) ∧
    (((busS 5 false).cube 0).busRun = some (5, false) ∧ (∀ n ∈ [1, 5, 8], ((busS n true).cube 0).busRun = some (n, true)) ∧
      1 % 9 < 3 ∧ 3 ≤ 5 % 9 ∧ 5 % 9 < 8 ∧ 8 % 9 = 8 ∧
      ∃ o ∈ (busS 1 true).ops, o.engine = 0 ∧ o.core = 1 / 81 ∧ o.started = true) ∧
    ((pendingMap.column 4).pend = true ∧ pendingMap.mapFree 4 = true ∧ (base.column 4).pend = false) ∧
    (tblFind ((elevatorS 1).cube 0).elevators 2 = some (1000, false) ∧ 1000 + 4000 ≤ (elevatorS 1).time) ∧
    (∀ n ∈ [3, 4], (elevatorS n).ops.find? (fun p => p.id == 3) = some (flying 3 4 .sadv) ∧
      tblFind (elevatorS n).retries 3 = some ⟨n, 2000, true⟩ ∧ 2000 + 16000 ≤ (elevatorS n).time) ∧
    ((flying 3 4 .sadv).entry = none ∧ { elevatorS 1 with time := 3000 }.time < 2000 + 16000) := by decide +kernel

/-- The fifth sample waits for the aggregate of the four before it. -/
theorem witness_TelemetryOrder : { base with telAt := 4 }.telAggAt < { base with telAt := 4 }.telAt / 4 ∧ base.telAt / 4 ≤ base.telAggAt := by
  decide +kernel

/-- A product that folds over the first bundle of core 0's lowest interface, whose test is in its second run. -/
def foldingS : State := { busS 1 true with ops := [{ flying 4 0 (.cmm 4#5 5#5 6#5) with
  started := true, regs := { EngRegs.reset with cube := { EngRegs.reset.cube with lmask := 3 } } }] }
/-- A vector operation with a chain entry reserved whose transaction was lost a fifth time. -/
def lostChain : State := { elevatorS 4 with
  ops := [{ flying 3 1 .nop with chainOut := some 0 }]
  cores := [(0, { Core.reset with chain := Vector.replicate 3 [⟨3, 0, 0#4, (1, 1, 1, 1), [], false, false, false⟩] })] }
theorem witness_StackMaintenance_work :
    (∃ o ∈ foldingS.ops, o.isProduct = true ∧ o.core = 0 ∧ o.started = true ∧
      foldingS.foldUses 0 (o.regs.cube.layers.getLastD 0) 0 1 = true) ∧
    (∀ o ∈ lostChain.ops, lostChain.ops.find? (fun p => p.id == 3) = some o ∧ o.entry = none ∧ o.engine ≠ 4 ∧ o.engine ≠ 6 ∧
      o.pops = [] ∧ o.chainOut = some 0 ∧ (lostChain.core o.core).queue 0 ≠ []) ∧
    tblFind lostChain.retries 3 = some ⟨4, 2000, true⟩ := by
  refine ⟨⟨_, List.mem_singleton_self _, by decide +kernel⟩, by decide +kernel, by decide +kernel⟩

def owesS : State := base.modMe (fun x => { x with owed := 2, shadow := [⟨.scalar, 3#5, 7, 0⟩, ⟨.handle, 4#5, 8, 1⟩] })
def asyncS : State := { withHandler with ctxs := [(0, { withHandler.ctx 0 with
  asyncs := [{ cause := cMcheck, async := true }, { cause := cAlign, async := true }, { cause := cMcheck, async := true }] })] }
def idleS : State := asyncS.modMe (fun x => { x with asleep := true })

/-- The write queue is full and the next word, mul s3, s4, s5, needs room; one stall step is owed. -/
def roomS : State :=
  (State.reset.withFetchWord 32 0x84464280).modMe (fun x => { x with shadow := List.replicate 8 ⟨.scalar, 3#5, 7, 5⟩ })
def oweOne : State := base.modMe (fun x => { x with owed := 1 })
/-- A straggler that sleeps with its kill pending, and one asked to stop. -/
def sleepsS (f : Ctx → Ctx) : State := base.modMe (fun x => f { x with asleep := true })

theorem witness_StallSteps :
    roomS.ahead 0 = .room ∧ (roomS.ctx 0).owed = 0 ∧ base.ahead 0 ≠ .room ∧
    ((oweOne.ctx 0).owed = 1 ∧ (oweOne.ctx 0).xfer = none ∧ (oweOne.ctx 0).edges = [] ∧ (oweOne.ctx 0).after = none ∧
      (oweOne.ctx 0).preempt = .none) ∧
    (∀ s ∈ [idleS, sleepsS (fun x => { x with preempt := .req 0 })], s.killDue 0 = false ∧ (s.ctx 0).asleep = true) := by
  decide +kernel

theorem witness_StepsAndAsynchronousEvents :
    1 < (owesS.ctx 0).owed ∧ (∃ w, (owesS.ctx 0).shadow = [] ++ w :: [⟨.handle, 4#5, 8, 1⟩] ∧ w.left = 0 ∧ w.file = .scalar) ∧
    (cAlign.toNat < cMcheck.toNat ∧ (asyncS.ctx 0).task ≠ none ∧ (asyncS.ctx 0).ending = .none ∧ (asyncS.ctx 0).stopped = false ∧
      (asyncS.ctx 0).inh = false ∧ cAlign ≠ cRecompute ∧ cAlign ≠ cBreak ∧ asyncS.handlerOf 0 ≠ 0#64) ∧
    (handling.ctx 0).inh = true ∧ ((idleS.ctx 0).asleep = true ∧ (idleS.ctx 0).asyncs ≠ []) :=
  ⟨by decide +kernel, ⟨⟨.scalar, 3#5, 7, 0⟩, by decide +kernel, rfl, rfl⟩, by decide +kernel, by decide +kernel, by decide +kernel⟩

/-- Two ready contexts on core 0; the holder, if any, and the context promised the slot. -/
def slotS (holder prefer : Option Nat) (yields : Bool) : State :=
  { base with
    ctxs := [(0, { base.ctx 0 with yielded := yields }), (1, { base.ctx 0 with task := some ⟨0, 1, 0, 0⟩ })]
    cores := [(0, { Core.reset with holder := holder, prefer := prefer })], cycles := 20000 }
/-- Every task of cube 0 is blocked, and a chain queue is full or not. -/
def stuckS (full : Bool) : State :=
  { base with
    ctxs := [(0, { base.ctx 0 with blocked := true, waitFrom := some 0 })], cycles := 20000
    cores := [(0, { Core.reset with chain := Vector.replicate 3 (if full then List.replicate 8 ⟨0, 0, 0#4, (1, 1, 1, 1), [], true, false, false⟩ else []) })] }

/-- Core 0's receive staging is full and no chain queue is; a queue that has one chunk of the spillway. -/
def stagingS : State :=
  { stuckS false with
    cores := [(0, { Core.reset with staging := crowd })], inputs := [.collectiveTransferArrival none 0 1 0 5 [1#8]]
    part := { base.part with fabric := true }, fabric := { base.fabric with members := [0, 1] } }
def chunkyS (used : Nat) : State :=
  { base with
    cores := [(0, { Core.reset with
      chunks := Core.reset.chunks.map (fun _ => 1)
      chain := Vector.replicate 3 (List.replicate used ⟨0, 0, 0#4, (1, 1, 1, 1), [], true, false, false⟩) })] }

theorem witness_Spillway :
    (stagingS.deadlocked 0 = true ∧ stagingS.fullQueues 0 = [(65536, 0, 3)] ∧ stagingS.freeChunks 0 = 64) ∧
    ((stagingS.core 0).staged ≤ 65536 ∧ base.deadlocked 0 = false) ∧
    ((((chunkyS 9).core 0).queue 1).length = 9 ∧ ((chunkyS 9).core 0).capacity 1 = 24 ∧ (((chunkyS 3).core 0).queue 1).length = 3) := by
  decide +kernel

theorem witness_SelectorAndDeadlock :
    (∀ p ∈ [none, some 1], ((slotS (some 0) p false).core 0).holder = some 0 ∧ (slotS (some 0) p false).isReady 0 = true ∧
      ((slotS (some 0) p false).ctx 0).owed = 0 ∧ ((slotS (some 0) p false).core 0).prefer = p) ∧
    (owesS.isReady 0 = true ∧ (owesS.ctx 0).owed ≠ 0) ∧ (slotS (some 0) (some 1) false).isReady 1 = true ∧
    (((slotS (some 0) none true).ctx 0).yielded = true ∧ 1 ∈ (slotS (some 0) none true).readyOn 0 ∧
      (slotS (some 0) none true).selected 0 = some 1) ∧
    (((slotS none none false).core 0).holder = none ∧ ((slotS none none false).core 0).prefer = none ∧
      (slotS none none false).selected 0 = some 0) ∧
    (((slotS (some 0) none false).core 0).since + 4096 ≤ (slotS (some 0) none false).cycles ∧
      (slotS (some 0) none false).prioOf 0 ≤ (slotS (some 0) none false).prioOf 1) ∧
    ((slotS (some 0) none false).core (coreOf 1)).holder ≠ some 1 ∧ 16384 ≤ (slotS (some 0) none false).waited 1 ∧
    ({ base with time := 1000000 }.windowAt < 1000000 / 1000000) ∧
    ((stuckS true).deadlocked 0 = true ∧ (stuckS true).fullQueues 0 ≠ [] ∧ (stuckS true).freeChunks 0 ≠ 0) ∧
    ((stuckS false).deadlocked 0 = true ∧ (stuckS false).fullQueues 0 = []) ∧
    ((stuckS true).core 0).queue 0 ≠ [] ∧ (((stuckS true).core 0).queue 0).length ≤ 8 := by decide +kernel

/-- A producer launch of the record at a location has ended; context 0 waits for it. -/
def producedS (failed : Bool) : State :=
  { withHandler.modMe (fun x => { x with recompute := some (6#5, bootCode + 0x1000), blocked := true }) with
    launches := [bootLaunch, { bootLaunch with id := 4, failed := failed, begun := 2, ended := 1, consumer := some (bootCode + 0x1000) }] }
/-- The producer has not ended yet; it failed with no context waiting. -/
def producingS : State :=
  { producedS false with launches := [bootLaunch, { bootLaunch with id := 4, begun := 2, ended := 0, consumer := some (bootCode + 0x1000) }] }
def orphanS : State := (producedS true).modMe (fun x => { x with recompute := none })
def producer (failed : Bool) : Launch :=
  { bootLaunch with id := 4, failed := failed, begun := 2, ended := 1, consumer := some (bootCode + 0x1000) }

theorem witness_RecomputeEnds : ∀ f ∈ [false, true],
    (producedS f).launches.find? (fun l => l.id == (producer f).id) = some (producer f) ∧
    (producer f).consumer = some (bootCode + 0x1000) ∧ (producedS f).runners 4 = [] ∧ ((producedS f).ctxs.map (·.1)).Nodup ∧
    (producer f).failed = f ∧ (producer f).begun ≠ 0 ∧ (producer f).ended = (producer f).tasks ∧
    ((producedS f).ctx 0).recompute = some (6#5, bootCode + 0x1000) ∧
    (producedS f).consumers (bootCode + 0x1000) = [(0, 6#5)] ∧ ((producedS f).ctx 0).inh = false ∧
    ((producedS f).store (bootCode + 0x1000 + 48) 1 0).handlerOf 0 ≠ 0#64 ∧ producingS.runners 4 = [] ∧
    orphanS.consumers (bootCode + 0x1000) = [] := by decide +kernel

/-- The holder owes stall steps, and yields or does not. -/
def owesSlotS (yields : Bool) : State := State.modCtx (slotS (some 0) (some 1) yields) 0 (fun x => { x with owed := 2 })
theorem witness_SlotAfterYield : ∀ y ∈ [true, false], ((owesSlotS y).core 0).holder = some 0 ∧ (owesSlotS y).isReady 0 = true ∧
    ((owesSlotS y).ctx 0).owed ≠ 0 ∧ ((owesSlotS y).ctx 0).yielded = y ∧ ((owesSlotS y).core 0).prefer = some 1 ∧
    (owesSlotS y).isReady 1 = true := by decide +kernel

/-- Queue 0 in local memory at 0x200000000 with one entry posted, which names the record at 0xB000; the record's code lies at `code`. -/
def queueS (code : Nat) (held : Bool) : State :=
  { base with
    queues := [(0, { Queue.reset with base := 0x200000000, loc := true, en := true, size := 1, tail := 1 })], doorbells := [(0, 1#16)]
    rontal := { base.rontal with fdstat := if held then 1 else 0 }
    mem := memWrite (memWrite (memWrite base.mem 0x200000000 8 0xB000) (bootCode + 0xB000) 136
      (code + 2 ^ 83 + 2 ^ 88 + 2 ^ 96 + 64 * 2 ^ 128 + 0x77 * 2 ^ 1024)) (Config.polderBase + 2) 2 1 }
def takenS : State := event (execLaunchBegin (queueS 0x40 false)) (queueS 0x40 false)
def newLaunch : Launch := takenS.launches.getLastD bootLaunch
def found (s : State) : Chk (Machine.Header × List Word) :=
  ((s.setQueue 0 { s.queue 0 with head := 1 }).trimDoorbells).readRecord ⟨0, true, 0, 0⟩ 0xB000
/-- The reason to reject the record that the queue names. -/
def reasonIs (s : State) (n : Nat) (held : Bool) : Bool :=
  let u := (s.setQueue 0 { s.queue 0 with head := 1 }).trimDoorbells
  match found s with
  | .ok (h, _) => u.rejectReason ⟨0, true, none⟩ h == n && (u.domainHeld (u.effField 1 h.polder 7 1) || u.remapping h.polder) == held
  | .error _ => false

theorem witness_LaunchQueues :
    (∀ p ∈ [(0x40, false), (0x41, false), (0x40, true)], (queueS p.1 p.2).rontal.state = 2#3 ∧ (queueS p.1 p.2).nextProducer = none ∧
      (queueS p.1 p.2).heldLaunches.find? (queueS p.1 p.2).heldReady = none ∧ (queueS p.1 p.2).nextQueue = some 0) ∧
    { base with rontal := { base.rontal with state := 1 } }.rontal.state ≠ 2#3 ∧
    (okSome (found (queueS 0x40 false)) = true ∧ reasonIs (queueS 0x40 false) 0 false = true ∧
      reasonIs (queueS 0x41 false) 2 false = true ∧ reasonIs (queueS 0x40 true) 0 true = true) ∧
    (∃ u, found { queueS 0x40 false with mem := memWrite (queueS 0x40 false).mem Config.asidBase 8 0 } = .error (.trap u)) :=
  ⟨by decide +kernel, by decide, by decide +kernel, verdict_trap (by decide +kernel)⟩

/-- A launch that waits for its one task to be placed, its address not mapped, on a part where only core 0 is mapped. -/
def placeL (prio : Nat) : Launch :=
  { bootLaunch with id := 4, prio := prio, nextGroup := 0, begun := 2, addrs := [0x100000000000#64], spad := 64, sporg := 0, accn := 0 }
def placeS (busy : Bool) (prio : Nat) : State :=
  { base with
    part := { base.part with cubes := 1 }, ctxs := if busy then [(0, base.ctx 0)] else []
    cubes := [(0, { Cube.reset with cmap := (List.range 95).map (fun k => (k + 1, none)) })]
    launches := [bootLaunch, placeL prio], waiting := [4] }

theorem witness_GroupPlacement :
    (∀ p ∈ [(false, 0), (true, 0), (true, 1)], (placeS p.1 p.2).waits (placeL p.2).id = some (placeL p.2) ∧
      ∀ m ∈ (placeS p.1 p.2).launches, m.id = (placeL p.2).id → m.failed = false) ∧
    ((placeS false 0).findPlace (placeL 0) 0 false = some [0] ∧ (placeL 0).groupAddrs 0 = [0x100000000000#64] ∧
      (placeS false 0).placedFirst 4 = false ∧ (placeS false 0).freeOn 0 [] = [0, 1, 2, 3] ∧ (placeL 0).imgn = 0 ∧ (placeL 0).sched = 0#64) ∧
    ((placeS true 0).findPlace (placeL 0) 0 false = none ∧ (placeS true 0).victim (placeL 0) = none) ∧
    ((placeS true 1).findPlace (placeL 1) 0 false = none ∧ (placeS true 1).preempting = false ∧
      (placeS true 1).victim (placeL 1) = some [0]) := by decide +kernel

def endS (e : Ending) (tasks : Nat) : State :=
  { base.modMe (fun x => { x with ending := e }) with launches := [{ bootLaunch with tasks := tasks, queue := some (0, 0) }] }
def stoppedS : State := { endS .stopped 1 with launches := [{ bootLaunch with failed := true }] }

theorem witness_TaskEnds :
    ((endS .finished 1).ctx 0).task = some ⟨0, 0, 0, 0⟩ ∧
    (endS .finished 1).launches.find? (fun m => m.id == 0) = some { bootLaunch with queue := some (0, 0) } ∧
    ((endS .finished 1).ctx 0).owed = 0 ∧ ((endS .finished 1).ctx 0).ending ≠ .none ∧
    (∀ o ∈ (endS .finished 1).ops, ¬(o.ctx = 0 ∧ o.engine = 4 ∧ o.entry = none)) ∧
    ((endS .finished 1).opsDone 0 = true ∧ (endS .finished 1).loadsDone 0 = true ∧ (endS .finished 1).storesDone 0 4 = true) ∧
    { endS .finished 1 with stores := [storeOf] }.storesDone 0 4 = false ∧
    ((endS .finished 1).ctx 0).ending ≠ .stopped ∧ bootLaunch.ended + 1 = bootLaunch.tasks ∧ bootLaunch.ended + 1 ≠ 2 ∧
    ((stoppedS.ctx 0).ending = .stopped ∧ stoppedS.launches.find? (fun m => m.id == 0) = some { bootLaunch with failed := true }) ∧
    (∀ n, n < 8 → ((base.ctx 0).binding n).bound = false) ∧ bootLaunch.done = none ∧ bootLaunch.queue = none := by decide +kernel

/-- A context asked to stop at 1,000, or stopped. -/
def askedS (p : Preempt) (pclass : Nat) : State :=
  { base.modMe (fun x => { x with preempt := p }) with
    time := 90000, launches := [{ bootLaunch with pclass := pclass, spad := 64 }], mem := memWrite base.mem (spadLoc 0 (2 ^ 63)) 4 0x01020304 }
def savedS : State := event (execSave 0 (askedS (.stopped 1000 true (BitVec.allOnes 32)) 0)) base
def savedG : SavedGroup := savedS.saved.headD ⟨0, 0, [], []⟩
def savedX : SavedCtx := savedG.ctxs.headD ⟨0, Ctx.reset, [], [], [], [], []⟩

theorem witness_PreemptionOfTasks :
    (∀ k ∈ [0, 1], ((askedS (.req 1000) k).ctx 0).preempt = .req 1000 ∧
      (askedS (.req 1000) k).launchOf 0 = some { bootLaunch with pclass := k, spad := 64 } ∧
      ((askedS (.req 1000) k).ctx 0).ending = .none ∧ 1000 + max 1000 (askedS (.req 1000) k).pdl.toNat ≤ (askedS (.req 1000) k).time) ∧
    (let s := askedS (.stopped 1000 true (BitVec.allOnes 32)) 0;
      (s.ctx 0).preempt = .stopped 1000 true (BitVec.allOnes 32) ∧ (s.ctx 0).task = some ⟨0, 0, 0, 0⟩ ∧ (s.ctx 0).ending = .none ∧
      s.discharged 0 1000 = true ∧ (s.ctx 0).dying = false ∧ (∀ g ∈ s.saved, ∀ y ∈ g.ctxs, y.image.dying = false) ∧
      (∀ o ∈ s.ops, o.ctx ≠ 0) ∧ ∃ p ∈ s.mem, spadLoc 0 (s.spadOf 0).1 ≤ p.1 ∧ p.1 < spadLoc 0 (s.spadOf 0).1 + (s.spadOf 0).2) ∧
    (savedS.saved[0]? = some savedG ∧ savedG.ctxs = [savedX] ∧
      savedS.launches.find? (fun m => m.id == savedG.launch) = some { bootLaunch with spad := 64 } ∧
      savedS.mayReturn' savedG { bootLaunch with spad := 64 } = true ∧ savedS.freeOn savedX.place [] = [0, 1, 2, 3] ∧
      savedX.image.preempt = .none ∧ savedX.image.edges = [] ∧ savedX.image.after = none ∧ savedX.image.xfer = none ∧
      savedX.spad ≠ []) := by decide +kernel

/-- A part that is not ready; a part already pre-empting; a queue whose part is not ready. -/
def downS (s : State) : State := { s with rontal := { s.rontal with state := 1 } }
def preS : State := (placeS true 1).modCtx 0 (fun x => { x with preempt := .req 5 })
/-- A task that is killed with a copy in flight, that ends owing stall steps, that ends with a launch that counts in DONE at 0x9000. -/
def killedS : State := { endS .killed 2 with ops := [flying 70 4 .nop] }
def owingS : State := (endS .finished 1).modMe (fun x => { x with owed := 2 })
def doneS : State := { endS .finished 2 with launches := [{ bootLaunch with tasks := 2, done := some 0x9000 }] }
/-- A context with a stream binding to h6 that its live mask leaves out; one with a copy in flight. -/
def bindingS : State :=
  let s := askedS (.stopped 1000 true (BitVec.ofNat 32 (2 ^ 32 - 1 - 2 ^ 4))) 0
  s.modMe (fun x => { x with binds := (streamS 0).me.binds, hregs := (streamS 0).me.hregs })
def copyingS : State := { askedS (.stopped 89999 true (BitVec.allOnes 32)) 0 with ops := [flying 70 4 .nop] }
def accS : State :=
  let s := askedS (.stopped 1000 true (BitVec.allOnes 32)) 0
  let s := { s with launches := [{ bootLaunch with spad := 64, accn := 1 }] }
  { s with mem := memWrite s.mem (spadLoc 0 (accBase + 8)) 4 9 }

theorem witness_LaunchesMore :
    ((downS (placeS true 0)).rontal.state ≠ 2#3 ∧ preS.preempting = true ∧ preS.findPlace (placeL 1) 0 false = none) ∧
    ((owingS.ctx 0).owed ≠ 0 ∧ (killedS.ctx 0).ending = .killed ∧ ∃ o ∈ killedS.ops, o.ctx = 0 ∧ o.engine = 4 ∧ o.entry = none) ∧
    (let l : Launch := { bootLaunch with tasks := 2, done := some 0x9000 };
      doneS.launches.find? (fun m => m.id == 0) = some l ∧ l.queue = none ∧ doneS.poison = [] ∧
      okWith (doneS.spanPages l.agent .write 0x9000 8) (fun _ => true) = true) ∧
    ((bindingS.ctx 0).binding 1 = ⟨0, ((streamS 0).me.binding 1).fillSeq, ((streamS 0).me.binding 1).sched, 6, true⟩ ∧
      bindingS.discharged 0 1000 = true ∧ (BitVec.ofNat 32 (2 ^ 32 - 1 - 2 ^ 4)).getLsbD 4 = false ∧
      (BitVec.ofNat 32 (2 ^ 32 - 1 - 2 ^ 4)).getLsbD 25 = true) ∧
    copyingS.discharged 0 89999 = false ∧
    (accS.discharged 0 1000 = true ∧ ∃ p ∈ accS.mem, spadLoc 0 (accBase + 4096 * (accS.accOf 0).1) ≤ p.1 ∧
      p.1 < spadLoc 0 (accBase + 4096 * (accS.accOf 0).1) + 4096 * (accS.accOf 0).2) := by decide +kernel

theorem witness_SavedGroupReturns : savedG.rings = [] ∧ savedS.rontal.state = 2#3 ∧ savedX.rows = [] ∧ savedX.image.rowsOwed = [] ∧
    (∀ o ∈ savedX.copies, o.engine ≠ 4) := by decide +kernel

/-- This module, node 0, in a group with node 1, at limits 2,000 and 2,100 MHz. -/
def groupS : State :=
  { base with time := 400000, fabric := { base.fabric with members := [0, 1], limits := [(0, 2000)], heard := [(1, 50000)] } }
def soon : Announce := ⟨1, 1500, 100, false, []⟩
def announcedS : State := { groupS with fabric := { groupS.fabric with announces := [soon, ⟨1, 1700, 100, true, []⟩] } }
def changeS : State := { groupS with fabric := { groupS.fabric with announces := [soon] } }
def floorS : State := { groupS with fabric := { groupS.fabric with floor := true } }

theorem witness_WeirAndMembership :
    (max 1400 (min 2100 ((1500#12).toNat / 25 * 25)) < groupS.ownLimit ∧ groupS.ownLimit < max 1400 (min 2100 ((2100#12).toNat / 25 * 25)) ∧
      groupS.ownLimit = max 1400 (min 2100 ((2001#12).toNat / 25 * 25)) ∧ groupS.fabric.floor = false ∧ floorS.fabric.floor = true) ∧
    (groupS.grouped = true ∧ 1 ∈ groupS.fabric.others ∧ soon ∈ announcedS.fabric.announces ∧
      ⟨1, 1700, 100, true, []⟩ ∈ announcedS.fabric.announces ∧ soon ∉ groupS.fabric.announces ∧ groupS.limitOf 1 ≠ 1500 ∧
      groupS.time ≤ 500000 ∧ 100 < groupS.time ∧ ⟨1, 1700, 100, true, []⟩ ∉ groupS.fabric.announces) ∧
    changeS.fabric.announces.filter (fun b => decide (b.at_ ≤ changeS.time) && b.waiting.isEmpty) = [soon] ∧
    (groupS.fabric.sentAt + 100000 ≤ groupS.time ∧ base.time < base.fabric.sentAt + 100000) ∧
    (groupS.part.fabric = true ∧ 1 ≠ groupS.fabric.node ∧ groupS.fabric.joining = false ∧ 1 ∈ groupS.fabric.members ∧
      groupS.fabric.node ∈ [0, 1] ∧ groupS.fabric.node ∉ [1] ∧ 0 < (BitVec.ofNat 32 5 - groupS.fabric.seq).toInt ∧
      tblFind groupS.fabric.limits 1 = none ∧ tblFind { groupS.fabric with limits := [(1, 2000)] }.limits 1 ≠ none) ∧
    ({ base with fabric := { base.fabric with joining := true } }.fabric.joining = true) ∧
    (tblGet groupS.fabric.heard 1 0 + 300000 ≤ groupS.time) ∧ (1 ∉ base.fabric.members) ∧
    ({ collGoing with time := 400000 }.fabric.others = [1] ∧ tblGet collGoing.fabric.heard 1 0 + 300000 ≤ 400000 ∧
      coll0 ∈ collGoing.colls ∧ coll0.done = false ∧ coll0.join = none ∧ 1 ∈ coll0.members) ∧
    ({ groupS with fabric := { groupS.fabric with leaving := true } }.fabric.leaving = true ∧ ∀ o ∈ groupS.colls, o.done = true) ∧
    ¬(groupS.fabric.leaving = true) := by decide +kernel

/-- A group of three; a proposal of node 1 known to it; this module's lowering that nodes 1 and 2 have not acknowledged and
its raise that they have not granted; a module that joins nodes 1 and 2, and has heard from 1. -/
def threeS : State := { groupS with fabric := { groupS.fabric with members := [0, 1, 2] } }
def raising : Announce := ⟨1, 1700, 100, true, [2]⟩
def raisingS : State := { threeS with fabric := { threeS.fabric with announces := [raising] } }
def openedS : State :=
  { threeS with fabric := { threeS.fabric with announces := [⟨0, 2100, 100, true, [1, 2]⟩], unacked := [⟨0, 1500, 700, false, [1, 2]⟩] } }
def joiningS : State := { base with fabric := { base.fabric with joining := true, acks := [(1, (1900, 4))] } }
def admittingS : State := { threeS with fabric := { threeS.fabric with admits := [(7, (1900, [2]))] } }

theorem witness_Handshakes :
    (raisingS.grouped = true ∧ 1 ∈ raisingS.fabric.others ∧ raising ∈ raisingS.fabric.announces ∧ threeS.fabric.announces = []) ∧
    (∃ a ∈ openedS.fabric.unacked, 1 ∈ a.waiting ∧ a.limit = 1500 ∧ a.at_ = 700) ∧
    (0 < (BitVec.ofNat 32 5 - threeS.fabric.seq).toInt ∧ ¬ 0 < (BitVec.ofNat 32 0 - threeS.fabric.seq).toInt ∧
      threeS.fabric.node ∈ [0, 1] ∧ 2 ∈ threeS.fabric.others ∧ 2 ∉ [0, 1] ∧ (∀ n ∈ threeS.fabric.others, n ∈ [0, 1, 2])) ∧
    (joiningS.part.fabric = true ∧ joiningS.fabric.forming = none ∧ joiningS.fabric.joining = true ∧
      tblFind joiningS.fabric.acks 1 ≠ none ∧ tblFind joiningS.fabric.acks 2 = none ∧
      (∀ q ∈ joiningS.fabric.acks, q.1 ≠ 2 → ∀ r ∈ joiningS.fabric.acks, r.1 = q.1 → r = q)) ∧
    (tblFind admittingS.fabric.admits 7 ≠ none ∧ tblFind threeS.fabric.admits 7 = none ∧ threeS.fabric.others ≠ [] ∧
      (∀ p ∈ threeS.fabric.admits, p.2.2 ≠ []) ∧ base.fabric.others = [] ∧ base.fabric.admits = [] ∧ 7 ∉ threeS.fabric.members) ∧
    threeS.grouped = true := by decide +kernel

/-- Node 1 may read and write 4 KiB at 2^36; a load of this module through the window has not returned for 1 ms. -/
def grantS : State :=
  { groupS with
    fabric := { groupS.fabric with grants := [(0, [⟨0, 4095, 2 ^ 36, true, false, none⟩])] }
    loads := [{ loadOf (.mem (3 * 2 ^ 50) 8 true) false with issued := 0 }], time := 2000000 }
def windowLoad : PendLoad := { loadOf (.mem (3 * 2 ^ 50) 8 true) false with issued := 0 }
/-- A grant to read and write, one under an empty key slot, and one under a slot that is loaded. -/
def grantOf (key : Option Nat) : State :=
  { grantS with
    fabric := { grantS.fabric with grants := [(0, [⟨0, 4095, 2 ^ 36, true, true, key⟩])] }
    rontal := { grantS.rontal with keys := [(3, 5)] } }
def hostS : State := { base with rontal := { base.rontal with winBase := 0 } }

theorem witness_WindowsAndHostRegisters :
    (grantS.part.fabric = true ∧ (1#8 : BitVec 8).toNat ∈ grantS.fabric.others ∧ grantS.grantOf grantS.fabric.node 8 =
        some ⟨0, 4095, 2 ^ 36, true, false, none⟩ ∧ 8 + 8 ≤ 4095 + 1 ∧ grantS.grantOf grantS.fabric.node 5000 = none) ∧
    (grantS.loads.find? (fun k => k.id == windowLoad.id) = some windowLoad ∧ windowLoad.remote = true ∧
      windowLoad.issued + 1000000 ≤ grantS.time) ∧
    ((grantOf none).grantOf 0 8 = some ⟨0, 4095, 2 ^ 36, true, true, none⟩ ∧ tblFind (grantOf (some 2)).rontal.keys 2 = none ∧
      tblFind (grantOf (some 3)).rontal.keys 3 ≠ none ∧ (grantOf (some 3)).grantOf 0 8 = some ⟨0, 4095, 2 ^ 36, true, true, some 3⟩) ∧
    base.rontal.busy = false ∧ (base.queue 0).en = false ∧ ((queueS 0 false).queue 0).en = true ∧
    ((0#8 : BitVec 8).toNat ∈ [0, 1, 2, 10, 11] ∧ hostS.installed (hostS.rontal.winBase.toNat * 2 ^ 36 + 8) 8 = true ∧
      { hostS with rontal := { hostS.rontal with winBase := 0xFFF } }.installed (0xFFF * 2 ^ 36 + 8) 8 = false) := by decide +kernel

/-- A lowering of node 1 that is known, one that is late behind a later change in force, a proposal known and one granted
early, and a joiner that another member has acknowledged already. -/
def heardS : State :=
  { threeS with
    time := 5000, fabric := { threeS.fabric with
      known := [⟨1, 1500, 4000, false, []⟩, raising], grantsEarly := [(1, 2, 1900, 9000)], early := [(7, [1, 2])] } }
theorem witness_Ceilings :
    (heardS.grouped = true ∧ 1 ∈ heardS.fabric.others ∧ ⟨1, 1500, 4000, false, []⟩ ∈ heardS.fabric.known) ∧
    (⟨1, 1600, 3000, false, []⟩ ∉ heardS.fabric.known ∧ 3000 < heardS.time ∧ ∃ b ∈ heardS.fabric.known, b.node = 1 ∧ 3000 < b.at_ ∧
      ∀ c ∈ heardS.fabric.announces, ¬(c.node = 1 ∧ c.limit = b.limit ∧ c.at_ = b.at_ ∧ c.raise = b.raise)) ∧
    (⟨1, 1600, 4500, false, []⟩ ∉ heardS.fabric.known ∧ ∀ b ∈ heardS.fabric.known, ¬(b.node = 1 ∧ 4500 < b.at_)) ∧
    (∃ b ∈ heardS.fabric.known, b.node = 1 ∧ b.limit = 1700 ∧ b.at_ = 100 ∧ b.raise = true) ∧
    ((∀ b ∈ heardS.fabric.known, ¬(b.node = 1 ∧ b.limit = 1900 ∧ b.at_ = 9000 ∧ b.raise = true)) ∧
      heardS.fabric.others.filter (fun n => n != 1 && !heardS.fabric.grantsEarly.contains (1, n, 1900, 9000)) = []) ∧
    (∃ a, openedS.fabric.announces.find? (fun a => a.node == openedS.fabric.node && a.raise && a.waiting.contains 1) = some a ∧
      1 ∈ openedS.fabric.members) ∧
    (heardS.fabric.others.filter (fun n => !(tblGet heardS.fabric.early 7 []).contains n) = [] ∧ heardS.fabric.admits = [] ∧
      7 ∉ heardS.fabric.members) ∧ (2 ∈ threeS.fabric.members ∧ 1 ≠ threeS.fabric.node ∧ threeS.fabric.known = []) := by
  refine ⟨by decide +kernel, ⟨by decide +kernel, by decide +kernel, _, List.mem_cons_self, by decide +kernel⟩, by decide +kernel,
    ⟨raising, by decide +kernel, by decide +kernel⟩, by decide +kernel, ⟨_, rfl, by decide +kernel⟩, by decide +kernel,
    by decide +kernel⟩

/-- The module in a session, with a dump of four bytes and an entry in the error log. -/
def adminS (session : Bool) : State :=
  { groupS with rontal := { groupS.rontal with session := if session then some 7 else none, dump := some [1, 2, 3, 4], errors := [⟨3, 0, 0, 0, 1, 2, 0, 0⟩], errCount := 3 } }
/-- Logical core 5 of cube 0 has no physical core. -/
def unmappedS : State :=
  let c := (adminS true).cube 0
  (adminS true).setCube 0 { c with cmap := tblSet c.cmap 5 none }

/-- A command of some code waits in the mailbox. -/
def mailS (code : BitVec 8) (s : State) : State := { s with rontal := { s.rontal with busy := true, mailbox := [(0, code)] } }
def coldS (cold : Bool) : State := { base with rontal := { base.rontal with state := 1#3, cold := cold } }
/-- The host window under an empty key slot, and under one that is loaded. -/
def blindS (n : BitVec 13) : State := { hostS with rontal := { hostS.rontal with winEnc := true, winKey := n, keys := [(3, 5)] } }

theorem witness_RontalCommands_mailbox :
    (∀ c ∈ [1#8, 2#8, 3#8, 4#8, 5#8, 6#8], (mailS c base).rontal.busy = true ∧ (mailS c base).mailCode = c.toNat) ∧
    ((mailS 1 base).mailCode ≠ 2 ∧ base.rontal.busy = false) ∧
    ((blindS 2).rontal.winEnc = true ∧ tblFind (blindS 2).rontal.keys (blindS 2).rontal.winKey.toNat = none ∧
      tblFind (blindS 3).rontal.keys (blindS 3).rontal.winKey.toNat ≠ none ∧
      (blindS 2).installed ((blindS 2).rontal.winBase.toNat * 2 ^ 36 + 8) 8 = true) ∧
    (5 ∉ (adminS true).rontal.worn ∧ isPackage 0 = true ∧ isPackage (spadLoc 0 (2 ^ 63)) = false) ∧
    (base.part.fabric = true ∧ { base with part := { base.part with fabric := false } }.part.fabric = false ∧ groupS.grouped = true ∧
      ∀ n ∈ groupS.fabric.node :: [1, 255], n < 256) ∧
    ((adminS false).rontal.session = none ∧ (adminS true).rontal.session = some 7 ∧ (5#13 : BitVec 13) ≠ 0#13) ∧
    ((∀ e ∈ (adminS true).rontal.errors, (3#32 : BitVec 32).toNat ≤ e.index.toNat) ∧ (adminS true).rontal.errors.length ≤ 125) := by
  decide +kernel

theorem witness_RontalCommands_port :
    (base.rontal.dump = none ∧ (adminS true).rontal.dump = some [1, 2, 3, 4] ∧ 4 ≤ 1024) ∧
    ((adminS false).rontal.session = none ∧ 95 < (96#7 : BitVec 7).toNat ∧ unmappedS.rontal.session = some 7 ∧
      0 < unmappedS.part.cubes ∧ unmappedS.mapped 0 5 = none ∧ unmappedS.restorable 0 5 = some 5) ∧
    ((coldS true).rontal.state = 1#3 ∧ (coldS true).rontal.cold = true ∧ (coldS false).rontal.cold = false ∧
      (coldS false).rontal.request.getLsbD 1 = false ∧ (adminS true).mapped 0 6 ≠ none ∧
      { base with rontal := { base.rontal with request := 2#3 } }.rontal.request.getLsbD 1 = true ∧ base.rontal.state ≠ 1#3 ∧
      base.rontal.request.getLsbD 1 = false) := by decide +kernel

def askedStart (keep image : Bool) : State :=
  { base with rontal := { base.rontal with request := if keep then 5#3 else 1#3, images := if image then base.rontal.images else [] } }

/-- One die of cube 1 fails its self-test; two of it do; all dies of both cubes do. -/
def oneDie : List StartFailure := [.die 1 3]
def twoDies : List StartFailure := [.die 1 4, .die 1 5]
def allDies : List StartFailure := [.die 0 0, .die 0 1, .die 1 0, .die 1 1]
/-- A part that holds one image. -/
def imageS (img : Image) : State := { base with rontal := { base.rontal with images := [(0, img)], rollback := 0 } }

theorem witness_Starts_failures :
    base.part.cubes = 2 ∧ (askedStart true false).rontal.image = none ∧
    (StartFailure.die 0 0 ∈ allDies ∧ StartFailure.die 0 1 ∈ allDies ∧ StartFailure.die 1 0 ∈ allDies ∧ StartFailure.die 1 1 ∈ allDies) ∧
    ((∀ l ∈ [oneDie, twoDies], .power ∉ l ∧ .identity ∉ l ∧ .hbm ∉ l ∧ .store ∉ l ∧ .tier2 ∉ l ∧ .hostLink ∉ l ∧
        ∀ d, d < 9 → StartFailure.die 0 d ∉ l) ∧
      (StartFailure.die 1 3 ∈ oneDie ∧ ∀ e, e < 9 → e ≠ 3 → StartFailure.die 1 e ∉ oneDie) ∧
      StartFailure.die 1 4 ∈ twoDies ∧ StartFailure.die 1 5 ∈ twoDies) ∧
    base.rontal.persist = [] ∧
    (∀ k ∈ [true, false], (askedStart k true).rontal.request.getLsbD 0 = true ∧ (askedStart k true).rontal.request.getLsbD 2 = k) ∧
    ¬(base.rontal.request.getLsbD 0 = true ∧ base.rontal.request.getLsbD 2 = true) ∧ isSpad 0 = false := by
  refine ⟨?_, ?_, ?_, ?_, ?_, ?_, ?_, ?_⟩ <;> decide +kernel

/-- Whether a signature verifies is Config's (log 9): a part whose one image carries a signature that does has that image. -/
theorem witness_Starts_image (img : Image)
    (h : Config.verify Config.firmwareKey (Config.sha384 img.signed) img.sig = true) : (imageS img).rontal.image = some img := by
  simp [imageS, Rontal.image, h]

/-- A device section under a signature that verifies, and one under a signature that does not. -/
theorem witness_Starts_section (sig : BitVec 768) (b : Bool)
    (h : Config.verify (Config.derived 1) (Config.sha384 base.deviceSection) sig = b) :
    State.sectionOk { base with rontal := { base.rontal with deviceSig := sig } } = b := h

theorem witness_FatalEvents :
    { base with rontal := { base.rontal with state := 3#3 } }.rontal.state = 3#3 ∧ base.rontal.state ≠ 3#3 ∧
    (bootLaunch ∈ base.launches ∧ bootLaunch.failed = false ∧ base.runners bootLaunch.id ≠ []) := by decide +kernel

theorem witness_Starts_bus : StartFailure.bus 100 3 5 ∈ [StartFailure.bus 100 3 5] ∧ 100 < 96 * base.part.cubes ∧
    base.rontal.request.getLsbD 1 = false := by decide +kernel

theorem witness_RoundTrip : (Instr.addi 3#5 4#5 (-1#12)).wf = true ∧ (Instr.addi 3#5 4#5 (-1#12)).isWord = true := by decide

theorem witness_OneSpelling : decode 0x80464FFF#32 = .ok (.addi 3#5 4#5 (-1#12)) := by rfl

/-- Context 0 at a word of supervisor code, with its copy in a context of the same group that waits. -/
def atWord (w : Nat) : State := State.reset.withFetchWord 32 w
def pairedS : State :=
  let s := atWord 0x8D000006
  { s with ctxs := [(0, s.ctx 0), (1, { s.ctx 0 with blocked := true, task := some ⟨0, 1, 0, 0⟩ })]
           launches := s.launches.map (fun l => { l with group := 2, tasks := 2 }) }

/-- A doorbell has come in. -/
def doorbellS : State := { State.reset with inputs := [.doorbell 0 5] }

/-- The bundle at the PC of context 0 is one word. -/
def oneWord (s : State) (w : BitVec 32) : Bool :=
  okWith (({ s.giveSlot 0 with cur := 0 } : State).fetchBundle 0 (({ s.giveSlot 0 with cur := 0 } : State).ctx 0).pc)
    (fun b => b.words == [w])
def goes (s : State) : Bool :=
  match ({ s.giveSlot 0 with cur := 0 } : State).ahead 0 with
  | .go _ => true
  | _ => false
/-- How the meaning of a word ends, on the state in which the step first asks it and on the one in which it has its effect. -/
def marks (i : Instr) (s : State) : Nat × Nat :=
  let u : State := { s.giveSlot 0 with cur := 0 }
  let v := { u with issue := u.seq }
  let m := fun (o : Host.Outcome State Fault Refusal) => match o with
    | .next t => (match t.mark with | .ran => 1 | .trapped _ => 2 | .waits => 3)
    | _ => 0
  match exec i v with
  | .next t => (m (.next t), m (exec i ((v.keepRecords t).modMe (fun x => { x with scbSkip := x.scbSkip && x.inh, killPoint := false }))))
  | _ => (0, 0)

/-- A load whose address is odd. -/
def oddLoadS : State := setS (atWord 0x84864C05) 4#5 1

theorem witness_StepRunsDecoded :
    (State.reset.misplaced = false ∧ State.reset.chosen = none) ∧
    (∃ t, (producedS false).chosen = some (.event (.recomputeProducerCompletion 4)) ∧
      (Event.recomputeProducerCompletion 4).run ((State.progressOf (producedS false) (.recomputeProducerCompletion 4)).foldl
        State.progress (producedS false)) = .next t) ∧
    (∃ t, doorbellS.chosen = some (.input (.doorbell 0 5)) ∧ (Input.doorbell 0 5).run ((doorbellS.arrivalsOf (.doorbell 0 5)).foldl
        State.progress { doorbellS with inputs := doorbellS.inputs.tail }) = .next t) ∧
    (waitsForEarlier (.addi 0#5 0#5 0#12) = false ∧ waitsForEarlier .gbar = true ∧ base.loads = [] ∧ base.stores = [] ∧ base.ops = [] ∧
      base.colls = []) ∧
    (base.misplaced = false ∧ base.chosen = some (.core 0) ∧ (base.ctx 0).owed = 0 ∧ oneWord base 0x80400000#32 = true ∧
      decode 0x80400000#32 = .ok (.addi 0#5 0#5 0#12) ∧ goes base = true ∧ marks (.addi 0#5 0#5 0#12) base = (1, 1)) ∧
    (oddLoadS.chosen = some (.core 0) ∧ oneWord oddLoadS 0x84864C05#32 = true ∧ goes oddLoadS = true ∧
      (marks (.ldD 3#5 4#5 5#10) oddLoadS).1 = 2) ∧
    (pairedS.chosen = some (.core 0) ∧ oneWord pairedS 0x8D000006#32 = true ∧ goes pairedS = true ∧
      marks .gbar pairedS = (3, 3)) := by
  refine ⟨by decide +kernel, ⟨_, by decide +kernel, rfl⟩, ⟨_, by decide +kernel, rfl⟩, by decide +kernel, ⟨?_, ?_, ?_, ?_, by rfl, ?_, ?_⟩, by decide +kernel, by decide +kernel⟩ <;>
    decide +kernel

theorem witness_StepKeepsMemoryCanonical :
    (Memory.wf base.mem = true ∧ base.misplaced = false) ∧
    { base with ctxs := [(96 * 4 * base.part.cubes, base.ctx 0)] }.misplaced = true := by
  refine ⟨⟨?_, ?_⟩, ?_⟩ <;> decide +kernel

/-! One-step tests. Each expected result is worked out by hand from the rule of spec/ that it names. -/

/-- The value that a word puts in the shadow queue for its destination, and its latency. -/
def lands (i : Instr) (s : State) : Option (Nat × Nat) := ((after i s).me.shadow.getLast?).map (fun w => (w.val.toNat, w.left))
def two (a b : Word) : State := setS (setS base 1#5 a) 2#5 b

-- R31, R80 (the worked example of spec 01): 6 times 7 lands as 42 with latency 3.
theorem test_mul_lands_after_three : lands (.mul 4#5 1#5 2#5) (two 6 7) = some (42, 3) := by decide +kernel
-- R35 (the same example): a transient result takes no shadow-queue entry.
theorem test_add_transient_takes_no_entry : (after (.add 7#5 1#5 2#5 1#1) (two 6 1)).me.shadow = [] := by decide +kernel
-- R80: the most negative value divided by -1 gives itself; a zero divisor gives all ones and the dividend.
theorem test_div_most_negative : lands (.div 4#5 1#5 2#5) (two (2 ^ 63) (-1)) = some (2 ^ 63, 20) := by decide +kernel
theorem test_rem_by_zero : lands (.rem 4#5 1#5 2#5) (two 17 0) = some (17, 20) := by decide +kernel
theorem test_divw_by_zero : lands (.divW 4#5 1#5 2#5) (two 17 (2 ^ 32)) = some (2 ^ 64 - 1, 20) := by decide +kernel
theorem test_rem_takes_the_sign_of_the_dividend : lands (.rem 4#5 1#5 2#5) (two (-7) 2) = some (2 ^ 64 - 1, 20) := by decide +kernel
-- R80: -1 times 2 ^ 64 - 1, signed by unsigned, has all ones above its low 64 bits.
theorem test_mulhsu_signs : lands (.mulhsu 4#5 1#5 2#5) (two (-1) (-1)) = some (2 ^ 64 - 1, 3) := by decide +kernel
-- R79: the count of leading zeros of 0, the shift amount of a 32-bit shift is its low five bits, the result sign-extended.
theorem test_clz_of_zero : lands (.clz 4#5 1#5 0#1) (two 0 0) = some (64, 1) := by decide +kernel
theorem test_sllw_sign_extends : lands (.sllW 4#5 1#5 2#5 0#1) (two 1 63) = some (2 ^ 64 - 2 ^ 31, 1) := by decide +kernel
-- R79: an unsigned minimum.
theorem test_minu : lands (.minu 4#5 1#5 2#5 0#1) (two (-1) 5) = some (5, 1) := by decide +kernel
-- R97: BLT's relation is signed, its .w form looks at bit 31.
theorem test_cmplt_signed : lands (.cmpLt 4#5 1#5 2#5 0#1) (two (-1) 0) = some (1, 1) := by decide +kernel
theorem test_cmplt_of_words : lands (.cmpLt 4#5 1#5 2#5 1#1) (two (2 ^ 31) 0) = some (1, 1) := by decide +kernel
theorem test_cmpltu_unsigned : lands (.cmpLtu 4#5 1#5 2#5 0#1) (two (-1) 0) = some (0, 1) := by decide +kernel
-- R78: LSI shifts in 17 bits; a write to s0 is discarded (R15).
theorem test_lsi : lands (.lsi 1#5 3#17) (two 5 0) = some (5 * 131072 + 3, 1) := by decide +kernel
theorem test_write_to_s0_is_discarded : (after (.addi 0#5 1#5 1#12) (two 6 7)).me = (two 6 7).me := by decide +kernel
-- R90 (its example): hset h5, ext0, s7 is 0x884A7001.
theorem test_hset_word : decode 0x884A7001#32 = .ok (.hset 5#5 7#5 1#12) := by rfl
-- R264 (its example): element (35, 2) of the tiled matrix lies 2,244 bytes above BASE.
theorem test_element_address : elemOff (plain 0 2 64 64 0) (some ⟨32, 32, 2048, 4096, true⟩) { i0 := 35, i1 := 2 } = (2244, 0) := by
  decide +kernel
-- R57, R60, R66 (the words of the examples of specs 02 and 03).
theorem test_nop_word : decode 0x87C00000#32 = .ok .nop := by rfl
theorem test_ldw_word : decode 0x44882802#32 = .ok (.ldW 4#5 2#5 2#10) := by rfl
theorem test_addi_minus_one_word : decode 0x00484FFF#32 = .ok (.addi 4#5 4#5 (-1#12)) := by rfl
theorem test_cmm_word : decode 0x99101100#32 = .ok (.cmm 8#5 1#5 2#5) := by rfl
theorem test_cmp_word : decode 0x86CE4001#32 = .ok (.cmpNe 7#5 4#5 0#5 0#1) := by rfl
theorem test_br_word : decode 0x87006381#32 = .ok (.br 6#5 7#5 1#2) := by rfl

end Sys2Proof.Tests
end

/-! The multiply and divide words (spec 02 R53, R59; spec 03 R80). -/

namespace Sys2Proof.Machine

/-! Words that no instruction has. -/

theorem decodeAll_eq_none {w : BitVec 32} {e : DecodeError} (h : decode w = .error e) :
    ∀ {ws : List (BitVec 32)}, w ∈ ws → decodeAll ws = none
  | v :: r, hw => by
    rcases List.mem_cons.mp hw with rfl | hr
    · simp only [decodeAll, h]
    · rw [decodeAll, decodeAll_eq_none h hr]
      cases decode v <;> rfl

/-- Row 3 of R49: a bundle is refused for any word of it that does not decode. -/
theorem State.parse_of_undecodable {s : State} {c : Nat} {b : Bundle} {w : BitVec 32} {e : DecodeError}
    (hb : s.fetchBundle c (s.ctx c).pc = .ok b) (hw : w ∈ b.words) (h : decode w = .error e) :
    s.parse c = trapC cIllegalOp := by
  simp only [State.parse, hb, decodeAll_eq_none h hw]

theorem illegalOp_of_decode_error {w : BitVec 32} {e : DecodeError} (h : decode w = .error e) : illegalOp w :=
  ⟨⟨e, h⟩, fun s c b hb hw => by simp only [State.ahead, State.parse_of_undecodable hb hw h, trapC]⟩

/-! The function codes of major 0x11 (R59). -/

/-- The words of major 0x11 have no operand value that R53 refuses. -/
theorem wf_of_decodeMulDiv {w : BitVec 32} {i : Instr} (h : decodeMulDiv w = .ok i) : i.wf = true := by
  unfold decodeMulDiv at h
  split at h <;> cases h <;> rfl

theorem decode_major_11 {w : BitVec 32} (h : fld w 22 6 = 0x11#6) : decode w = decodeMulDiv w := by
  rw [decode, major_11 h]
  cases hi : decodeMulDiv w with
  | ok i => exact if_pos (wf_of_decodeMulDiv hi)
  | error e => rfl

theorem decodeMulDiv_unassigned {w : BitVec 32} (h5 : 5 ≤ (fld w 0 7).toNat)
    (h : (fld w 0 7).toNat ≤ 7 ∨ 0x10 ≤ (fld w 0 7).toNat) : decodeMulDiv w = .error .unassignedFunction := by
  unfold decodeMulDiv
  split
  case h_14 => rfl
  all_goals omega

/-! Words of 32 bits, sign-extended (w(x) of R77). -/

theorem signExtend_ofInt (v : Int) : (BitVec.ofInt 32 v).signExtend 64 = BitVec.ofInt 64 (v.bmod (2 ^ 32)) := by
  rw [BitVec.signExtend, BitVec.toInt_ofInt]

theorem sextW_eq (x : Word) : sextW x = BitVec.ofInt 64 (x.toInt.bmod (2 ^ 32)) := by
  rw [sextW, BitVec.signExtend, ← BitVec.signExtend_eq_setWidth_of_le x (by decide),
    BitVec.toInt_signExtend_eq_toInt_bmod_of_le x (by decide)]

theorem signExtend_ofNat (v : Nat) : (BitVec.ofNat 32 v).signExtend 64 = BitVec.ofInt 64 ((v : Int).bmod (2 ^ 32)) :=
  signExtend_ofInt v

/-! The values of R80 as integers, the quotients and remainders at every width. -/

theorem ofInt_toInt_mul {n : Nat} (a b : BitVec n) : BitVec.ofInt n (a.toInt * b.toInt) = a * b := by
  rw [BitVec.ofInt_mul, BitVec.ofInt_toInt, BitVec.ofInt_toInt]

theorem highProduct_natCast (a b : Nat) : highProduct a b = BitVec.ofNat 64 (a * b / 2 ^ 64) := by
  rw [highProduct, ← BitVec.ofInt_natCast]; norm_cast

theorem sextW_mul (a b : Word) : sextW (a * b) = BitVec.ofInt 64 ((a.toInt * b.toInt).bmod (2 ^ 32)) := by
  rw [sextW_eq, BitVec.toInt_mul, Int.bmod_bmod_of_dvd (by decide)]

theorem allOnes_eq_ofInt (n : Nat) : BitVec.allOnes n = BitVec.ofInt n (-1) := by
  rw [← BitVec.neg_one_eq_allOnes, BitVec.ofInt_neg]; rfl

/-- The quotient that overflows, the most negative value by -1, is itself modulo 2 ^ n. -/
theorem quotS_eq {n : Nat} (a b : BitVec n) :
    quotS a b = if b = 0#n then BitVec.ofInt n (-1) else BitVec.ofInt n (a.toInt.tdiv b.toInt) := by
  have h : a.sdiv b = BitVec.ofInt n (a.toInt.tdiv b.toInt) :=
    BitVec.eq_of_toInt_eq (by rw [BitVec.toInt_sdiv, BitVec.toInt_ofInt])
  rw [quotS, allOnes_eq_ofInt, h]

theorem quotU_eq {n : Nat} (a b : BitVec n) :
    quotU a b = if b = 0#n then BitVec.ofInt n (-1) else BitVec.ofNat n (a.toNat / b.toNat) := by
  rw [quotU, allOnes_eq_ofInt, ← BitVec.toNat_udiv, BitVec.ofNat_toNat, BitVec.setWidth_eq]

/-- The integers' remainder by 0 is the dividend, as R80 has it. -/
theorem toInt_remS {n : Nat} (a b : BitVec n) : (remS a b).toInt = a.toInt.tmod b.toInt := by
  unfold remS
  split
  · next h => rw [h, BitVec.toInt_zero, Int.tmod_zero]
  · exact BitVec.toInt_srem a b

theorem remS_eq {n : Nat} (a b : BitVec n) : remS a b = BitVec.ofInt n (a.toInt.tmod b.toInt) := by
  rw [← toInt_remS, BitVec.ofInt_toInt]

theorem remU_eq {n : Nat} (a b : BitVec n) : remU a b = BitVec.ofNat n (a.toNat % b.toNat) := by
  have h : remU a b = a % b := by
    unfold remU
    split
    · next h => rw [h, BitVec.umod_zero]
    · rfl
  rw [h, ← BitVec.toNat_umod, BitVec.ofNat_toNat, BitVec.setWidth_eq]

/-! The same of the low 32 bits of two registers, sign-extended: the .w forms. -/

theorem setWidth32_eq_zero_iff_bmod (x : Word) : x.setWidth 32 = 0#32 ↔ (x.toNat : Int).bmod (2 ^ 32) = 0 := by
  rw [← BitVec.toInt_inj, BitVec.toInt_setWidth, BitVec.toInt_zero]

theorem setWidth32_eq_zero_iff_mod (x : Word) : x.setWidth 32 = 0#32 ↔ x.toNat % 2 ^ 32 = 0 := by
  rw [← BitVec.toNat_inj, BitVec.toNat_setWidth]; rfl

theorem quotS_word (a b : Word) :
    (quotS (a.setWidth 32) (b.setWidth 32)).signExtend 64 =
      if (b.toNat : Int).bmod (2 ^ 32) = 0 then BitVec.ofInt 64 (-1)
      else BitVec.ofInt 64 ((((a.toNat : Int).bmod (2 ^ 32)).tdiv ((b.toNat : Int).bmod (2 ^ 32))).bmod (2 ^ 32)) := by
  simp only [quotS_eq, setWidth32_eq_zero_iff_bmod, BitVec.toInt_setWidth]
  split
  · rfl
  · exact signExtend_ofInt _

theorem quotU_word (a b : Word) :
    (quotU (a.setWidth 32) (b.setWidth 32)).signExtend 64 =
      if b.toNat % 2 ^ 32 = 0 then BitVec.ofInt 64 (-1)
      else BitVec.ofInt 64 (((a.toNat % 2 ^ 32 / (b.toNat % 2 ^ 32) : Nat) : Int).bmod (2 ^ 32)) := by
  simp only [quotU_eq, setWidth32_eq_zero_iff_mod, BitVec.toNat_setWidth]
  split
  · rfl
  · exact signExtend_ofNat _

theorem remS_word (a b : Word) :
    (remS (a.setWidth 32) (b.setWidth 32)).signExtend 64 =
      BitVec.ofInt 64 (((a.toNat : Int).bmod (2 ^ 32)).tmod ((b.toNat : Int).bmod (2 ^ 32))) := by
  rw [BitVec.signExtend, toInt_remS, BitVec.toInt_setWidth, BitVec.toInt_setWidth]

theorem remU_word (a b : Word) :
    (remU (a.setWidth 32) (b.setWidth 32)).signExtend 64 =
      BitVec.ofInt 64 (((a.toNat % 2 ^ 32 % (b.toNat % 2 ^ 32) : Nat) : Int).bmod (2 ^ 32)) := by
  rw [remU_eq, BitVec.toNat_setWidth, BitVec.toNat_setWidth]
  exact signExtend_ofNat _

/-! Their room in the shadow queue (R33). -/

/-- The instructions of major 0x11 with one choice of operands. -/
def mulDivWords (d a b : BitVec 5) : List Instr :=
  [.mul d a b, .mulh d a b, .mulhu d a b, .mulhsu d a b, .mulW d a b, .div d a b, .divu d a b,
    .rem d a b, .remu d a b, .divW d a b, .divuW d a b, .remW d a b, .remuW d a b]

theorem majorOf_of_rr {i : Instr} {op : BitVec 6} {d a b : BitVec 5} {fn : BitVec 7} (h : encode i = rr op d a b fn) :
    majorOf i = op.toNat := by
  rw [majorOf, h]; exact congrArg BitVec.toNat (fld_rr_22_6 op d a b fn)

theorem fieldD_of_rr {i : Instr} {op : BitVec 6} {d a b : BitVec 5} {fn : BitVec 7} (h : encode i = rr op d a b fn) :
    fieldD i = d := by
  rw [fieldD, h]; exact fld_rr_17_5 op d a b fn

/-- What holds of each word of major 0x11 holds of all of them. -/
theorem mulDivWords_cases {P : Instr → Prop} {d a b : BitVec 5} {i : Instr} (hi : i ∈ mulDivWords d a b)
    (mul : P (.mul d a b)) (mulh : P (.mulh d a b)) (mulhu : P (.mulhu d a b)) (mulhsu : P (.mulhsu d a b))
    (mulW : P (.mulW d a b)) (div : P (.div d a b)) (divu : P (.divu d a b)) (rem : P (.rem d a b))
    (remu : P (.remu d a b)) (divW : P (.divW d a b)) (divuW : P (.divuW d a b)) (remW : P (.remW d a b))
    (remuW : P (.remuW d a b)) : P i := by
  simp only [mulDivWords, List.mem_cons, List.not_mem_nil, or_false] at hi
  rcases hi with rfl | rfl | rfl | rfl | rfl | rfl | rfl | rfl | rfl | rfl | rfl | rfl | rfl <;> assumption

theorem mulDivWords_encode {d a b : BitVec 5} {i : Instr} (hi : i ∈ mulDivWords d a b) :
    ∃ fn, encode i = rr 0x11#6 d a b fn := by
  apply mulDivWords_cases hi <;> exact ⟨_, rfl⟩

theorem mulDivWords_fixedLatency {d a b : BitVec 5} {i : Instr} (hi : i ∈ mulDivWords d a b) : 2 ≤ fixedLatency i := by
  apply mulDivWords_cases hi <;> exact Nat.le_of_ble_eq_true rfl

theorem mulDivWords_scalarWrites {d a b : BitVec 5} {i : Instr} (hi : i ∈ mulDivWords d a b) : scalarWrites i = [d] := by
  obtain ⟨fn, he⟩ := mulDivWords_encode hi
  have hm : majorOf i = 0x11 := majorOf_of_rr he
  have hd : fieldD i = d := fieldD_of_rr he
  revert hm hd
  apply mulDivWords_cases hi <;> (intro hm hd; simp only [scalarWrites, hm, hd, Nat.reduceLeDiff, if_true])

theorem shadowNeed_of_late {i : Instr} {d : BitVec 5} (x : Ctx) (hm : majorOf i = 0x11) (hl : 2 ≤ fixedLatency i)
    (hw : scalarWrites i = [d]) (hd : d ≠ 0#5) : shadowNeed x i = 1 := by
  have hloc : localLoad i = false := by simp only [localLoad, hm]
  have hne : (d != 0#5) = true := bne_iff_ne.mpr hd
  simp only [shadowNeed, hloc, Bool.false_eq_true, if_false, ge_iff_le, hl, if_true, hw, List.filter_cons, hne,
    List.filter_nil, List.length_cons, List.length_nil]

theorem lacksRoom_mulDiv {d a b : BitVec 5} {i : Instr} (x : Ctx) (hd : d ≠ 0#5) (hi : i ∈ mulDivWords d a b) :
    x.lacksRoom [i] = true ↔ 8 ≤ x.shadow.length := by
  obtain ⟨fn, he⟩ := mulDivWords_encode hi
  have hneed : shadowNeed x i = 1 :=
    shadowNeed_of_late x (majorOf_of_rr he) (mulDivWords_fixedLatency hi) (mulDivWords_scalarWrites hi) hd
  simp only [Ctx.lacksRoom, List.map_cons, List.map_nil, List.sum_cons, List.sum_nil, hneed, decide_eq_true_eq]
  omega

/-! The obligation. -/

/-- A word whose effect is to queue v queues u, another form of the same value. -/
theorem next_wrote_of_eq {s : State} {d : BitVec 5} {v u : Word} {lat : Nat} {o : Host.Outcome State Fault Refusal}
    (hv : v = u) (h : o = .next (s.wrote d v lat)) : o = .next (s.wrote d u lat) := hv ▸ h

/-- Settles O3: each meaning queues one value by definition, and the lemmas above put that value as R80 states it. -/
theorem multiplyAndDivide : Obligations.MultiplyAndDivide := by
  unfold Obligations.MultiplyAndDivide
  intro s d a b
  refine ⟨
    next_wrote_of_eq (ofInt_toInt_mul _ _).symm rfl,
    rfl,
    next_wrote_of_eq (highProduct_natCast _ _) rfl,
    rfl,
    next_wrote_of_eq (sextW_mul _ _) rfl,
    next_wrote_of_eq (quotS_eq _ _) rfl,
    next_wrote_of_eq (remS_eq _ _) rfl,
    next_wrote_of_eq (quotU_eq _ _) rfl,
    next_wrote_of_eq (remU_eq _ _) rfl,
    next_wrote_of_eq (quotS_word _ _) rfl,
    next_wrote_of_eq (remS_word _ _) rfl,
    next_wrote_of_eq (quotU_word _ _) rfl,
    next_wrote_of_eq (remU_word _ _) rfl,
    fun w hw => ?_,
    fun x hd i hi => lacksRoom_mulDiv x hd hi⟩
  have hdec : decode w = decodeMulDiv w := decode_major_11 hw
  refine ⟨?_, ?_, ?_, ?_, ?_, ?_, ?_, ?_, ?_, ?_, ?_, ?_, ?_, fun h5 h =>
    illegalOp_of_decode_error (hdec.trans (decodeMulDiv_unassigned h5 h))⟩ <;>
    (intro hfn; simp only [hdec, decodeMulDiv, hfn])

end Sys2Proof.Machine

/-! The words of scalar arithmetic that are shared by the immediate words, the register words and the compares
(spec 03 R78, R79, R97): words that are refused, and the values at every width as numbers. -/

namespace Sys2Proof.Machine

/-! Words that the decoder refuses (R53). -/

theorem decode_of_body_error {w : BitVec 32} {e : DecodeError} (h : decodeBody w = .error e) : decode w = .error e := by
  rw [decode, h]

/-- A word whose reserved fields are as they must be is still refused where an operand value of it is. -/
theorem illegalOp_of_reserved {w : BitVec 32} {p : Prop} [Decidable p] {i : Instr} (hb : decodeBody w = reserved p i)
    (hi : p → i.wf = false) : illegalOp w := by
  by_cases hp : p
  · refine illegalOp_of_decode_error (e := .badOperand) ?_
    simp only [decode, hb, reserved, if_pos hp, hi hp, Bool.false_eq_true, if_false]
  · exact illegalOp_of_decode_error (decode_of_body_error (hb.trans (if_neg hp)))

/-! Sums, differences and shifts of words as numbers. -/

theorem add_eq_ofInt {n : Nat} (a b : BitVec n) : a + b = BitVec.ofInt n (a.toInt + b.toInt) := by
  rw [BitVec.ofInt_add, BitVec.ofInt_toInt, BitVec.ofInt_toInt]

theorem sub_eq_ofInt {n : Nat} (a b : BitVec n) : a - b = BitVec.ofInt n (a.toInt - b.toInt) := by
  rw [Int.sub_eq_add_neg, BitVec.ofInt_add, BitVec.ofInt_neg, BitVec.ofInt_toInt, BitVec.ofInt_toInt, BitVec.sub_eq_add_neg]

theorem add_eq_ofNat {n : Nat} (a b : BitVec n) : a + b = BitVec.ofNat n (a.toNat + b.toNat) :=
  BitVec.eq_of_toNat_eq (by rw [BitVec.toNat_add, BitVec.toNat_ofNat])

theorem shiftLeft_eq_ofNat {n : Nat} (a : BitVec n) (k : Nat) : a <<< k = BitVec.ofNat n (a.toNat * 2 ^ k) :=
  BitVec.eq_of_toNat_eq (by rw [BitVec.toNat_shiftLeft, Nat.shiftLeft_eq, BitVec.toNat_ofNat])

theorem ushiftRight_eq_ofNat {n : Nat} (a : BitVec n) (k : Nat) : a >>> k = BitVec.ofNat n (a.toNat / 2 ^ k) := by
  rw [← Nat.shiftRight_eq_div_pow, ← BitVec.toNat_ushiftRight, BitVec.ofNat_toNat, BitVec.setWidth_eq]

theorem natCast_two_pow (k : Nat) : ((2 ^ k : Nat) : Int) = 2 ^ k := Int.natCast_pow 2 k

theorem toInt_sshiftRight_eq_div {n : Nat} (a : BitVec n) (k : Nat) : (a.sshiftRight k).toInt = a.toInt / 2 ^ k := by
  rw [BitVec.toInt_sshiftRight, Int.shiftRight_eq_div_pow, natCast_two_pow]

theorem sshiftRight_eq_ofInt {n : Nat} (a : BitVec n) (k : Nat) : a.sshiftRight k = BitVec.ofInt n (a.toInt / 2 ^ k) := by
  rw [← toInt_sshiftRight_eq_div, BitVec.ofInt_toInt]

theorem ofInt_shiftLeft (n : Nat) (v : Int) (k : Nat) : BitVec.ofInt n v <<< k = BitVec.ofInt n (v * 2 ^ k) := by
  have h : BitVec.twoPow n k = BitVec.ofInt n (2 ^ k) := by
    rw [← natCast_two_pow, BitVec.ofInt_natCast]
    exact BitVec.eq_of_toNat_eq (by rw [BitVec.toNat_twoPow, BitVec.toNat_ofNat])
  rw [BitVec.shiftLeft_eq_mul_twoPow, h, BitVec.ofInt_mul]

theorem add_shiftLeft_eq_ofNat {n : Nat} (a b : BitVec n) (k : Nat) :
    a + (b <<< k) = BitVec.ofNat n (a.toNat + 2 ^ k * b.toNat) := by
  rw [shiftLeft_eq_ofNat, Nat.mul_comm, BitVec.ofNat_add, BitVec.ofNat_toNat, BitVec.setWidth_eq]

/-! The .w forms: of 32 bits and sign-extended (R77). -/

theorem sextW_ofInt (v : Int) : sextW (BitVec.ofInt 64 v) = BitVec.ofInt 64 (v.bmod (2 ^ 32)) := by
  rw [sextW_eq, BitVec.toInt_ofInt, Int.bmod_bmod_of_dvd (by decide)]

theorem shl_word (a : Word) (k : Nat) : shl 1#1 a k = BitVec.ofInt 64 (((a.toNat * 2 ^ k : Nat) : Int).bmod (2 ^ 32)) := by
  have h : shl 1#1 a k = sextW (a <<< k) :=
    congrArg (BitVec.signExtend 64) (BitVec.setWidth_shiftLeft_of_le (Nat.le_add_right 32 32)).symm
  rw [h, shiftLeft_eq_ofNat, ← BitVec.ofInt_natCast, sextW_ofInt]

theorem shr_word (a : Word) (k : Nat) :
    shr 1#1 a k = BitVec.ofInt 64 (((a.toNat % 2 ^ 32 / 2 ^ k : Nat) : Int).bmod (2 ^ 32)) := by
  have h : shr 1#1 a k = (a.setWidth 32 >>> k).signExtend 64 := rfl
  rw [h, ushiftRight_eq_ofNat, signExtend_ofNat, BitVec.toNat_setWidth]

/-- A 32-bit value shifted right with its sign stays in 32 bits. -/
theorem sar_word (a : Word) (k : Nat) : sar 1#1 a k = BitVec.ofInt 64 ((a.toNat : Int).bmod (2 ^ 32) / 2 ^ k) := by
  have h : sar 1#1 a k = ((a.setWidth 32).sshiftRight k).signExtend 64 := rfl
  rw [h, BitVec.signExtend, toInt_sshiftRight_eq_div, BitVec.toInt_setWidth]

end Sys2Proof.Machine

/-! The immediate words (spec 02 R53; spec 03 R78). -/

namespace Sys2Proof.Machine

/-- A shift of 32 bits by more than 31: bits 6 and 5 of the word are both set. -/
theorem shiftOk_eq_false {w : BitVec 32} (h : fld w 5 2 = 3#2) : shiftOk (fld w 6 1) (fld w 0 6) = false := by
  have h5 : (fld w 5 2).toNat = 3 := congrArg BitVec.toNat h
  obtain ⟨h6, h0⟩ : (fld w 6 1).toNat ≠ 0 ∧ 32 ≤ (fld w 0 6).toNat := by
    simp only [fld, BitVec.extractLsb'_toNat, Nat.shiftRight_eq_div_pow] at h5 ⊢
    omega
  have hx : fld w 6 1 ≠ 0#1 := fun hx => h6 (congrArg BitVec.toNat hx)
  simp only [shiftOk, hx, decide_false, Bool.false_or, decide_eq_false_iff_not, Nat.not_lt, h0]

theorem illegalOp_shift {w : BitVec 32} (h6 : 6 ≤ (fld w 22 6).toNat) (h8 : (fld w 22 6).toNat ≤ 8)
    (h : fld w 7 5 ≠ 0#5 ∨ fld w 5 2 = 3#2) : illegalOp w := by
  have hok : fld w 7 5 = 0#5 → shiftOk (fld w 6 1) (fld w 0 6) = false :=
    fun h0 => shiftOk_eq_false (h.resolve_left (not_not_intro h0))
  have hmajor : fld w 22 6 = 6#6 ∨ fld w 22 6 = 7#6 ∨ fld w 22 6 = 8#6 := by
    simp only [← BitVec.toNat_inj, BitVec.toNat_ofNat]; omega
  obtain hm | hm | hm := hmajor
  · exact illegalOp_of_reserved (major_06 hm) hok
  · exact illegalOp_of_reserved (major_07 hm) hok
  · exact illegalOp_of_reserved (major_08 hm) hok

theorem add_imm12 (a : Word) (i : BitVec 12) : a + imm12 i = BitVec.ofInt 64 (a.toInt + i.toInt) := by
  rw [BitVec.ofInt_add, BitVec.ofInt_toInt]; rfl

theorem imm17_shiftLeft (i : BitVec 17) (k : Nat) : imm17 i <<< k = BitVec.ofInt 64 (i.toInt * 2 ^ k) :=
  ofInt_shiftLeft 64 i.toInt k

/-- The 17 bits that LSI shifts in fall below every bit of the value shifted. -/
theorem shiftLeft_or_setWidth (a : Word) (j : BitVec 17) :
    a <<< 17 ||| j.setWidth 64 = BitVec.ofNat 64 (a.toNat * 2 ^ 17 + j.toNat) := by
  have hdisj : a <<< 17 &&& j.setWidth 64 = 0#64 := by
    ext k hk
    by_cases h : k < 17
    · simp [h]
    · simp [BitVec.getLsbD_of_ge j k (by omega)]
  rw [← BitVec.add_eq_or_of_and_eq_zero _ _ hdisj, shiftLeft_eq_ofNat, BitVec.ofNat_add, BitVec.ofNat_toNat]

/-- Settles O1: each meaning queues one value by definition, which the lemmas above put as R78's row has it. -/
theorem immediateWords : Obligations.ImmediateWords := by
  unfold Obligations.ImmediateWords
  intro s d a i n j
  exact ⟨
    next_wrote_of_eq (add_imm12 _ _) rfl,
    next_wrote_of_eq ((congrArg sextW (add_imm12 _ _)).trans (sextW_ofInt _)) rfl,
    rfl,
    rfl,
    rfl,
    next_wrote_of_eq (shiftLeft_eq_ofNat _ _) rfl,
    next_wrote_of_eq (ushiftRight_eq_ofNat _ _) rfl,
    next_wrote_of_eq (sshiftRight_eq_ofInt _ _) rfl,
    next_wrote_of_eq (shl_word _ _) rfl,
    next_wrote_of_eq (shr_word _ _) rfl,
    next_wrote_of_eq (sar_word _ _) rfl,
    rfl,
    next_wrote_of_eq (imm17_shiftLeft _ _) rfl,
    next_wrote_of_eq (shiftLeft_or_setWidth _ _) rfl,
    fun w => illegalOp_shift,
    by rfl, by rfl, by rfl, by decide⟩

end Sys2Proof.Machine

/-! The register words (spec 02 R53, R58; spec 03 R79). -/

namespace Sys2Proof.Machine

/-! The function codes of major 0x10 (R58). -/

theorem illegalOp_scalarReg {w : BitVec 32} {e : DecodeError} (hw : fld w 22 6 = 0x10#6) (h : decodeScalarReg w = .error e) :
    illegalOp w := illegalOp_of_decode_error (decode_of_body_error ((major_10 hw).trans h))

theorem decodeScalarReg_unassigned {w : BitVec 32} (h : 0x1A ≤ (fld w 0 6).toNat ∧ (fld w 0 6).toNat ≤ 0x1F ∨
    0x22 ≤ (fld w 0 6).toNat ∧ (fld w 0 6).toNat ≤ 0x25 ∨ 0x29 ≤ (fld w 0 6).toNat ∧ (fld w 0 6).toNat ≤ 0x2C ∨
    0x30 ≤ (fld w 0 6).toNat) : decodeScalarReg w = .error .unassignedFunction := by
  unfold decodeScalarReg
  split
  case h_35 => rfl
  all_goals omega

/-- The words of one source register refuse a field b that is not 0. -/
theorem decodeScalarReg_unary {w : BitVec 32} (h : 0x0D ≤ (fld w 0 6).toNat ∧ (fld w 0 6).toNat ≤ 0x15 ∨
    0x2D ≤ (fld w 0 6).toNat ∧ (fld w 0 6).toNat ≤ 0x2F) (hb : fld w 7 5 ≠ 0#5) :
    decodeScalarReg w = .error .reservedField := by
  have hfn : (fld w 0 6).toNat = 0x0D ∨ (fld w 0 6).toNat = 0x0E ∨ (fld w 0 6).toNat = 0x0F ∨ (fld w 0 6).toNat = 0x10 ∨
      (fld w 0 6).toNat = 0x11 ∨ (fld w 0 6).toNat = 0x12 ∨ (fld w 0 6).toNat = 0x13 ∨ (fld w 0 6).toNat = 0x14 ∨
      (fld w 0 6).toNat = 0x15 ∨ (fld w 0 6).toNat = 0x2D ∨ (fld w 0 6).toNat = 0x2E ∨ (fld w 0 6).toNat = 0x2F := by omega
  rcases hfn with hfn | hfn | hfn | hfn | hfn | hfn | hfn | hfn | hfn | hfn | hfn | hfn <;>
    simp only [decodeScalarReg, hfn, reserved, if_neg hb]

/-! Results of latency 1, or transient. -/

theorem State.alu_ran (s : State) (d : BitVec 5) (t : BitVec 1) (v : Word) :
    { s.alu d t v with mark := .ran } = s.made d t v := by
  unfold State.alu State.made
  split <;> rfl

/-- A word whose effect is the result v makes u, another form of the same value. -/
theorem next_made_of_eq {s : State} {d : BitVec 5} {t : BitVec 1} {v u : Word} {o : Host.Outcome State Fault Refusal}
    (hv : v = u) (h : o = .next { s.alu d t v with mark := .ran }) : o = .next (s.made d t u) := by
  rw [h, State.alu_ran, hv]

/-! The smaller and the larger of two values. -/

theorem eq_ofInt_of_eq {n : Nat} {a : BitVec n} {v : Int} (h : v = a.toInt) : a = BitVec.ofInt n v := by
  rw [h, BitVec.ofInt_toInt]

theorem eq_ofNat_of_eq {n v : Nat} {a : BitVec n} (h : v = a.toNat) : a = BitVec.ofNat n v := by
  rw [h, BitVec.ofNat_toNat, BitVec.setWidth_eq]

theorem min_slt_eq {n : Nat} (a b : BitVec n) : (if a.slt b then a else b) = BitVec.ofInt n (min a.toInt b.toInt) := by
  simp only [BitVec.slt_iff_toInt_lt]
  split
  · exact eq_ofInt_of_eq (by omega)
  · exact eq_ofInt_of_eq (by omega)

theorem max_slt_eq {n : Nat} (a b : BitVec n) : (if a.slt b then b else a) = BitVec.ofInt n (max a.toInt b.toInt) := by
  simp only [BitVec.slt_iff_toInt_lt]
  split
  · exact eq_ofInt_of_eq (by omega)
  · exact eq_ofInt_of_eq (by omega)

theorem min_ult_eq {n : Nat} (a b : BitVec n) : (if a.ult b then a else b) = BitVec.ofNat n (min a.toNat b.toNat) := by
  simp only [BitVec.ult_iff_toNat_lt]
  split
  · exact eq_ofNat_of_eq (by omega)
  · exact eq_ofNat_of_eq (by omega)

theorem max_ult_eq {n : Nat} (a b : BitVec n) : (if a.ult b then b else a) = BitVec.ofNat n (max a.toNat b.toNat) := by
  simp only [BitVec.ult_iff_toNat_lt]
  split
  · exact eq_ofNat_of_eq (by omega)
  · exact eq_ofNat_of_eq (by omega)

/-! Sums and differences of 32 bits. -/

theorem sextW_add (a b : Word) : sextW (a + b) = BitVec.ofInt 64 ((a.toInt + b.toInt).bmod (2 ^ 32)) := by
  rw [add_eq_ofInt, sextW_ofInt]

theorem sextW_sub (a b : Word) : sextW (a - b) = BitVec.ofInt 64 ((a.toInt - b.toInt).bmod (2 ^ 32)) := by
  rw [sub_eq_ofInt, sextW_ofInt]

/-! The extensions. -/

theorem signExtend_setWidth (m : Nat) (a : Word) :
    (a.setWidth m).signExtend 64 = BitVec.ofInt 64 ((a.toNat : Int).bmod (2 ^ m)) := by
  rw [BitVec.signExtend, BitVec.toInt_setWidth]

theorem setWidth_setWidth_eq_ofNat (m : Nat) (a : Word) : (a.setWidth m).setWidth 64 = BitVec.ofNat 64 (a.toNat % 2 ^ m) := by
  rw [← BitVec.toNat_setWidth, BitVec.ofNat_toNat]

/-! The counts of zeros and of set bits. -/

theorem leadZeros_eq (v n : Nat) :
    leadZeros v n = if v % 2 ^ n = 0 then n else n - 1 - Nat.log2 (v % 2 ^ n) := by
  induction n with
  | zero => simp [leadZeros]
  | succ n ih =>
    have hlt : v % 2 ^ n < 2 ^ n := Nat.mod_lt _ (Nat.two_pow_pos n)
    have hbits : v % 2 ^ (n + 1) = v % 2 ^ n + 2 ^ n * (v.testBit n).toNat := by rw [Nat.mod_pow_succ, Nat.toNat_testBit]
    cases hbit : v.testBit n with
    | true =>
      rw [hbit, Bool.toNat_true, Nat.mul_one] at hbits
      have hlog : Nat.log2 (v % 2 ^ (n + 1)) = n :=
        (Nat.log2_eq_iff (by omega)).mpr ⟨by omega, by rw [hbits, Nat.pow_succ]; omega⟩
      rw [leadZeros, hbit, if_pos rfl, if_neg (by omega), hlog]
      omega
    | false =>
      simp only [hbit, Bool.toNat_false, Nat.mul_zero, Nat.add_zero] at hbits
      rw [leadZeros, hbit, if_neg Bool.false_ne_true, ih, hbits]
      split
      · omega
      · next h => have hlog := (Nat.log2_lt h).mpr hlt; omega

/-- The count n of trailing zeros among bits k, k + 1, …, k + m - 1: n zeros from bit k up, then a set bit unless n is m. -/
theorem trailZeros_spec (v k m : Nat) : trailZeros v k m ≤ m ∧ (∀ i, i < trailZeros v k m → v.testBit (k + i) = false) ∧
    (trailZeros v k m < m → v.testBit (k + trailZeros v k m) = true) := by
  induction m generalizing k with
  | zero => simp [trailZeros]
  | succ m ih =>
    cases hbit : v.testBit k
    case true => simp [trailZeros, hbit]
    case false =>
      obtain ⟨hle, hzero, hone⟩ := ih (k + 1)
      have hstep : trailZeros v k (m + 1) = trailZeros v (k + 1) m + 1 := by simp [trailZeros, hbit, Nat.add_comm]
      rw [hstep]
      refine ⟨by omega, fun i hi => ?_, fun hlt => ?_⟩
      · cases i with
        | zero => exact hbit
        | succ i => rw [← Nat.add_assoc, Nat.add_right_comm]; exact hzero i (by omega)
      · rw [← Nat.add_assoc, Nat.add_right_comm]; exact hone (by omega)

theorem popCount_eq (v n : Nat) : popCount v n = ((List.range n).filter (fun i => v.testBit i)).length := by
  induction n with
  | zero => rfl
  | succ n ih =>
    rw [popCount, ih, List.range_succ, List.filter_append, List.length_append, Nat.add_comm]
    cases hbit : v.testBit n <;> simp [hbit]

/-! The obligation. -/

/-- Settles O2: each meaning makes one value by definition, which the lemmas above put as R79's row has it. -/
theorem registerWords : Obligations.RegisterWords := by
  unfold Obligations.RegisterWords
  constructor
  · intro s d a b t
    refine ⟨
      next_made_of_eq (add_eq_ofNat _ _) rfl,
      next_made_of_eq (sub_eq_ofInt _ _) rfl,
      next_made_of_eq rfl rfl,
      next_made_of_eq rfl rfl,
      next_made_of_eq rfl rfl,
      next_made_of_eq rfl rfl,
      next_made_of_eq (shiftLeft_eq_ofNat _ _) rfl,
      next_made_of_eq (ushiftRight_eq_ofNat _ _) rfl,
      next_made_of_eq (sshiftRight_eq_ofInt _ _) rfl,
      next_made_of_eq (min_slt_eq _ _) rfl,
      next_made_of_eq (max_slt_eq _ _) rfl,
      next_made_of_eq (min_ult_eq _ _) rfl,
      next_made_of_eq (max_ult_eq _ _) rfl,
      next_made_of_eq (add_shiftLeft_eq_ofNat _ _ 1) rfl,
      next_made_of_eq (add_shiftLeft_eq_ofNat _ _ 2) rfl,
      next_made_of_eq (add_shiftLeft_eq_ofNat _ _ 3) rfl,
      next_made_of_eq (add_shiftLeft_eq_ofNat _ _ 4) rfl,
      next_made_of_eq (sextW_add _ _) rfl,
      next_made_of_eq (sextW_sub _ _) rfl,
      next_made_of_eq (shl_word _ _) rfl,
      next_made_of_eq (shr_word _ _) rfl,
      next_made_of_eq (sar_word _ _) rfl,
      fun w hw h => ?_⟩
    obtain h | h | h | h | ⟨h, hb⟩ := h
    · exact illegalOp_scalarReg hw (decodeScalarReg_unassigned (.inl h))
    · exact illegalOp_scalarReg hw (decodeScalarReg_unassigned (.inr (.inl h)))
    · exact illegalOp_scalarReg hw (decodeScalarReg_unassigned (.inr (.inr (.inl h))))
    · exact illegalOp_scalarReg hw (decodeScalarReg_unassigned (.inr (.inr (.inr h))))
    · exact illegalOp_scalarReg hw (decodeScalarReg_unary h hb)
  · intro s d a t
    refine ⟨
      next_made_of_eq (congrArg _ (leadZeros_eq _ 64)) rfl,
      next_made_of_eq (congrArg _ (leadZeros_eq _ 32)) rfl,
      fun w hw => ?_,
      next_made_of_eq (congrArg _ (popCount_eq _ 64)) rfl,
      next_made_of_eq (congrArg _ (popCount_eq _ 32)) rfl,
      next_made_of_eq (signExtend_setWidth 8 _) rfl,
      next_made_of_eq (signExtend_setWidth 16 _) rfl,
      next_made_of_eq (signExtend_setWidth 32 _) rfl,
      next_made_of_eq (setWidth_setWidth_eq_ofNat 8 _) rfl,
      next_made_of_eq (setWidth_setWidth_eq_ofNat 16 _) rfl,
      next_made_of_eq (setWidth_setWidth_eq_ofNat 32 _) rfl⟩
    obtain ⟨hle, hzero, hone⟩ := trailZeros_spec (s.sr a).toNat 0 w
    simp only [Nat.zero_add] at hzero hone
    refine ⟨_, hle, hzero, hone, ?_⟩
    obtain rfl | rfl := hw
    · exact next_made_of_eq rfl rfl
    · exact next_made_of_eq rfl rfl

end Sys2Proof.Machine

/-! PTGT and the compares (spec 02 R63; spec 03 R97). -/

namespace Sys2Proof.Machine

theorem decodeCompare_unassigned {w : BitVec 32} (h6 : 6 ≤ (fld w 0 7).toNat)
    (h : (fld w 0 7).toNat ≤ 7 ∨ 0xE ≤ (fld w 0 7).toNat) : decodeCompare w = .error .unassignedFunction := by
  unfold decodeCompare
  split
  case h_13 => rfl
  all_goals omega

/-! Each relation as one of numbers, at every width. -/

theorem holds_eq_iff {n : Nat} (a b : BitVec n) : Cond.eq.holds a b = true ↔ a.toNat = b.toNat :=
  beq_iff_eq.trans BitVec.toNat_inj.symm

theorem holds_ne_iff {n : Nat} (a b : BitVec n) : Cond.ne.holds a b = true ↔ a.toNat ≠ b.toNat :=
  bne_iff_ne.trans (not_congr BitVec.toNat_inj.symm)

theorem holds_lt_iff {n : Nat} (a b : BitVec n) : Cond.lt.holds a b = true ↔ a.toInt < b.toInt :=
  BitVec.slt_iff_toInt_lt

theorem holds_ge_iff {n : Nat} (a b : BitVec n) : Cond.ge.holds a b = true ↔ b.toInt ≤ a.toInt :=
  BitVec.sle_iff_toInt_le

theorem holds_ltu_iff {n : Nat} (a b : BitVec n) : Cond.ltu.holds a b = true ↔ a.toNat < b.toNat :=
  BitVec.ult_iff_lt.trans BitVec.lt_def

theorem holds_geu_iff {n : Nat} (a b : BitVec n) : Cond.geu.holds a b = true ↔ b.toNat ≤ a.toNat :=
  BitVec.ule_iff_le.trans BitVec.le_def

theorem ofBool64_of_iff {b : Bool} {p : Prop} [Decidable p] (h : b = true ↔ p) : ofBool64 b = if p then 1#64 else 0#64 := by
  simp only [ofBool64, h]

/-- A compare whose relation is one of unsigned values relates those of 64 bits, or of the low 32 in the .w form. -/
theorem compare_of_toNat {k : Cond} {R : Nat → Nat → Prop} [DecidableRel R]
    (h : ∀ {n : Nat} (a b : BitVec n), k.holds a b = true ↔ R a.toNat b.toNat) (x : BitVec 1) (a b : Word) :
    compare k x a b = if R (if x = 0#1 then a.toNat else a.toNat % 2 ^ 32) (if x = 0#1 then b.toNat else b.toNat % 2 ^ 32)
      then 1#64 else 0#64 := by
  refine ofBool64_of_iff ?_
  split
  · exact h a b
  · simp only [h, BitVec.toNat_setWidth]

/-- A compare whose relation is one of signed values relates those of 64 bits, or of the low 32 in the .w form. -/
theorem compare_of_toInt {k : Cond} {R : Int → Int → Prop} [DecidableRel R]
    (h : ∀ {n : Nat} (a b : BitVec n), k.holds a b = true ↔ R a.toInt b.toInt) (x : BitVec 1) (a b : Word) :
    compare k x a b = if R (if x = 0#1 then a.toInt else (a.toNat : Int).bmod (2 ^ 32))
      (if x = 0#1 then b.toInt else (b.toNat : Int).bmod (2 ^ 32)) then 1#64 else 0#64 := by
  refine ofBool64_of_iff ?_
  split
  · exact h a b
  · simp only [h, BitVec.toInt_setWidth]

theorem add_imm17_shiftLeft (pc : Word) (i : BitVec 17) :
    pc + (imm17 i <<< 2) = BitVec.ofInt 64 (pc.toInt + i.toInt * 4) := by
  rw [imm17_shiftLeft, BitVec.ofInt_add, BitVec.ofInt_toInt]; rfl

/-- Settles O4: each word queues one value by definition, a compare's by the relation of numbers that it tests. -/
theorem targetsAndCompares : Obligations.TargetsAndCompares := by
  unfold Obligations.TargetsAndCompares
  intro s d a b x i
  exact ⟨
    next_wrote_of_eq (add_imm17_shiftLeft _ _) rfl,
    next_wrote_of_eq (compare_of_toNat (R := (· = ·)) holds_eq_iff _ _ _) rfl,
    next_wrote_of_eq (compare_of_toNat (R := (· ≠ ·)) holds_ne_iff _ _ _) rfl,
    next_wrote_of_eq (compare_of_toInt (R := (· < ·)) holds_lt_iff _ _ _) rfl,
    next_wrote_of_eq (compare_of_toInt (R := fun u v => v ≤ u) holds_ge_iff _ _ _) rfl,
    next_wrote_of_eq (compare_of_toNat (R := (· < ·)) holds_ltu_iff _ _ _) rfl,
    next_wrote_of_eq (compare_of_toNat (R := fun u v => v ≤ u) holds_geu_iff _ _ _) rfl,
    fun w hw h6 h => illegalOp_of_decode_error
      (decode_of_body_error ((major_1B hw).trans (decodeCompare_unassigned h6 h)))⟩

end Sys2Proof.Machine
